-- ==== Sys2Proof/Word.lean ====
section
/-! DEFINITION. The word types of the RX-7160 and the Bruix block (R8, R9). Registers are 32 bits (R11), kernel
scalars 64 bits (R122), digests 256 bits (R73). -/
namespace Sys2Proof

/-- One byte. -/
abbrev Byte := BitVec 8
/-- A 16-bit field. -/
abbrev W16 := BitVec 16
/-- A register word (R11). -/
abbrev W32 := BitVec 32
/-- A scalar register or a 64-bit quantity (R122). -/
abbrev W64 := BitVec 64
/-- A 256-bit digest (R73): the value of its 32 bytes read little-endian. -/
abbrev Digest := BitVec 256

end Sys2Proof
end

