-- ==== Sys2Proof/Messages.lean ====
section
/-! DEFINITION. The operands of the commands: packets, frames and messages as they reach the block, in the layouts of
the spec. -/
namespace Sys2Proof.Machine

/-- A control message (R214, R217): the envelope without its type, which the command names, and the bytes after the
envelope, padding included. -/
structure CtlMsg where
  /-- Envelope flags: bit 0 is repeat. -/
  flags : Byte
  /-- Body bytes before padding. -/
  length : W16
  jobId : W32
  /-- A step number or a command ID. -/
  ident : W64
  /-- The bytes that follow the envelope. -/
  bytes : List Byte
  deriving DecidableEq, Repr

/-- A command packet (R404) without its opcode, which the command names. -/
structure CmdPkt where
  version : Byte
  flags : Byte
  job : W32
  id : W64
  gen : W16
  paramBytes : W16
  reserved0 : W32
  hostTag : W64
  reserved1 : BitVec 256
  params : List Byte
  deriving DecidableEq, Repr

/-- A Miopra packet header (R261). -/
structure PktHdr where
  kind : Byte
  flags : Byte
  tag : Byte
  gen : Byte
  length : W32
  seq : W32
  jobId : W32
  src : W16
  dst : W16
  unit : W32
  reserved : W64
  deriving DecidableEq, Repr

/-- A packet: its header and its content. -/
structure Packet where
  hdr : PktHdr
  content : List Byte
  deriving DecidableEq, Repr

/-- A flit slot as FEC decoding leaves it (R255). -/
structure FlitSlot where
  valid : Bool
  vc : Fin 4
  sop : Bool
  eop : Bool
  reserved : Fin 8
  parity : BitVec 4
  data : BitVec 256
  deriving DecidableEq, Repr

/-- A frame header (R254). -/
structure FrameHdr where
  kind : Fin 4
  firstSeq : BitVec 10
  ackSeq : BitVec 10
  creditVc : Fin 4
  credits : BitVec 12
  deriving DecidableEq, Repr

/-- A received frame: a codeword of 640 symbols with the symbols that arrived wrong, and its information bits as they were sent
(R253, R267). -/
structure Frame where
  /-- Symbols of the codeword that arrived wrong. -/
  errors : List (Fin 640)
  hdr : FrameHdr
  slots : List FlitSlot
  deriving DecidableEq, Repr

/-- The lane results and the peer's parameters that PARAM exchanges (R257). -/
structure ParamResult where
  /-- The exchange itself completed. -/
  ok : Bool
  proto : Byte
  /-- Physical site ID or controller ID of the peer. -/
  peerId : W16
  /-- Bruix revision of the peer, or 0 for a controller. -/
  peerRev : Fin 16
  /-- Lanes that passed at both ends. -/
  lanes : BitVec 16
  /-- The peer's receive buffer of each VC, in flits. -/
  buffers : List Nat
  deriving DecidableEq, Repr

/-- An abort marker as it stands in its 16 bytes (R231). -/
structure Marker where
  reason : Byte
  tags : Byte
  flags : Byte
  origin : W16
  abortSeq : W16
  jobId : W32
  hops : Byte
  deriving DecidableEq, Repr

/-- A gradient slice descriptor (R236) with the bounds of its layer, which the accelerator's layer table gives. -/
structure GradSlice where
  tag : Byte
  gen : Byte
  layer : W16
  first : W64
  count : W32
  fmt : Fin 32
  addr : W64
  lastOfLayer : Bool
  layerFirst : W64
  layerCount : W32
  deriving DecidableEq, Repr

/-- A register access of the host: its width in bytes, 4 or less, and its offset (R11). -/
structure RegAccess where
  bytes : Fin 5
  offset : BitVec 24
  deriving DecidableEq, Repr

/-- The node digests of one level of a descent, from the other holder (R191). -/
structure NodeDigests where
  holder : W16
  digests : List Digest
  deriving DecidableEq, Repr

/-- A control message on the pair link for one site (R178). -/
structure SiteMsg where
  site : Fin 8
  msg : CtlMsg
  deriving DecidableEq, Repr

/-- A tile descriptor at the sample select port (R239). -/
structure TileDesc where
  tag : Byte
  layer : W16
  pass : Fin 4
  matmul : W16
  tile : W32
  m : W16
  n : W16
  k : W32
  cls : Byte
  engine : Byte
  profileId : W16
  gsLog2 : Byte
  bFmt : Fin 32
  bFirst : W64
  bStride : W32
  bTranspose : Bool
  cIn : Bool
  bFromStream : Bool
  /-- FR byte of the profile's C, and formats of A: what the record's sizes follow from (R180, R183). -/
  cFr : Byte
  aFmt : Fin 32
  /-- The generation latched when the work started (R227). -/
  gen : Byte
  deriving DecidableEq, Repr

/-- What the sample select port is asked: a tile, and BRX_TEMP as it reads then (R210, R239). -/
structure TileAsk where
  temp : Byte
  desc : TileDesc
  deriving DecidableEq, Repr

/-- Elements of one matmul as they pass the tap port (R188, R238). -/
structure TapData where
  tag : Byte
  gen : Byte
  layer : W16
  pass : Fin 2
  matmul : W16
  k : W32
  n : W32
  rows : W64
  bFirst : W64
  bStride : W32
  bTranspose : Bool
  cFr : Byte
  aFmt : Fin 32
  profileId : W16
  deriving DecidableEq, Repr

/-- A PTP Sync (R431, R432): its domain, sequence, two-step flag, originTimestamp, correctionField in units of
2^−16 ns, and sender. -/
structure PtpSync where
  domain : Fin 128
  seqId : W16
  twoStep : Bool
  origin : W64 × W32
  corr : W64
  sender : W64
  deriving DecidableEq, Repr

/-- The straps (R509, R23). -/
structure StrapSt where
  side : Bool
  x : BitVec 4
  y : BitVec 4
  z : BitVec 4
  spare : Bool
  deriving DecidableEq, Repr

/-- How the training of a stack ended (R473). -/
inductive TrainResult where
  | full | slow | failed
  deriving DecidableEq, Repr

/-- The area in which an uncorrected HBM error lies (R84): a frame of the job area, a map area, the system area, or the hold
area of a job with the place of the contribution it hit. -/
inductive UeArea where
  | frame (f : BitVec 20)
  | map (copy : Fin 2)
  | system (copy : Fin 2)
  | hold (job : W32) (index : Nat)
  deriving DecidableEq, Repr

end Sys2Proof.Machine
end

