-- ==== Sys2Proof/Syntax.lean ====
section
/-! DEFINITION. The commands: one constructor for each row of spec/opcode_table.json, with the operands that the row's
rules name. The instructions of the update slices stand first and the commands without operands last, each group in the order of the
table: Lean's compiled code numbers no more than 244 constructors that have operands. -/
namespace Sys2Proof
open Machine

/-- A command of the block. -/
inductive Instr where
  /-- VADD (R127): Vector add. -/
  | vadd (k : Fin 16) (vd va vb vc : Fin 32) (mask mode : Fin 8)
  /-- VSUB (R127): Vector subtract. -/
  | vsub (k : Fin 16) (vd va vb vc : Fin 32) (mask mode : Fin 8)
  /-- VMUL (R127): Vector multiply. -/
  | vmul (k : Fin 16) (vd va vb vc : Fin 32) (mask mode : Fin 8)
  /-- VFMA (R127): Vector fused multiply-add. -/
  | vfma (k : Fin 16) (vd va vb vc : Fin 32) (mask mode : Fin 8)
  /-- VFNMA (R127): Vector negated fused multiply-add. -/
  | vfnma (k : Fin 16) (vd va vb vc : Fin 32) (mask mode : Fin 8)
  /-- VMAX (R127): Vector IEEE maximum. -/
  | vmax (k : Fin 16) (vd va vb vc : Fin 32) (mask mode : Fin 8)
  /-- VMIN (R127): Vector IEEE minimum. -/
  | vmin (k : Fin 16) (vd va vb vc : Fin 32) (mask mode : Fin 8)
  /-- VABS (R127): Vector absolute value. -/
  | vabs (k : Fin 16) (vd va vb vc : Fin 32) (mask mode : Fin 8)
  /-- VNEG (R127): Vector negate. -/
  | vneg (k : Fin 16) (vd va vb vc : Fin 32) (mask mode : Fin 8)
  /-- VSEL (R127): Vector select by mask. -/
  | vsel (k : Fin 16) (vd va vb vc : Fin 32) (mask mode : Fin 8)
  /-- VCMP (R127): Vector compare into a mask. -/
  | vcmp (k : Fin 16) (vd va vb vc : Fin 32) (mask mode : Fin 8)
  /-- VCLASS (R127): Vector classify into a mask. -/
  | vclass (k : Fin 16) (vd va vb vc : Fin 32) (mask mode : Fin 8)
  /-- VMOV (R127): Vector move. -/
  | vmov (k : Fin 16) (vd va vb vc : Fin 32) (mask mode : Fin 8)
  /-- VCVT (R127): Round to a format and return exactly in binary32. -/
  | vcvt (k : Fin 16) (vd va : Fin 32) (fr sel : Byte)
  /-- VADDS (R127): Vector add of a scalar. -/
  | vadds (k : Fin 16) (vd va vb sa : Fin 32) (mask mode : Fin 8)
  /-- VMULS (R127): Vector multiply by a scalar. -/
  | vmuls (k : Fin 16) (vd va vb sa : Fin 32) (mask mode : Fin 8)
  /-- VFMAS (R127): Vector fused multiply-add with a scalar. -/
  | vfmas (k : Fin 16) (vd va vb sa : Fin 32) (mask mode : Fin 8)
  /-- VBCAST (R127): Broadcast a scalar to every lane. -/
  | vbcast (k : Fin 16) (vd va vb sa : Fin 32) (mask mode : Fin 8)
  /-- VDIV (R127): Vector divide on the ROOT port. -/
  | vdiv (k : Fin 16) (vd va vb vc : Fin 32) (mask mode : Fin 8)
  /-- VSQRT (R127): Vector square root. -/
  | vsqrt (k : Fin 16) (vd va vb vc : Fin 32) (mask mode : Fin 8)
  /-- VRSQRT (R127): Vector reciprocal square root. -/
  | vrsqrt (k : Fin 16) (vd va vb vc : Fin 32) (mask mode : Fin 8)
  /-- VLD (R131): Load the next vector of a stream; a GRAD_IN load writes silt, unscales and feeds slots. -/
  | vld (k : Fin 16) (v sa : Fin 32) (stream : Fin 16) (sel : Byte) (rsv : Fin 16)
  /-- VST (R132): Convert a vector into an output stream. -/
  | vst (k : Fin 16) (v sa : Fin 32) (stream : Fin 16) (sel : Byte) (rsv : Fin 16)
  /-- VTLD (R135): Load 2 KiB of scratch tile memory. -/
  | vtld (k : Fin 16) (v sa : Fin 32) (stream : Fin 16) (sel : Byte) (rsv : Fin 16)
  /-- VTST (R135): Store 2 KiB to scratch tile memory. -/
  | vtst (k : Fin 16) (v sa : Fin 32) (stream : Fin 16) (sel : Byte) (rsv : Fin 16)
  /-- VSEEK (R133): Set the next element of an auxiliary stream. -/
  | vseek (k : Fin 16) (v sa : Fin 32) (stream : Fin 16) (sel : Byte) (rsv : Fin 16)
  /-- VACCSQ (R134): Accumulate sum of squares and the non-finite count into a slot. -/
  | vaccsq (k : Fin 16) (vd va : Fin 32) (slot field : Fin 8) (rsv : Fin 16) (mask mode : Fin 8)
  /-- VWELF (R134): Accumulate into a slot under Welford. -/
  | vwelf (k : Fin 16) (vd va : Fin 32) (slot field : Fin 8) (rsv : Fin 16) (mask mode : Fin 8)
  /-- VHSUM (R127): Binary64 horizontal sum of the lanes. -/
  | vhsum (k : Fin 16) (vd va : Fin 32) (slot field : Fin 8) (rsv : Fin 16) (mask mode : Fin 8)
  /-- RDGET (R134): Read a field of a merged reduction slot. -/
  | rdget (k : Fin 16) (vd va : Fin 32) (slot field : Fin 8) (rsv : Fin 16) (mask mode : Fin 8)
  /-- RDCLR (R134): Reset a slot to the empty state. -/
  | rdclr (k : Fin 16) (vd va : Fin 32) (slot field : Fin 8) (rsv : Fin 16) (mask mode : Fin 8)
  /-- SADD (R127): Scalar integer add or subtract. -/
  | sadd (k : Fin 16) (sd sa sb sub : Fin 32) (rsv : Fin 64)
  /-- SADDI (R127): Scalar add of an immediate. -/
  | saddi (k : Fin 16) (sd sa : Fin 32) (imm : W16)
  /-- SLI (R127): Load a 16-bit immediate into one quarter of a scalar. -/
  | sli (k : Fin 16) (sd sa : Fin 32) (imm : W16)
  /-- SFOP (R127): Scalar binary64 operation. -/
  | sfop (k : Fin 16) (sd sa sb sub : Fin 32) (rsv : Fin 64)
  /-- SCVT (R127): Scalar conversion. -/
  | scvt (k : Fin 16) (sd sa sb sub : Fin 32) (rsv : Fin 64)
  /-- SLDP (R136): Load a kernel_params word. -/
  | sldp (k : Fin 16) (sd sa : Fin 32) (imm : W16)
  /-- SLDB (R136): Load a committed scalar block word. -/
  | sldb (k : Fin 16) (sd sa : Fin 32) (imm : W16)
  /-- SSTB (R136): Store a working scalar block word, effective from slice 0 only. -/
  | sstb (k : Fin 16) (sd sa : Fin 32) (imm : W16)
  /-- LOOP (R127): Repeat the next instructions. -/
  | loop (k : Fin 16) (sd sa : Fin 32) (imm : W16)
  /-- BR (R127): Conditional branch. -/
  | br (k : Fin 16) (sa : Fin 32) (cond : Fin 8) (rsv : Fin 4) (off : W16)
  /-- FENCE (R127): Wait until stores are accepted. -/
  | fence (k : Fin 16) (sa : Fin 32) (cond : Fin 8) (rsv : Fin 4) (off : W16)
  /-- HALT (R141): End the invocation or prologue, checking output streams. -/
  | halt (k : Fin 16) (sa : Fin 32) (cond : Fin 8) (rsv : Fin 4) (off : W16)
  /-- SIGNAL (R127): Report a code to the hub cores as a Notice event. -/
  | signal (k : Fin 16) (sd sa : Fin 32) (imm : W16)
  /-- KERNEL_LIMIT (R141): An invocation runs KERNEL_LIMIT cycles and faults with LIMIT. -/
  | kernelLimit (k : Fin 16)
  /-- ILLEGAL (R128): A slice issues an instruction word whose opcode the table does not list and faults with
    ILLEGAL. -/
  | illegal (k : Fin 16) (w : W32)
  /-- SLOT_FLAG_WRITE (R402): Host writes 1 to a HOST command slot flag, handing the slot to the controller. -/
  | slotFlagWrite (slot : Fin 256) (v : W32)
  /-- HOST_SLOT_WRITE (R402): Host write to the bytes of a command slot; it is discarded and counted if the slot is
    DEVICE. -/
  | hostSlotWrite (slot : Fin 256) (off : Fin 256) (bytes : List Byte)
  /-- PAGE_FLAG_WRITE (R412): Host writes a bulk-window page flag word; only HOST to DEVICE changes take effect. -/
  | pageFlagWrite (word : Fin 16384) (v : W32)
  /-- WINDOW_PAGE_ACCESS (R412): Host read or write of a bulk-window page, handled by the page flag and counted as a
    violation where refused. -/
  | windowPageAccess (w : Fin 64) (off : BitVec 28) (n : Nat) (data : Option (List Byte))
  /-- HST_CQ_HEAD_WRITE (R408): Host advances the completion ring head; queued completions are then written. -/
  | hstCqHeadWrite (v : W32)
  /-- HST_CQ_ENABLE (R421): Writing cq_en from 0 to 1 sets CQ_TAIL to CQ_HEAD. -/
  | hstCqEnable (v : W32)
  /-- BDR_RETURN (R387): Host returns a bedrock slot as durable; for a restore, the controller then reads the chunk
    in the slot. -/
  | bdrReturn (v : W32) (chunk : List Byte)
  /-- REG_WRITE_GENERAL (R12): Host write to a register field that has no row of its own, governed by its access
    code. -/
  | regWriteGeneral (site : Bool) (a : RegAccess) (v : W32)
  /-- RC_REGISTER_READ (R12): Read of an RC field returns its value and clears it to its reset value. -/
  | rcRegisterRead (site : Bool) (a : RegAccess)
  /-- REG_PAIR_LO_READ (R11): A 4-byte read of NAME_LO captures NAME_HI into the shadow. -/
  | regPairLoRead (site : Bool) (offset : BitVec 24)
  /-- REG_PAIR_HI_READ (R11): A 4-byte read of NAME_HI returns the shadow if one was captured, or otherwise the
    current value. -/
  | regPairHiRead (site : Bool) (offset : BitVec 24)
  /-- REG_PAIR_LO_WRITE (R11): A 4-byte write of NAME_LO is held until NAME_HI is written. -/
  | regPairLoWrite (site : Bool) (offset : BitVec 24) (v : W32)
  /-- REG_PAIR_HI_WRITE (R11): A 4-byte write of NAME_HI applies both halves together, or NAME_HI alone if no NAME_LO
    write is held. -/
  | regPairHiWrite (site : Bool) (offset : BitVec 24) (v : W32)
  /-- REG_PAIR_8B_ACCESS (R11): An 8-byte access at the offset of a pair is atomic and discards any held NAME_LO
    write. -/
  | regPair8bAccess (site : Bool) (offset : BitVec 24) (write : Option W64)
  /-- NOOP (R416): Query that returns the side's role. -/
  | noop (slot : Fin 256) (c : CmdPkt)
  /-- CMD_QUERY (R416): Query that returns the recorded reply of a command ID, or UNKNOWN_ID. -/
  | cmdQuery (slot : Fin 256) (c : CmdPkt)
  /-- JOB_STATUS (R331): Query that writes the recovery status and the cadence values to an output window. -/
  | jobStatus (slot : Fin 256) (c : CmdPkt)
  /-- SITE_CAP (R416): Query that returns a site's capability table as last received. -/
  | siteCap (slot : Fin 256) (c : CmdPkt)
  /-- SITE_REG_READ (R416): Side-local command that reads Bruix registers with REG_READ. -/
  | siteRegRead (slot : Fin 256) (c : CmdPkt)
  /-- WINDOW_MAP (R413): Maps a bulk window as SCRATCH frames or as a stratum view. -/
  | windowMap (slot : Fin 256) (c : CmdPkt)
  /-- WINDOW_UNMAP (R413): Unmaps a bulk window, refused with BUSY while any page reads DEVICE. -/
  | windowUnmap (slot : Fin 256) (c : CmdPkt)
  /-- KERNEL_LOAD (R138): Verifies and places a kernel image in a kernel slot. -/
  | kernelLoad (slot : Fin 256) (c : CmdPkt)
  /-- KERNEL_UNLOAD (R138): Unloads a kernel slot, refused if a job references it. -/
  | kernelUnload (slot : Fin 256) (c : CmdPkt)
  /-- PROFILE_LOAD (R187): Verifies and places an arithmetic profile in a profile slot. -/
  | profileLoad (slot : Fin 256) (c : CmdPkt)
  /-- PROFILE_UNLOAD (R187): Unloads a profile slot, refused if a running job names the profile. -/
  | profileUnload (slot : Fin 256) (c : CmdPkt)
  /-- SPOKE_TRAIN (R260): Trains or disables the spokes named in the mask. -/
  | spokeTrain (slot : Fin 256) (c : CmdPkt)
  /-- TORUS_TRAIN (R280): Trains or disables the torus ports named in the mask. -/
  | torusTrain (slot : Fin 256) (c : CmdPkt)
  /-- BEDROCK_TARGETS (R382): Configures the bedrock slots and the completion ring. -/
  | bedrockTargets (slot : Fin 256) (c : CmdPkt)
  /-- FILL_ARM (R342): Opens a spare side to fill landings from the named donor and escrow peer. -/
  | fillArm (slot : Fin 256) (c : CmdPkt)
  /-- FILL_SEND (R343): A donor or escrow peer sends escrow items, maps, pages and silt entries to the target
    position. -/
  | fillSend (slot : Fin 256) (c : CmdPkt)
  /-- PAIR_REJOIN (R374): Makes a WITHDRAWN side JOINING and runs the rejoin copy. -/
  | pairRejoin (slot : Fin 256) (c : CmdPkt)
  /-- TILE_COPY (R416): Reads or writes an accumulator tile through a window, subject to tile state. -/
  | tileCopy (slot : Fin 256) (c : CmdPkt)
  /-- OBSERVE_SET (R491): Sets the debug facility mask and writes the corresponding control bits. -/
  | observeSet (slot : Fin 256) (c : CmdPkt)
  /-- EVR_CLEAR (R454): Checks a clearing authorisation, then clears the event recorder. -/
  | evrClear (slot : Fin 256) (c : CmdPkt)
  /-- FW_STAGE (R446): Verifies a firmware image and writes it to the bank that is not running. -/
  | fwStage (slot : Fin 256) (c : CmdPkt)
  /-- ATTEST (R448): Writes a device-signed attestation record. -/
  | attest (slot : Fin 256) (c : CmdPkt)
  /-- REGION_QUOTA (R65): Sets a job slot's frame quota per stack. -/
  | regionQuota (slot : Fin 256) (c : CmdPkt)
  /-- JOB_STAGE (R414): Stages and checks a job descriptor and its layer schedule table. -/
  | jobStage (slot : Fin 256) (c : CmdPkt)
  /-- PELOTON_LOAD (R299): Places a peloton table in its slot. -/
  | pelotonLoad (slot : Fin 256) (c : CmdPkt)
  /-- JOB_START (R312): Starts the two-phase job start from the root. -/
  | jobStart (slot : Fin 256) (c : CmdPkt)
  /-- JOB_TEARDOWN (R315): Tears a job down, job-wide or on this tray only. -/
  | jobTeardown (slot : Fin 256) (c : CmdPkt)
  /-- SCHEDULE_LOAD (R163): Loads a new layer schedule table in deferred or immediate mode. -/
  | scheduleLoad (slot : Fin 256) (c : CmdPkt)
  /-- PARAMS_SET (R416): Sets kernel_params at a commit boundary. -/
  | paramsSet (slot : Fin 256) (c : CmdPkt)
  /-- JOB_ROLLBACK (R353): Rolls committed steps back to a held stratum, then replays and recomputes. -/
  | jobRollback (slot : Fin 256) (c : CmdPkt)
  /-- STEP_RETRY (R338): Retries a held step; runs as JOB_RESUME. -/
  | stepRetry (slot : Fin 256) (c : CmdPkt)
  /-- JOB_RESUME (R338): Resolves, reopens and restarts streaming of a HELD job through barriers. -/
  | jobResume (slot : Fin 256) (c : CmdPkt)
  /-- SITE_RESET (R339): Resets a site's domains and retrains its spokes. -/
  | siteReset (slot : Fin 256) (c : CmdPkt)
  /-- DERAIL_STAGE (R349): Stages a site's route bank image with ROUTE_STAGE messages. -/
  | derailStage (slot : Fin 256) (c : CmdPkt)
  /-- PAGE_REPAIR (R85): Repairs a poisoned page or a damaged silt payload from the partner side. -/
  | pageRepair (slot : Fin 256) (c : CmdPkt)
  /-- BUDDY_SEED (R310): Reseeds the buddy shadow stratum. -/
  | buddySeed (slot : Fin 256) (c : CmdPkt)
  /-- POSITION_ASSIGN (R291): Gives a spare a position after checking its row and neighbours. -/
  | positionAssign (slot : Fin 256) (c : CmdPkt)
  /-- POSITION_CLEAR (R291): Removes the held position. -/
  | positionClear (slot : Fin 256) (c : CmdPkt)
  /-- SITE_REG_WRITE (R416): Writes a Bruix register with REG_WRITE. -/
  | siteRegWrite (slot : Fin 256) (c : CmdPkt)
  /-- SITE_FREEZE (R490): Captures and collects a site's freeze frame. -/
  | siteFreeze (slot : Fin 256) (c : CmdPkt)
  /-- BEDROCK_START (R383): Starts a bedrock at a boundary step over the job. -/
  | bedrockStart (slot : Fin 256) (c : CmdPkt)
  /-- BEDROCK_ARM (R384): Arms auto-bedrock on failure warnings. -/
  | bedrockArm (slot : Fin 256) (c : CmdPkt)
  /-- BEDROCK_DISARM (R384): Ends the auto-bedrock arm. -/
  | bedrockDisarm (slot : Fin 256) (c : CmdPkt)
  /-- BEDROCK_ABANDON (R392): Abandons the bedrock in progress. -/
  | bedrockAbandon (slot : Fin 256) (c : CmdPkt)
  /-- BEDROCK_RESTORE (R394): Restores the job from candidate manifests in turn. -/
  | bedrockRestore (slot : Fin 256) (c : CmdPkt)
  /-- PAIR_SWITCH (R376): Hands the ACTIVE role to the STANDBY partner. -/
  | pairSwitch (slot : Fin 256) (c : CmdPkt)
  /-- PAIR_WITHDRAW (R373): Makes the named side halt and fence. -/
  | pairWithdraw (slot : Fin 256) (c : CmdPkt)
  /-- GRADIENT_PACKET_RX (R33): A controller receives a gradient packet and adds it in canonical order, stages it, or
    holds it under tag n+1. -/
  | gradientPacketRx (site : Fin 8) (p : Packet)
  /-- END_OF_SLICE_RX (R35): An end-of-slice marker completes a contribution; waiting contributions are added, and
    the last one starts confirmation. -/
  | endOfSliceRx (site : Fin 8) (p : Packet)
  /-- TILE_ASSIGN (R109): FREE tiles are assigned to a waiting layer's tile range, and credits resume. -/
  | tileAssign (job : W32) (layer : W16)
  /-- KERNEL_DISPATCH (R139): Hub cores dispatch a layer's kernel prologue and invocations once its tiles are CLOSED.
    -/
  | kernelDispatch (job : W32)
  /-- ROOT_FINAL (R73): The last page of the step is written and the working stratum root is formed. -/
  | rootFinal (job : W32)
  /-- VOTE_CAST (R36): The controller's five checks are decided and its vote enters the commit vote. -/
  | voteCast (job : W32)
  /-- CONFIRM_TIMEOUT (R38): The commit vote has not completed within the confirm timeout; a Job-abort is raised. -/
  | confirmTimeout (job : W32)
  /-- READ_REFERENCE_END (R72): A read reference ends, and the frames of a dropped map are freed. -/
  | readReferenceEnd (holder : Nat)
  /-- REPAIR_COPY_RX (R85): A repair copy arrives from the partner, is verified and substituted. -/
  | repairCopyRx (data : List Byte)
  /-- STREAM_ENTRY_BEGIN (R160): A site engine begins an entry once its layer is readable and window space allows. -/
  | streamEntryBegin (site : Fin 8)
  /-- STREAM_PACKET_ENQUEUE (R161): A converted unit packet enters the spoke stream buffer once space is free. -/
  | streamPacketEnqueue (site : Fin 8)
  /-- STREAM_PACKET_SEND (R161): A stream packet leaves the buffer into the Miopra replay buffer under credits and
    grants. -/
  | streamPacketSend (site : Fin 8)
  /-- WINDOW_RELEASE (R160): A controller receives a window release, frees window bytes and skips unsent packets of
    the entry. -/
  | windowRelease (site : Fin 8) (m : CtlMsg)
  /-- ARB_SLOT (R166): An arbiter decides one grant slot by floor, high, normal and surplus order, and forecasts. -/
  | arbSlot (arb : Fin 24) (ready : Byte)
  /-- ARB_WINDOW_END (R166): 4,096 slots are counted; use, masks and cut flags reset and zero quotas are masked. -/
  | arbWindowEnd (arb : Fin 24)
  /-- ARB_GRANT_WITHDRAW (R168): A granted requester withdraws before transfer, leaving a dead slot. -/
  | arbGrantWithdraw (arb : Fin 24)
  /-- STM_ARB_QUOTA_WRITE (R167): Writing a quota; a cut below use masks the requester for the window. -/
  | stmArbQuotaWrite (arb : Fin 24) (r : Fin 8) (v : W32)
  /-- SAMPLE_RECORD_RX (R182): A sample record arrives, is queued or treated as malformed, and credits are withheld
    above the high-water mark. -/
  | sampleRecordRx (site : Fin 8) (p : Packet)
  /-- TAP_REPORT_RX (R189): A checksum tap report arrives and is queued for ABFT. -/
  | tapReportRx (site : Fin 8) (p : Packet)
  /-- SIGNATURE_RX (R192): A contribution signature arrives and is kept for judging at commit. -/
  | signatureRx (site : Fin 8) (p : Packet)
  /-- LOCALISATION_LEVEL (R191): One level of node digests is exchanged in a root-mismatch descent. -/
  | localisationLevel (d : NodeDigests)
  /-- ADMIT (R218): Bruix block admits the site to a job and answers with the capability table and RECEIVED_THROUGH.
    -/
  | admitSite (port : Fin 2) (m : CtlMsg)
  /-- TAG_OPEN (R223): Bruix block opens a tag in the open-tag set. -/
  | tagOpen (port : Fin 2) (m : CtlMsg)
  /-- TAG_CLOSE (R225): Bruix block closes the named tags, injects markers, purges, rewinds and restores. -/
  | tagClose (port : Fin 2) (m : CtlMsg)
  /-- TAG_COMMIT (R223): Bruix block retires the older tag after its commit. -/
  | tagCommit (port : Fin 2) (m : CtlMsg)
  /-- DIRECTIVE (R178): Bruix block keeps the first sampling directive for a step, or answers MALFORMED. -/
  | directive (port : Fin 2) (m : CtlMsg)
  /-- RESET_DOMAIN (R228): Bruix block increments the generation and asserts domain resets. -/
  | resetDomain (port : Fin 2) (m : CtlMsg)
  /-- ROUTE_STAGE (R243): Bruix block writes entries into the inactive route bank and cancels any pending swap. -/
  | routeStage (port : Fin 2) (m : CtlMsg)
  /-- ROUTE_COMMIT (R243): Bruix block checks the staged digest and marks a swap pending or swaps at once. -/
  | routeCommit (port : Fin 2) (m : CtlMsg)
  /-- FREEZE (R242): Bruix block asserts BRX_FREEZE and collects a freeze frame. -/
  | freeze (port : Fin 2) (m : CtlMsg)
  /-- REG_READ (R214): Bruix block answers a register read with REG_DATA. -/
  | regRead (port : Fin 2) (m : CtlMsg)
  /-- REG_WRITE (R214): Bruix block writes a register and acknowledges with the resulting value. -/
  | regWrite (port : Fin 2) (m : CtlMsg)
  /-- LEAVE (R218): Bruix block closes both tags, disables watchdogs and clears the job. -/
  | leave (port : Fin 2) (m : CtlMsg)
  /-- ACK (R215): A controller receives a Bruix acknowledgement and completes the pending operation. -/
  | ack (site : Fin 8) (m : CtlMsg)
  /-- STEP_REPORT (R241): A controller receives a site's end-of-step report, keeps it for the tables and raises a
    Degrade event on seq_errors. -/
  | stepReport (site : Fin 8) (m : CtlMsg)
  /-- HANG (R271): A controller receives HANG from a site; Site-abort. -/
  | hang (site : Fin 8) (m : CtlMsg)
  /-- ABORT_SEEN (R232): A controller receives notice that a site's tags were closed by a marker. -/
  | abortSeen (site : Fin 8) (m : CtlMsg)
  /-- RECEIVED_THROUGH (R162): A controller receives received-through values and resumes the parked site engine. -/
  | receivedThrough (site : Fin 8) (m : CtlMsg)
  /-- REG_DATA (R214): A controller receives the words of a register read. -/
  | regData (site : Fin 8) (m : CtlMsg)
  /-- FREEZE_DATA (R490): A controller receives one piece of a freeze frame and stores the frame when complete. -/
  | freezeData (site : Fin 8) (m : CtlMsg)
  /-- FREEZE_COLLECT_TIMEOUT (R490): A freeze piece is missing for 100 ms and the partial frame is stored. -/
  | freezeCollectTimeout (site : Fin 8)
  /-- CONTROL_MSG_REPEAT (R217): No ACK within 1 ms; the control message is sent again with repeat set. -/
  | controlMsgRepeat (site : Fin 8)
  /-- STREAM_PACKET_ARRIVAL (R219): Bruix block checks, deduplicates and writes a stream packet into the window ring.
    -/
  | streamPacketArrival (p : Packet)
  /-- CONSUME (R222): Accelerator returns a consume; ring space is freed and WINDOW_RELEASE sent. -/
  | consume (entry : W32) (tag : Byte)
  /-- GRADIENT_SLICE (R236): Accelerator submits a gradient slice descriptor, checked at the gate. -/
  | gradientSlice (d : GradSlice)
  /-- GRADIENT_PACKET_TX (R236): Bruix block sends a gradient packet read by DMA on both ports. -/
  | gradientPacketTx (scales : List Byte) (elems : List Nat)
  /-- TAP_ELEMENT (R238): Accelerator presents matmul elements at the tap port, opening or closing a tap. -/
  | tapElement (d : TapData) (cRow : Bool) (scales : List Byte) (elems : List Nat)
  /-- TILE_SELECT (R239): Accelerator asks whether a tile is selected for sampling. -/
  | tileSelect (a : TileAsk)
  /-- SAMPLE_CAPTURE_DONE (R240): A selected tile's record is complete and is sent, or dropped at source. -/
  | sampleCaptureDone (index : Nat) (payload : List Byte)
  /-- SAMPLE_CAPTURE_TIMEOUT (R240): A capture is not complete within the hang interval and the sample is dropped. -/
  | sampleCaptureTimeout (index : Nat)
  /-- LEASE (R234): Accelerator requests random-stream draws; granted or refused. -/
  | lease (tag : Byte) (stream : W16) (count : W32)
  /-- CURSOR_ADVANCE (R235): Accelerator advances a feed cursor; applied, queued or refused. -/
  | cursorAdvance (tag : Byte) (feed : Fin 4) (index : W64)
  /-- STEP_DONE (R241): Accelerator signals the end of a step attempt; cursor snapshots are taken. -/
  | stepDone (tag : Byte)
  /-- STEP_REPORT_TX (R241): Bruix block sends STEP_REPORT once every outbound item of the tag is in a replay buffer.
    -/
  | stepReportTx (tag : Byte)
  /-- PROGRESS_PULSE (R229): A pulse on BRX_PROGRESS restarts a watchdog's count. -/
  | progressPulse (k : Fin 16)
  /-- WATCHDOG_EXPIRY (R230): An armed watchdog expires; a hang is declared with alarm, tag closure and HANG. -/
  | watchdogExpiry (k : Fin 16)
  /-- ABORT_MARKER_RX (R232): Bruix block receives an abort marker and closes tags, relays and reports ABORT_SEEN. -/
  | abortMarkerRx (fabricPort : Fin 16) (m : Marker)
  /-- FABRIC_TRANSFER_GATE (R224): An inbound fabric transfer is delivered or dropped by its tag. -/
  | fabricTransferGate (tag : Byte)
  /-- ABORT_DONE (R225): BRX_ABORT_DONE is asserted; the TAG_CLOSE completes with DONE if the fabric lifetime has
    passed. -/
  | abortDone (newer : Bool)
  /-- DOM_READY (R228): A domain signals ready; when all are ready, RESET_DOMAIN completes DONE. -/
  | domReady (domain : Fin 16)
  /-- ROUTE_LOOKUP (R243): The router reads one entry of the active bank. -/
  | routeLookup (index : W16)
  /-- FREEZE_CAPTURE_DONE (R242): All freeze points are collected and the frame is held. -/
  | freezeCaptureDone (points : List Byte)
  /-- FRAME_RX (R267): A Miopra frame is received, FEC-decoded, parity-checked, and its flits, acks and credits
    processed. -/
  | frameRx (port : Fin 17) (f : Frame)
  /-- NAK_REPEAT (R267): While waiting for replay, the NAK is repeated every 64 ns. -/
  | nakRepeat (port : Fin 17)
  /-- REPLAY_START (R268): On a NAK, the sender resends from flit q at its next frame boundary. -/
  | replayStart (port : Fin 17) (q : BitVec 10)
  /-- ACK_TIMEOUT (R268): ack_seq does not advance within 256 ns; resend from the oldest flit. -/
  | ackTimeout (port : Fin 17)
  /-- LINK_ESCALATE (R269): A flit is resent escalate_attempts times; the port goes DOWN and steps fail link
    integrity. -/
  | linkEscalate (port : Fin 17)
  /-- PEER_DETECT (R257): DETECT finds the peer and training proceeds to ALIGN. -/
  | peerDetect (port : Fin 17)
  /-- DETECT_TIMEOUT (R257): No peer within 10 ms; the port enters DOWN with train_failed. -/
  | detectTimeout (port : Fin 17)
  /-- ALIGN_MEASURE_DONE (R257): The 1 ms lane error measurement completes. -/
  | alignMeasureDone (port : Fin 17) (errors : List Nat)
  /-- EQUALISE_DONE (R257): Equalisation of failing lanes completes and they are measured again. -/
  | equaliseDone (port : Fin 17) (errors : List Nat)
  /-- PARAM_EXCHANGE (R258): PARAM completes; the width is chosen and the port goes ACTIVE, or training fails. -/
  | paramExchange (port : Fin 17) (r : ParamResult)
  /-- AUTO_RETRAIN (R260): A DOWN port retrains by itself, at most 3 attempts in 1 s. -/
  | autoRetrain (port : Fin 17)
  /-- SPK_DISABLE_WRITE (R275): Writing disable puts the port into DISABLED at once. -/
  | spkDisableWrite (spoke : Fin 9) (disable : Bool)
  /-- ALARM_SLOT_RX (R286): A torus alarm slot is checked, deduplicated, relayed and passed to the control island. -/
  | alarmSlotRx (port : Fin 6) (slot : BitVec 128)
  /-- ALARM_TRIPLE_EXPIRY (R286): A held alarm triple expires after 100 µs. -/
  | alarmTripleExpiry (origin : W16) (side : Bool) (seqNo : Byte)
  /-- HELLO_RX (R290): A hello is received; dims, neighbour state and Survey changes are updated. -/
  | helloRx (port : Fin 6) (body : List Byte)
  /-- PACKET_ROUTE (R294): A torus packet not for this controller is forwarded by dimension order or discarded. -/
  | packetRoute (port : Fin 6) (vc : Fin 4) (p : Packet)
  /-- XFER_RX (R296): An XFER packet lands in an open landing, or is discarded; the last byte triggers ACK. -/
  | xferRx (port : Fin 17) (p : Packet)
  /-- LAND_REQUEST (R296): A receiver chooses a target and answers GRANT or REFUSE. -/
  | landRequest (p : Packet)
  /-- LAND_GRANT (R296): A sender receives a GRANT and sends XFER packets. -/
  | landGrant (p : Packet)
  /-- LAND_ACK (R296): A sender learns that every byte has landed; gated commit steps proceed. -/
  | landAck (p : Packet)
  /-- LAND_REFUSE (R296): A sender receives a refusal of its landing. -/
  | landRefuse (p : Packet)
  /-- LANDING_TIMEOUT (R296): A landing not completed within 1 s of its last packet is refused and freed. -/
  | landingTimeout (landing : W16)
  /-- COLL_UP (R301): A child's UP arrives; when all are in, the merged value goes to the parent. -/
  | collUp (p : Packet)
  /-- COLL_DOWN (R301): A DOWN result arrives, is forwarded to children and the partner, and is applied by op. -/
  | collDown (p : Packet)
  /-- COLLECTIVE_TIMEOUT (R303): A step collective does not complete within its timeout. -/
  | collectiveTimeout (job : W32) (op : Fin 6) (ident : W64) (layer : W16) (phase : Byte)
  /-- PREPARE (R312): A member forwards PREPARE, checks, reserves and admits its sites. -/
  | prepare (p : Packet)
  /-- READY (R312): A child answers READY; the member answers up, or the root decides COMMIT. -/
  | ready (p : Packet) (fromPartner : Bool)
  /-- START_REFUSE (R312): A child refuses; the refusal goes up and the root decides CANCEL. -/
  | startRefuse (p : Packet) (fromPartner : Bool)
  /-- PREPARE_CHILD_TIMEOUT (R312): A child has not answered in time; the member refuses with TIMEOUT. -/
  | prepareChildTimeout (job : W32) (child : W16)
  /-- START_COMMIT (R313): A member forwards COMMIT, opens first_step and answers COMMITTED. -/
  | startCommit (p : Packet)
  /-- CANCEL (R313): A member forwards CANCEL, sends LEAVE and releases reservations. -/
  | cancel (p : Packet)
  /-- COMMITTED (R313): COMMITTED counts go up the tree; the root reports STARTED at N. -/
  | committed (p : Packet)
  /-- STARTED_REPORT_TIMEOUT (R313): prepare_timeout after the decision passes; the root reports STARTED with the
    count. -/
  | startedReportTimeout (job : W32)
  /-- START_TIME_REACHED (R313): start_time is reached and the member starts streaming. -/
  | startTimeReached (job : W32)
  /-- PREPARED_WAIT_TIMEOUT (R314): A PREPARED member gets no decision in time and sends QUERY to the root. -/
  | preparedWaitTimeout (job : W32)
  /-- QUERY_REPEAT (R314): QUERY is repeated every second; after 10 unanswered the member is IN_DOUBT. -/
  | queryRepeat (job : W32)
  /-- QUERY (R314): The root answers OUTCOME from its journal. -/
  | query (p : Packet) (fromPartner : Bool)
  /-- OUTCOME (R314): A member receives OUTCOME and acts on COMMIT or CANCEL. -/
  | outcome (p : Packet)
  /-- TEARDOWN (R315): A member sends LEAVE, discards job state and frees its region. -/
  | teardown (p : Packet)
  /-- GONE (R315): GONE counts go up the tree; the root reports done. -/
  | gone (p : Packet)
  /-- ESCROW_TIMEOUT (R337): The escrow acknowledgement is missing at the confirm timeout; the record is written with
    escrow_missing. -/
  | escrowTimeout (job : W32)
  /-- PAIR_DIRECTIVE (R178): The partner receives a directive and sends it to its sites. -/
  | pairDirective (m : SiteMsg)
  /-- HEARTBEAT (R367): A pair-link heartbeat arrives, or a halt notice declares the partner failed. -/
  | heartbeat (m : CtlMsg)
  /-- JOURNAL (R364): The partner writes a journal entry ACCEPTED in order and acknowledges. -/
  | journal (m : CtlMsg)
  /-- JOURNAL_RESEND (R364): The partner resends journal entries from the named sequence. -/
  | journalResend (m : CtlMsg)
  /-- APPLY (R365): The partner records the boundary for a command. -/
  | apply (m : CtlMsg)
  /-- HANDOVER (R376): The STANDBY side receives HANDOVER and becomes ACTIVE. -/
  | handover (m : CtlMsg)
  /-- ITEMS (R359): Partner's collective items arrive and the pair value is contributed. -/
  | items (m : CtlMsg)
  /-- ROOT (R358): Partner's working root arrives for the A/B compare. -/
  | root (m : CtlMsg)
  /-- RECORD (R39): Partner's step record arrives; it is acknowledged once the own record is written. -/
  | record (m : CtlMsg)
  /-- GATE_CLOSE (R51): Partner's gate-close is applied and acknowledged. -/
  | gateClose (m : CtlMsg)
  /-- VERDICTS (R197): Partner's sample verdicts are compared; disagreements hold the window. -/
  | verdicts (m : CtlMsg)
  /-- RESULT (R360): A forwarded DOWN result or chunk result is used or compared. -/
  | result (m : CtlMsg)
  /-- JOB_ALARM (R285): The partner originates an alarm on its own plane. -/
  | jobAlarm (m : CtlMsg)
  /-- PAIR_ACK (R358): Acknowledgement of a pair message; a RECORD acknowledgement lets the commit flip. -/
  | pairAck (m : CtlMsg)
  /-- PAIR_MSG_REPEAT (R358): No PAIR_ACK within 1 ms; the message is resent with repeat. -/
  | pairMsgRepeat (ty : Byte) (ident : W64)
  /-- ASSIST_TIMEOUT (R362): A LAND REQUEST gets no answer; the transfer passes to the partner's plane. -/
  | assistTimeout (id : W64)
  /-- BEDROCK_CHUNK_WRITE (R387): A writer writes a chunk into a free slot and posts a completion entry. -/
  | bedrockChunkWrite (job : W32)
  /-- MEMBER_REPORT (R389): The root receives a member report and seals the manifest when all are in. -/
  | memberReport (job : W32) (bid : W64) (report : List Byte)
  /-- BEDROCK_SEALED (R389): A member receives SEALED and makes the UNPIN flip. -/
  | bedrockSealed (job : W32) (bid : W64)
  /-- ABANDON (R392): A member receives ABANDON and unpins. -/
  | abandon (job : W32) (bid : W64) (code : W16) (detail : W16)
  /-- BEDROCK_TIMEOUT (R392): A report or slot is missing at the timeout; the bedrock is abandoned. -/
  | bedrockTimeout (job : W32)
  /-- FAILURE_WARNING_REPORT (R384): The root receives a failure warning and starts an auto-bedrock if armed. -/
  | failureWarningReport (job : W32)
  /-- TMU_FREQ_ADJ_WRITE (R425): Writing FREQ_ADJ changes the domain's increment. -/
  | tmuFreqAdjWrite (d : Fin 2) (a : W32)
  /-- TMU_STEP_WRITE (R425): Writing the STEP pair adds a phase step to the domain. -/
  | tmuStepWrite (d : Fin 2) (amount : W64)
  /-- TMU_LOAD (R425): load sets the domain from the SET registers, or is refused. -/
  | tmuLoad (d : Fin 2)
  /-- TMU_INVALIDATE (R438): invalidate clears the domain's valid and locked bits. -/
  | tmuInvalidate (d : Fin 2)
  /-- TMU_SELECT_WRITE (R426): Changing select switches domains and sets the residual. -/
  | tmuSelectWrite (d : Fin 2)
  /-- FRAME_TX (R268): At each frame boundary a Miopra sender assembles and sends a frame: header with ack, rotating
    credit report, NAK or alarm repeat, and flit slots from replay, credits and egress order. -/
  | frameTx (port : Fin 17)
  /-- PREPARE_WAIT_TIMEOUT (R316): A member still waiting for a tearing-down job's resources when prepare_wait
    expires refuses the start with RESOURCE_BUSY. -/
  | prepareWaitTimeout (job : W32)
  /-- REG_READ_TIMEOUT (R369): A site gives no REG_DATA within 1 ms of a REG_READ, so SITE_REG_READ completes with
    TIMEOUT or the site counts as reporting the partner's port down. -/
  | regReadTimeout (site : Fin 8)
  /-- PIN_COPY_DONE (R77): The PIN copy of the assayed map finishes, pin_valid is set, and any commit sequence that
    waited for it proceeds. -/
  | pinCopyDone (job : W32)
  /-- PCIE_LINK_SETTLE (R397): PCI Express link settles at a rate and width; commands are refused or allowed under
    LINK_RATE. -/
  | pcieLinkSettle (rate : Fin 7) (width : Fin 6)
  /-- HOP_PARITY_ERROR (R83): An internal transfer fails parity and a replay is requested. -/
  | hopParityError (cls : Fin 5) (again : Bool)
  /-- HOP_ESCALATION (R83): Consecutive replays reach escalate_attempts; the transfer is poisoned and a Degrade event
    raised. -/
  | hopEscalation (cls : Fin 5) (island : Byte) (hit : List (W32 × W64))
  /-- HOP_REPLAY_RATE (R83): A hop's replays in a window exceed the threshold and raise a Degrade event. -/
  | hopReplayRate (cls : Fin 5)
  /-- HBM_CORRECTED_ERROR (R84): An HBM read returns a corrected error, counted and checked against the threshold. -/
  | hbmCorrectedError (stack : Fin 16)
  /-- HBM_UNCORRECTED_ERROR (R84): An HBM read returns an uncorrected error, handled by the area of its frame. -/
  | hbmUncorrectedError (stack : Fin 16) (area : UeArea)
  /-- LINK_REPLAY_RATE (R269): A port's replays in a window exceed the threshold; Degrade event. -/
  | linkReplayRate (port : Fin 17)
  /-- FEC_HEAVY_WARNING (R269): Heavily corrected frames exceed the threshold in a second; failure warning. -/
  | fecHeavyWarning (port : Fin 9)
  /-- NEIGHBOUR_TIMEOUT (R292): No hello for 3 intervals; the port's neighbour state becomes NONE. -/
  | neighbourTimeout (port : Fin 6)
  /-- LIGHT_DETECT (R280): The receive monitor reports light on lane 0 and a DOWN port retrains. -/
  | lightDetect (port : Fin 6)
  /-- LASER_FAULT (R283): A laser fault takes the port DOWN with a Degrade event. -/
  | laserFault (port : Fin 6) (lanes : Byte)
  /-- OPT_POWER_LOW (R283): Received optical power falls below threshold; failure warning. -/
  | optPowerLow (port : Fin 6) (powers : List Nat)
  /-- TIME_INTERVAL (R433): The TIME interval expires and a TIME request is sent upstream. -/
  | timeInterval (d : Fin 2)
  /-- TIME_REQUEST (R433): A server answers a TIME request with a TIME response, or discards it. -/
  | timeRequest (port : Fin 6) (body : List Byte)
  /-- TIME_RESPONSE (R434): A requester forms and publishes offset and mean path delay. -/
  | timeResponse (port : Fin 6) (body : List Byte)
  /-- SOURCE_LOSS_TIMEOUT (R428): No measurement for LOSS_TIMEOUT; the domain's locked bit clears. -/
  | sourceLossTimeout (d : Fin 2)
  /-- PTP_SYNC (R432): A Sync arrives; t2 is taken and a Delay_Req is sent. -/
  | ptpSync (m : PtpSync)
  /-- PTP_FOLLOW_UP (R432): A Follow_Up supplies t1 for a two-step Sync. -/
  | ptpFollowUp (domain : Fin 128) (seqId : W16) (origin : W64 × W32) (corr : W64)
  /-- PTP_DELAY_RESP (R432): A Delay_Resp supplies t4; offset and delay are published. -/
  | ptpDelayResp (domain : Fin 128) (seqId : W16) (receive : W64 × W32) (corr : W64)
  /-- PTP_ANNOUNCE (R431): An Announce feeds master selection. -/
  | ptpAnnounce (domain : Fin 128) (vector : List Nat)
  /-- RESERVATION_DONE (R449): A reservation record is programmed and read back, then signing proceeds. -/
  | reservationDone (crcOk : Bool)
  /-- PWR_GOOD_RISE (R461): PWR_GOOD rises and a cold start begins. -/
  | pwrGoodRise (highUs : Nat)
  /-- CHIP_RST_N (R461): CHIP_RST_N asserts a cold start. -/
  | chipRstN (lowUs : Nat)
  /-- WARM_RST_N (R461): WARM_RST_N asserts a warm start. -/
  | warmRstN (lowUs : Nat)
  /-- PERST_N (R461): PERST_N drives PCI Express link training. -/
  | perstN (asserted : Bool)
  /-- STRAP_SAMPLE (R509): Straps are sampled three times after PWR_GOOD. -/
  | strapSample (a b c : StrapSt)
  /-- PWR_RESET_CLUSTER (R474): Resets one unit 16–53 with the consequence of its level. -/
  | pwrResetCluster (unit : Fin 128)
  /-- PWR_RESET_CORE (R474): Resets the hub cores in core_mask. -/
  | pwrResetCore (mask : Byte)
  /-- DOMAIN_REQ_WRITE (R460): Requests power domains on or off, subject to dependencies and use. -/
  | domainReqWrite (req : W64)
  /-- BIST_DONE (R468): BIST completes and the floor plan table is formed. -/
  | bistDone (codes : List Nat)
  /-- HBM_TRAIN_DONE (R473): A stack finishes training at 8.0 or 6.4 Gb/s, or fails. -/
  | hbmTrainDone (stack : Fin 16) (result : TrainResult)
  /-- START_DONE (R462): A start completes, after listening for the partner to take a role. -/
  | startDone (partnerRole : Option (Fin 5))
  /-- FUSE_GO (R470): Submits a fuse authorisation to the root-of-trust core. -/
  | fuseGo (readBackOk : Bool)
  /-- BROWNOUT (R508): A rail below 92% for 2 µs; Tray-halt, halt notice and fence. -/
  | brownout (hbmRail : Bool)
  /-- THERMAL_SAMPLE (R512): Junction sensors are read every 100 µs and the hottest compared with thresholds. -/
  | thermalSample (tj : Int)
  /-- SB_HEARTBEAT (R497): A sideband heartbeat from the partner arrives. -/
  | sbHeartbeat (payload : List Byte)
  /-- PRESENCE (R497): A site's PRESENCE frame updates SBB.PRESENCE. -/
  | presence (site : Fin 8) (payload : List Byte)
  /-- BMC_NOTICE (R497): A BMC notice is recorded as a Notice event. -/
  | bmcNotice (payload : List Byte)
  /-- SB_UNKNOWN_FRAME (R496): An unknown or bad sideband frame is discarded, counted and recorded. -/
  | sbUnknownFrame (src : Byte) (type : Byte) (bad : Bool) (payload : List Byte)
  /-- SB_STUCK_RECHECK (R495): After 10 ms the drop re-enables or keeps listening, with a Degrade event. -/
  | sbStuckRecheck (freed : Bool)
  /-- PRESENCE_TIMEOUT (R497): A drop is not heard for 3 intervals and its presence bit clears. -/
  | presenceTimeout (drop : Fin 11)
  /-- I3C_PRIVATE_WRITE (R498): A 4-byte private write sets the BAR0 read offset. -/
  | i3cPrivateWrite (offset : W32)
  /-- I3C_PRIVATE_READ (R498): A private read returns words from the set offset. -/
  | i3cPrivateRead (words : Nat)
  /-- ENTDAA (R498): I3C dynamic address assignment. -/
  | entdaa (addr : BitVec 7)
  /-- SETDASA (R498): I3C static-to-dynamic address assignment. -/
  | setdasa (addr : BitVec 7)
  /-- ALARM_LANE_LOCK (R284): Lane 0 of a torus port gains or loses signal lock, so its alarm lane comes up or goes
    down and alarm_up changes. -/
  | alarmLaneLock (port : Fin 6) (locked : Bool)
  /-- TRACE_EVENT (R492): A traced hub core takes a branch or trap, and a trace record is emitted into its FIFO, or
    dropped and counted when the FIFO is full. -/
  | traceEvent (core : Fin 8) (trap : Bool) (count : W16) (value : W64)
  /-- BUS_MASTER_ENABLE_WRITE (R398): A configuration write changes Bus Master Enable, which enables or stops
    completion-ring and bedrock chunk writes. -/
  | busMasterEnableWrite (on : Bool)
  /-- SLOT_TAKE (R406): Hub-core firmware takes a DEVICE slot and checks form, role, link, identity and admission,
    then journals, accepts or refuses the command. -/
  | slotTake
  /-- FUNCTION_LEVEL_RESET (R398): Function-level reset, hot reset or link down resets only host-facing state. -/
  | functionLevelReset
  /-- POISONED_TLP (R399): A poisoned TLP arrives and is discarded, counted and reported through AER. -/
  | poisonedTlp
  /-- PHASE_BARRIER (R139): A phase ends on all 16 slices; slots are merged and the next phase or layer readiness
    follows. -/
  | phaseBarrier
  /-- SAMPLE_CHECK_DONE (R185): An assay cluster finishes recomputing a sample and judges it. -/
  | sampleCheckDone
  /-- ABFT_CHECK_DONE (R189): An ABFT check completes and the report passes, fails or waits for the non-finite count.
    -/
  | abftCheckDone
  /-- END_OF_SLICE_TX (R237): Bruix block sends the end-of-slice marker once taps are sent, then the signature. -/
  | endOfSliceTx
  /-- FABRIC_LIFETIME_ELAPSED (R226): The fabric lifetime since the closure elapses; the TAG_CLOSE completes if abort
    is done. -/
  | fabricLifetimeElapsed
  /-- ABORT_INCOMPLETE (R225): BRX_ABORT_DONE is not asserted within the hang interval; ABORT_INCOMPLETE and a hang.
    -/
  | abortIncomplete
  /-- DOMAIN_RESET_HOLD_END (R228): The reset hold time ends and the domains are released. -/
  | domainResetHoldEnd
  /-- DOMAIN_READY_TIMEOUT (R228): A domain is not ready within ready_timeout_ms; ACK TIMEOUT. -/
  | domainReadyTimeout
  /-- ROUTE_SWAP (R243): With no lookup outstanding, the active route bank changes. -/
  | routeSwap
  /-- BRX_FREEZE_RELEASE (R242): Writing freeze_release releases the held freeze frame. -/
  | brxFreezeRelease
  /-- BRX_CAP_LOCK (R213): Local side sets cap_lock, locking the capability table. -/
  | brxCapLock
  /-- BRX_POR (R227): BRX_POR_N resets the Bruix block: generation 0, gate empty, job cleared. -/
  | brxPor
  /-- PRESENCE_TX (R497): A site sends its sideband PRESENCE frame every 10 ms. -/
  | presenceTx
  /-- HELLO_TX (R289): A hello is sent on each ACTIVE torus port every hello interval. -/
  | helloTx
  /-- DIMS_STABLE (R290): 64 hello intervals pass without a dims change; dims_stable is set. -/
  | dimsStable
  /-- HEARTBEAT_TX (R367): A heartbeat is sent every 100 µs on the pair link. -/
  | heartbeatTx
  /-- HB_TIMEOUT (R369): No heartbeat for HB_TIMEOUT; sites are polled and the partner declared failed, or R370
    applies. -/
  | hbTimeout
  /-- FENCE_WATCHDOG_EXPIRY (R368): Firmware fails to service the watchdog; the side is fenced and WITHDRAWN. -/
  | fenceWatchdogExpiry
  /-- LINK_GRACE_TIMEOUT (R370): The pair link stays DOWN for LINK_GRACE with sideband heartbeats; STANDBY withdraws.
    -/
  | linkGraceTimeout
  /-- TMU_CAPTURE (R436): Latches the output clock and both domains into SNAP registers. -/
  | tmuCapture
  /-- SLEW_DONE (R426): The residual s reaches 0. -/
  | slewDone
  /-- PTP_UNSUPPORTED (R431): An unsupported PTP message is discarded and counted. -/
  | ptpUnsupported
  /-- RECOVERY_GO (R444): Verifies the recovery buffer image and writes it to bank 0. -/
  | recoveryGo
  /-- SVN_COMMIT (R446): Burns SVN_MIN up to the running image's svn. -/
  | svnCommit
  /-- SIGNATURE_DONE (R455): A root-of-trust signature or verification completes and the next mailbox request starts.
    -/
  | signatureDone
  /-- PWR_GOOD_FALL (R507): PWR_GOOD falls; the recorder flushes and the device powers down. -/
  | pwrGoodFall
  /-- PWR_RESET_COLD (R461): Writing PWR.RESET.cold starts a cold start. -/
  | pwrResetCold
  /-- PWR_RESET_WARM (R461): Writing PWR.RESET.warm starts a warm start. -/
  | pwrResetWarm
  /-- PWR_RESET_PARTITION (R474): Control-complex reset; the side fences. -/
  | pwrResetPartition
  /-- START_WATCHDOG_EXPIRY (R465): The start watchdog expires; the start failed and a cold start follows. -/
  | startWatchdogExpiry
  /-- CAL_SAVE (R471): Writes a calibration record. -/
  | calSave
  /-- THROTTLE_CLEAR (R512): Tj stays below 100 °C for 100 ms and throttling clears. -/
  | throttleClear
  /-- REPEAT_WINDOW_EXPIRY (R483): The open record's repeat window ends and it is closed and queued. -/
  | repeatWindowExpiry
  /-- RECORD_PROGRAM_DONE (R484): A queued event record finishes programming in NOR. -/
  | recordProgramDone
  /-- OP_MS_CHECKPOINT (R482): op_ms approaches the stored checkpoint and a new one is programmed. -/
  | opMsCheckpoint
  /-- SB_HEARTBEAT_TX (R367): A heartbeat is sent on the sideband bus every 1 ms. -/
  | sbHeartbeatTx
  /-- SB_ARB_LOSS (R494): A drop loses sideband arbitration and stops sending. -/
  | sbArbLoss
  /-- SB_RETRY (R494): After the idle wait, the drop retries its frame. -/
  | sbRetry
  /-- SB_STUCK (R495): The bus is dominant for 256 bit times; the drop disables its driver for 10 ms. -/
  | sbStuck
  /-- RSTDAA (R498): I3C reset of the dynamic address. -/
  | rstdaa
  /-- ENEC (R498): I3C enable of events. -/
  | enec
  /-- DISEC (R498): I3C disable of events. -/
  | disec
  /-- GETPID (R498): I3C read of the provisional ID. -/
  | getpid
  /-- GETBCR (R498): I3C read of the BCR. -/
  | getbcr
  /-- GETDCR (R498): I3C read of the DCR. -/
  | getdcr
  /-- GETSTATUS (R498): I3C read of the status. -/
  | getstatus
  /-- STRAP_CHANGE (R509): A strap input changes after sampling; the change is ignored, strap_changed is set and a
    Degrade event is recorded once. -/
  | strapChange
  /-- WARM_RST_MASK_END (R509): After a stuck WARM_RST_N has been high for 100 ms, the input is unmasked and
    warm_masked clears. -/
  | warmRstMaskEnd
  /-- SB_READBACK_MISMATCH (R494): A sideband drop reads back a different bit after src, aborts the frame with 16
    dominant bits, and counts and retries it. -/
  | sbReadbackMismatch
  /-- EVR_ERASE_DONE (R485): The erase of the records and the Wilost area completes; the 0x30 record and the
    detections queued meanwhile are then programmed and clearing clears. -/
  | evrEraseDone
  deriving DecidableEq, Repr

end Sys2Proof
end

