-- ==== Sys2Proof/Decode.lean ====
section
/-! DEFINITION. What words spell. No row of spec/opcode_table.json gives bits, so a table word spells no command. The instructions of the
update slices do have words, in the forms of R126 under the opcodes of R127: they are decoded and encoded here. -/
namespace Sys2Proof
open Machine

/-- The command that a word of the table spells: none, since no row gives bits. -/
def decodeTableWord (_nbits _w : Nat) : Option Instr := none

/-! ### The words of the update slices (R126, R127) -/

/-- A field of a word from bit `lo` up, below `n`. -/
def wordFin (n : Nat) [NeZero n] (w : W32) (lo : Nat) : Fin n := Fin.ofNat n (w.toNat / 2 ^ lo)

/-- A field of a word from bit `lo` up, as `n` bits. -/
def wordBits (n : Nat) (w : W32) (lo : Nat) : BitVec n := BitVec.ofNat n (w.toNat / 2 ^ lo)

/-- Form V (R126): [31:26] opcode, [25:21] vd, [20:16] va, [15:11] vb, [10:6] vc, [5:3] mask, [2:0] mode. -/
def wordV (op : Nat) (vd : Nat) (va : Nat) (vb : Nat) (vc : Nat) (mask : Nat) (mode : Nat) : W32 :=
  BitVec.ofNat 32 (op * 2 ^ 26 + vd * 2 ^ 21 + va * 2 ^ 16 + vb * 2 ^ 11 + vc * 2 ^ 6 + mask * 2 ^ 3 + mode)

/-- Form VS (R126): [31:26] opcode, [25:21] vd, [20:16] va, [15:11] vb, [10:6] sa, [5:3] mask, [2:0] mode. -/
def wordVS (op : Nat) (vd : Nat) (va : Nat) (vb : Nat) (sa : Nat) (mask : Nat) (mode : Nat) : W32 :=
  BitVec.ofNat 32 (op * 2 ^ 26 + vd * 2 ^ 21 + va * 2 ^ 16 + vb * 2 ^ 11 + sa * 2 ^ 6 + mask * 2 ^ 3 + mode)

/-- Form C (R126): [31:26] opcode, [25:21] vd, [20:16] va, [15:8] fr, [7:0] sel. -/
def wordC (op : Nat) (vd : Nat) (va : Nat) (fr : Nat) (sel : Nat) : W32 :=
  BitVec.ofNat 32 (op * 2 ^ 26 + vd * 2 ^ 21 + va * 2 ^ 16 + fr * 2 ^ 8 + sel)

/-- Form T (R126): [31:26] opcode, [25:21] v, [20:16] sa, [15:12] stream, [11:4] sel, [3:0] rsv. -/
def wordT (op : Nat) (v : Nat) (sa : Nat) (stream : Nat) (sel : Nat) (rsv : Nat) : W32 :=
  BitVec.ofNat 32 (op * 2 ^ 26 + v * 2 ^ 21 + sa * 2 ^ 16 + stream * 2 ^ 12 + sel * 2 ^ 4 + rsv)

/-- Form D (R126): [31:26] opcode, [25:21] vd, [20:16] va, [15:13] slot, [12:10] field, [9:6] rsv, [5:3] mask, [2:0] mode. -/
def wordD (op : Nat) (vd : Nat) (va : Nat) (slot : Nat) (field : Nat) (rsv : Nat) (mask : Nat) (mode : Nat) : W32 :=
  BitVec.ofNat 32 (op * 2 ^ 26 + vd * 2 ^ 21 + va * 2 ^ 16 + slot * 2 ^ 13 + field * 2 ^ 10 + rsv * 2 ^ 6 + mask * 2 ^ 3 + mode)

/-- Form S (R126): [31:26] opcode, [25:21] sd, [20:16] sa, [15:11] sb, [10:6] sub, [5:0] rsv. -/
def wordS (op : Nat) (sd : Nat) (sa : Nat) (sb : Nat) (sub : Nat) (rsv : Nat) : W32 :=
  BitVec.ofNat 32 (op * 2 ^ 26 + sd * 2 ^ 21 + sa * 2 ^ 16 + sb * 2 ^ 11 + sub * 2 ^ 6 + rsv)

/-- Form SI (R126): [31:26] opcode, [25:21] sd, [20:16] sa, [15:0] imm. -/
def wordSI (op : Nat) (sd : Nat) (sa : Nat) (imm : Nat) : W32 :=
  BitVec.ofNat 32 (op * 2 ^ 26 + sd * 2 ^ 21 + sa * 2 ^ 16 + imm)

/-- Form B (R126): [31:26] opcode, [25:21] sa, [20:18] cond, [17:16] rsv, [15:0] off. -/
def wordB (op : Nat) (sa : Nat) (cond : Nat) (rsv : Nat) (off : Nat) : W32 :=
  BitVec.ofNat 32 (op * 2 ^ 26 + sa * 2 ^ 21 + cond * 2 ^ 18 + rsv * 2 ^ 16 + off)

/-- The instruction that a word is to slice `k`; an opcode that the table does not list is ILLEGAL (R128). -/
def decodeSlice (k : Fin 16) (w : W32) : Instr :=
  match w.toNat / 2 ^ 26 with
  | 0x01 => .vadd k (wordFin 32 w 21) (wordFin 32 w 16) (wordFin 32 w 11) (wordFin 32 w 6) (wordFin 8 w 3) (wordFin 8 w 0)
  | 0x02 => .vsub k (wordFin 32 w 21) (wordFin 32 w 16) (wordFin 32 w 11) (wordFin 32 w 6) (wordFin 8 w 3) (wordFin 8 w 0)
  | 0x03 => .vmul k (wordFin 32 w 21) (wordFin 32 w 16) (wordFin 32 w 11) (wordFin 32 w 6) (wordFin 8 w 3) (wordFin 8 w 0)
  | 0x04 => .vfma k (wordFin 32 w 21) (wordFin 32 w 16) (wordFin 32 w 11) (wordFin 32 w 6) (wordFin 8 w 3) (wordFin 8 w 0)
  | 0x05 => .vfnma k (wordFin 32 w 21) (wordFin 32 w 16) (wordFin 32 w 11) (wordFin 32 w 6) (wordFin 8 w 3) (wordFin 8 w 0)
  | 0x06 => .vmax k (wordFin 32 w 21) (wordFin 32 w 16) (wordFin 32 w 11) (wordFin 32 w 6) (wordFin 8 w 3) (wordFin 8 w 0)
  | 0x07 => .vmin k (wordFin 32 w 21) (wordFin 32 w 16) (wordFin 32 w 11) (wordFin 32 w 6) (wordFin 8 w 3) (wordFin 8 w 0)
  | 0x08 => .vabs k (wordFin 32 w 21) (wordFin 32 w 16) (wordFin 32 w 11) (wordFin 32 w 6) (wordFin 8 w 3) (wordFin 8 w 0)
  | 0x09 => .vneg k (wordFin 32 w 21) (wordFin 32 w 16) (wordFin 32 w 11) (wordFin 32 w 6) (wordFin 8 w 3) (wordFin 8 w 0)
  | 0x0A => .vsel k (wordFin 32 w 21) (wordFin 32 w 16) (wordFin 32 w 11) (wordFin 32 w 6) (wordFin 8 w 3) (wordFin 8 w 0)
  | 0x0B => .vcmp k (wordFin 32 w 21) (wordFin 32 w 16) (wordFin 32 w 11) (wordFin 32 w 6) (wordFin 8 w 3) (wordFin 8 w 0)
  | 0x0C => .vclass k (wordFin 32 w 21) (wordFin 32 w 16) (wordFin 32 w 11) (wordFin 32 w 6) (wordFin 8 w 3) (wordFin 8 w 0)
  | 0x0D => .vmov k (wordFin 32 w 21) (wordFin 32 w 16) (wordFin 32 w 11) (wordFin 32 w 6) (wordFin 8 w 3) (wordFin 8 w 0)
  | 0x0E => .vcvt k (wordFin 32 w 21) (wordFin 32 w 16) (wordBits 8 w 8) (wordBits 8 w 0)
  | 0x10 => .vadds k (wordFin 32 w 21) (wordFin 32 w 16) (wordFin 32 w 11) (wordFin 32 w 6) (wordFin 8 w 3) (wordFin 8 w 0)
  | 0x11 => .vmuls k (wordFin 32 w 21) (wordFin 32 w 16) (wordFin 32 w 11) (wordFin 32 w 6) (wordFin 8 w 3) (wordFin 8 w 0)
  | 0x12 => .vfmas k (wordFin 32 w 21) (wordFin 32 w 16) (wordFin 32 w 11) (wordFin 32 w 6) (wordFin 8 w 3) (wordFin 8 w 0)
  | 0x13 => .vbcast k (wordFin 32 w 21) (wordFin 32 w 16) (wordFin 32 w 11) (wordFin 32 w 6) (wordFin 8 w 3) (wordFin 8 w 0)
  | 0x18 => .vdiv k (wordFin 32 w 21) (wordFin 32 w 16) (wordFin 32 w 11) (wordFin 32 w 6) (wordFin 8 w 3) (wordFin 8 w 0)
  | 0x19 => .vsqrt k (wordFin 32 w 21) (wordFin 32 w 16) (wordFin 32 w 11) (wordFin 32 w 6) (wordFin 8 w 3) (wordFin 8 w 0)
  | 0x1A => .vrsqrt k (wordFin 32 w 21) (wordFin 32 w 16) (wordFin 32 w 11) (wordFin 32 w 6) (wordFin 8 w 3) (wordFin 8 w 0)
  | 0x20 => .vld k (wordFin 32 w 21) (wordFin 32 w 16) (wordFin 16 w 12) (wordBits 8 w 4) (wordFin 16 w 0)
  | 0x21 => .vst k (wordFin 32 w 21) (wordFin 32 w 16) (wordFin 16 w 12) (wordBits 8 w 4) (wordFin 16 w 0)
  | 0x22 => .vtld k (wordFin 32 w 21) (wordFin 32 w 16) (wordFin 16 w 12) (wordBits 8 w 4) (wordFin 16 w 0)
  | 0x23 => .vtst k (wordFin 32 w 21) (wordFin 32 w 16) (wordFin 16 w 12) (wordBits 8 w 4) (wordFin 16 w 0)
  | 0x24 => .vseek k (wordFin 32 w 21) (wordFin 32 w 16) (wordFin 16 w 12) (wordBits 8 w 4) (wordFin 16 w 0)
  | 0x28 => .vaccsq k (wordFin 32 w 21) (wordFin 32 w 16) (wordFin 8 w 13) (wordFin 8 w 10) (wordFin 16 w 6) (wordFin 8 w 3) (wordFin 8 w 0)
  | 0x29 => .vwelf k (wordFin 32 w 21) (wordFin 32 w 16) (wordFin 8 w 13) (wordFin 8 w 10) (wordFin 16 w 6) (wordFin 8 w 3) (wordFin 8 w 0)
  | 0x2A => .vhsum k (wordFin 32 w 21) (wordFin 32 w 16) (wordFin 8 w 13) (wordFin 8 w 10) (wordFin 16 w 6) (wordFin 8 w 3) (wordFin 8 w 0)
  | 0x2B => .rdget k (wordFin 32 w 21) (wordFin 32 w 16) (wordFin 8 w 13) (wordFin 8 w 10) (wordFin 16 w 6) (wordFin 8 w 3) (wordFin 8 w 0)
  | 0x2C => .rdclr k (wordFin 32 w 21) (wordFin 32 w 16) (wordFin 8 w 13) (wordFin 8 w 10) (wordFin 16 w 6) (wordFin 8 w 3) (wordFin 8 w 0)
  | 0x30 => .sadd k (wordFin 32 w 21) (wordFin 32 w 16) (wordFin 32 w 11) (wordFin 32 w 6) (wordFin 64 w 0)
  | 0x31 => .saddi k (wordFin 32 w 21) (wordFin 32 w 16) (wordBits 16 w 0)
  | 0x32 => .sli k (wordFin 32 w 21) (wordFin 32 w 16) (wordBits 16 w 0)
  | 0x33 => .sfop k (wordFin 32 w 21) (wordFin 32 w 16) (wordFin 32 w 11) (wordFin 32 w 6) (wordFin 64 w 0)
  | 0x34 => .scvt k (wordFin 32 w 21) (wordFin 32 w 16) (wordFin 32 w 11) (wordFin 32 w 6) (wordFin 64 w 0)
  | 0x35 => .sldp k (wordFin 32 w 21) (wordFin 32 w 16) (wordBits 16 w 0)
  | 0x36 => .sldb k (wordFin 32 w 21) (wordFin 32 w 16) (wordBits 16 w 0)
  | 0x37 => .sstb k (wordFin 32 w 21) (wordFin 32 w 16) (wordBits 16 w 0)
  | 0x38 => .loop k (wordFin 32 w 21) (wordFin 32 w 16) (wordBits 16 w 0)
  | 0x39 => .br k (wordFin 32 w 21) (wordFin 8 w 18) (wordFin 4 w 16) (wordBits 16 w 0)
  | 0x3A => .fence k (wordFin 32 w 21) (wordFin 8 w 18) (wordFin 4 w 16) (wordBits 16 w 0)
  | 0x3B => .halt k (wordFin 32 w 21) (wordFin 8 w 18) (wordFin 4 w 16) (wordBits 16 w 0)
  | 0x3C => .signal k (wordFin 32 w 21) (wordFin 32 w 16) (wordBits 16 w 0)
  | _ => .illegal k w

/-- Opcodes that the table lists. -/
def sliceOpcodes : List Nat := 
  [0x01, 0x02, 0x03, 0x04, 0x05, 0x06, 0x07, 0x08, 0x09, 0x0A, 0x0B, 0x0C, 0x0D, 0x0E, 0x10, 0x11, 0x12, 0x13, 0x18, 0x19, 0x1A, 
   0x20, 0x21, 0x22, 0x23, 0x24, 0x28, 0x29, 0x2A, 0x2B, 0x2C, 0x30, 0x31, 0x32, 0x33, 0x34, 0x35, 0x36, 0x37, 0x38, 0x39, 0x3A, 0x3B, 0x3C]

/-- The slice and the word of a slice instruction; ILLEGAL has the words whose opcode the table does not list. -/
def encodeSlice (i : Instr) : Option (Fin 16 × W32) :=
  match i with
  | .vadd k vd va vb vc mask mode => some (k, wordV 0x01 vd.val va.val vb.val vc.val mask.val mode.val)
  | .vsub k vd va vb vc mask mode => some (k, wordV 0x02 vd.val va.val vb.val vc.val mask.val mode.val)
  | .vmul k vd va vb vc mask mode => some (k, wordV 0x03 vd.val va.val vb.val vc.val mask.val mode.val)
  | .vfma k vd va vb vc mask mode => some (k, wordV 0x04 vd.val va.val vb.val vc.val mask.val mode.val)
  | .vfnma k vd va vb vc mask mode => some (k, wordV 0x05 vd.val va.val vb.val vc.val mask.val mode.val)
  | .vmax k vd va vb vc mask mode => some (k, wordV 0x06 vd.val va.val vb.val vc.val mask.val mode.val)
  | .vmin k vd va vb vc mask mode => some (k, wordV 0x07 vd.val va.val vb.val vc.val mask.val mode.val)
  | .vabs k vd va vb vc mask mode => some (k, wordV 0x08 vd.val va.val vb.val vc.val mask.val mode.val)
  | .vneg k vd va vb vc mask mode => some (k, wordV 0x09 vd.val va.val vb.val vc.val mask.val mode.val)
  | .vsel k vd va vb vc mask mode => some (k, wordV 0x0A vd.val va.val vb.val vc.val mask.val mode.val)
  | .vcmp k vd va vb vc mask mode => some (k, wordV 0x0B vd.val va.val vb.val vc.val mask.val mode.val)
  | .vclass k vd va vb vc mask mode => some (k, wordV 0x0C vd.val va.val vb.val vc.val mask.val mode.val)
  | .vmov k vd va vb vc mask mode => some (k, wordV 0x0D vd.val va.val vb.val vc.val mask.val mode.val)
  | .vcvt k vd va fr sel => some (k, wordC 0x0E vd.val va.val fr.toNat sel.toNat)
  | .vadds k vd va vb sa mask mode => some (k, wordVS 0x10 vd.val va.val vb.val sa.val mask.val mode.val)
  | .vmuls k vd va vb sa mask mode => some (k, wordVS 0x11 vd.val va.val vb.val sa.val mask.val mode.val)
  | .vfmas k vd va vb sa mask mode => some (k, wordVS 0x12 vd.val va.val vb.val sa.val mask.val mode.val)
  | .vbcast k vd va vb sa mask mode => some (k, wordVS 0x13 vd.val va.val vb.val sa.val mask.val mode.val)
  | .vdiv k vd va vb vc mask mode => some (k, wordV 0x18 vd.val va.val vb.val vc.val mask.val mode.val)
  | .vsqrt k vd va vb vc mask mode => some (k, wordV 0x19 vd.val va.val vb.val vc.val mask.val mode.val)
  | .vrsqrt k vd va vb vc mask mode => some (k, wordV 0x1A vd.val va.val vb.val vc.val mask.val mode.val)
  | .vld k v sa stream sel rsv => some (k, wordT 0x20 v.val sa.val stream.val sel.toNat rsv.val)
  | .vst k v sa stream sel rsv => some (k, wordT 0x21 v.val sa.val stream.val sel.toNat rsv.val)
  | .vtld k v sa stream sel rsv => some (k, wordT 0x22 v.val sa.val stream.val sel.toNat rsv.val)
  | .vtst k v sa stream sel rsv => some (k, wordT 0x23 v.val sa.val stream.val sel.toNat rsv.val)
  | .vseek k v sa stream sel rsv => some (k, wordT 0x24 v.val sa.val stream.val sel.toNat rsv.val)
  | .vaccsq k vd va slot field rsv mask mode => some (k, wordD 0x28 vd.val va.val slot.val field.val rsv.val mask.val mode.val)
  | .vwelf k vd va slot field rsv mask mode => some (k, wordD 0x29 vd.val va.val slot.val field.val rsv.val mask.val mode.val)
  | .vhsum k vd va slot field rsv mask mode => some (k, wordD 0x2A vd.val va.val slot.val field.val rsv.val mask.val mode.val)
  | .rdget k vd va slot field rsv mask mode => some (k, wordD 0x2B vd.val va.val slot.val field.val rsv.val mask.val mode.val)
  | .rdclr k vd va slot field rsv mask mode => some (k, wordD 0x2C vd.val va.val slot.val field.val rsv.val mask.val mode.val)
  | .sadd k sd sa sb sub rsv => some (k, wordS 0x30 sd.val sa.val sb.val sub.val rsv.val)
  | .saddi k sd sa imm => some (k, wordSI 0x31 sd.val sa.val imm.toNat)
  | .sli k sd sa imm => some (k, wordSI 0x32 sd.val sa.val imm.toNat)
  | .sfop k sd sa sb sub rsv => some (k, wordS 0x33 sd.val sa.val sb.val sub.val rsv.val)
  | .scvt k sd sa sb sub rsv => some (k, wordS 0x34 sd.val sa.val sb.val sub.val rsv.val)
  | .sldp k sd sa imm => some (k, wordSI 0x35 sd.val sa.val imm.toNat)
  | .sldb k sd sa imm => some (k, wordSI 0x36 sd.val sa.val imm.toNat)
  | .sstb k sd sa imm => some (k, wordSI 0x37 sd.val sa.val imm.toNat)
  | .loop k sd sa imm => some (k, wordSI 0x38 sd.val sa.val imm.toNat)
  | .br k sa cond rsv off => some (k, wordB 0x39 sa.val cond.val rsv.val off.toNat)
  | .fence k sa cond rsv off => some (k, wordB 0x3A sa.val cond.val rsv.val off.toNat)
  | .halt k sa cond rsv off => some (k, wordB 0x3B sa.val cond.val rsv.val off.toNat)
  | .signal k sd sa imm => some (k, wordSI 0x3C sd.val sa.val imm.toNat)
  | .illegal k w => if sliceOpcodes.contains (w.toNat / 2 ^ 26) then none else some (k, w)
  | _ => none

end Sys2Proof
end

