-- ==== Sys2Proof/Config.lean ====
section
/-! DEFINITION. What the spec leaves open or keeps secret: constants with no body, so that no proof can see their values (log entries 3 and 11). -/
namespace Sys2Proof.Config

/-- A free value for each reading of the counter State.fresh (log entry 3). -/
opaque freeValue : Nat → W64

/-- Logical page and element index for the stochastic word of a lane of a VCVT, from layer, group, pc, the streams' places and the lane:
R104 counts on both, and no rule names them for a register's lane (log entry 3). -/
opaque vcvtPlace : Nat → Nat → Nat → List Nat → Nat → Nat × Nat

/-- The device's own XMSS signature over a message under the identity key at an index (R448, R449; log entry 11). -/
opaque xmssSign : Nat → List Byte → List Byte

/-- K_dev, the device MAC seed held in fuses (R451, R467; log entry 11). -/
opaque macSeed : Digest

/-- The 256 bits that a boot draws from the entropy source, for each draw (R451; log entry 11). -/
opaque entropy : Nat → Digest

/-- The device public key, valid after boot (R456; log entry 11). -/
opaque devicePublicKey : Nat → W32

/-- The 20 check symbols of RS(640, 620) over a frame's information bits: the spec names no field polynomial and no generator (R253, log
entry 39). -/
opaque frameCheck : BitVec 6200 → Fin 20 → BitVec 10

/-- The layout version that the system header carries; the spec states no value (R61). -/
opaque layoutVersion : Nat

/-- The hang interval that a controller puts into ADMIT for a job, in ticks; 0 acts as 1. R217 gives its range, and no rule the
value (log entry 26). -/
opaque hangTicks : W32 → W16

/-- The job seed that a controller puts into ADMIT for a job (R217); no rule gives its value (log entry 26). -/
opaque jobSeed : W32 → W32

/-- The number of reservation records that one of the two sectors holds (R449 gives no size; log entry 11). -/
opaque resvRecords : Nat

/-- Digest of the mask ROM (R444; log entry 11). -/
opaque romDigest : Digest

/-- The rest of the rows of the fuse map that no interface reads: the identity key seed of dev_seeds, and factory_cal (R467; log entry 11). -/
opaque fuseSecrets : List Byte

/-- The device certificate that manufacture writes (R441; log entry 11). -/
opaque deviceCertificate : List Byte

end Sys2Proof.Config
end

