-- ==== Sys2Proof/Machine/Mem.lean ====
section
/-! DEFINITION. Byte memory in one canonical form: cells of strictly rising address, and no cell equal to what an
unlisted address reads as. An unlisted byte reads 0 (log entry 7: DESIGN CHOICE, unsafe; the spec gives HBM no
contents after a cold start). Little-endian under R9. -/
namespace Sys2Proof.Machine

/-- What a byte that nothing has written reads as (log entry 7, DESIGN CHOICE). -/
def memDefault : Byte := 0

/-- Memory: the bytes that differ from `memDefault`, by rising address. -/
abbrev Memory := List Host.Cell

/-- Read one byte. -/
def memRead (m : Memory) (a : Nat) : Byte :=
  match m with
  | [] => memDefault
  | (a', b) :: r => if a' = a then b else memRead r a

/-- The memory with address `a` unlisted. -/
def memErase (m : Memory) (a : Nat) : Memory := m.filter fun c => !(c.1 == a)

/-- Insert a cell in address order. -/
def memInsert (m : Memory) (a : Nat) (b : Byte) : Memory :=
  match m with
  | [] => [(a, b)]
  | (a', b') :: r => if a < a' then (a, b) :: (a', b') :: r else (a', b') :: memInsert r a b

/-- Write one byte, keeping the canonical form. -/
def memWrite (m : Memory) (a : Nat) (b : Byte) : Memory :=
  if b = memDefault then memErase m a else memInsert (memErase m a) a b

/-- Read `n` bytes from `a` upward. -/
def memReadBytes (m : Memory) (a : Nat) : Nat → List Byte
  | 0 => []
  | n + 1 => memRead m a :: memReadBytes m (a + 1) n

/-- Write a byte string from `a` upward. -/
def memWriteBytes (m : Memory) (a : Nat) : List Byte → Memory
  | [] => m
  | b :: r => memWriteBytes (memWrite m a b) (a + 1) r

/-- Unlist every byte of [a, a + n): the range reads `memDefault` again. -/
def memClear (m : Memory) (a n : Nat) : Memory := m.filter fun c => !(a ≤ c.1 && c.1 < a + n)

/-- The canonical form: rising addresses, no default bytes. -/
def Memory.wf : Memory → Bool
  | [] => true
  | [(_, b)] => b != memDefault
  | (a, b) :: (a', b') :: r => b != memDefault && decide (a < a') && Memory.wf ((a', b') :: r)

/-- The number of a byte string read little-endian (R9). -/
def leNat : List Byte → Nat
  | [] => 0
  | b :: r => b.toNat + 256 * leNat r

/-- The low `n` bytes of a number, least significant first (R9). -/
def leBytes : Nat → Nat → List Byte
  | 0, _ => []
  | n + 1, v => BitVec.ofNat 8 v :: leBytes n (v / 256)

/-- Read an `n`-byte little-endian quantity. -/
def memReadLE (m : Memory) (a n : Nat) : Nat := leNat (memReadBytes m a n)

/-- Write an `n`-byte little-endian quantity. -/
def memWriteLE (m : Memory) (a n v : Nat) : Memory := memWriteBytes m a (leBytes n v)

/-- Bytes `lo` to `lo + n - 1` of a byte string; bytes beyond its end read 0. -/
def sliceBytes (l : List Byte) (lo n : Nat) : List Byte :=
  let t := (l.drop lo).take n
  t ++ List.replicate (n - t.length) 0

/-- The `n`-byte little-endian field at offset `lo` of a byte string. -/
def fieldLE (l : List Byte) (lo n : Nat) : Nat := leNat (sliceBytes l lo n)

/-- Zero-pad a byte string to a multiple of `n` bytes. -/
def padTo (n : Nat) (l : List Byte) : List Byte :=
  l ++ List.replicate ((n - l.length % n) % n) 0

end Sys2Proof.Machine
end

