-- ==== Sys2Proof/Machine/Crypto.lean ====
section
/-! DEFINITION. The published functions the spec relies upon (R17): SHAKE256 (FIPS 202, R73), KMAC256 (SP 800-185, R452),
Philox4x32-10 (R104), CRC-32 (R284) and CRC-16 (R493). Their constants are taken from the publications, whose texts the
spec does not reproduce (log entry 10, PRESUMED). -/
namespace Sys2Proof.Machine

/-- Rotate a 64-bit lane left. -/
def rotl64 (x : Nat) (n : Nat) : Nat := (x <<< (n % 64) ||| x >>> (64 - n % 64)) % 2 ^ 64

/-- Element `i` of a list of numbers, 0 beyond its end. -/
def nth (l : List Nat) (i : Nat) : Nat := l.getD i 0

/-- Rotation offsets of rho, by lane x + 5 y. -/
def keccakRho : List Nat :=
  [0, 1, 62, 28, 27, 36, 44, 6, 55, 20, 3, 10, 43, 25, 39, 41, 45, 15, 21, 8, 18, 2, 61, 56, 14]

/-- Round constants of iota. -/
def keccakRc : List Nat :=
  [0x0000000000000001, 0x0000000000008082, 0x800000000000808A, 0x8000000080008000,
   0x000000000000808B, 0x0000000080000001, 0x8000000080008081, 0x8000000000008009,
   0x000000000000008A, 0x0000000000000088, 0x0000000080008009, 0x000000008000000A] ++
  [0x000000008000808B, 0x800000000000008B, 0x8000000000008089, 0x8000000000008003,
   0x8000000000008002, 0x8000000000000080, 0x000000000000800A, 0x800000008000000A,
   0x8000000080008081, 0x8000000000008080, 0x0000000080000001, 0x8000000080008008]

/-- One Keccak round. -/
def keccakRound (a : List Nat) (rc : Nat) : List Nat :=
  let c := (List.range 5).map fun x => nth a x ^^^ nth a (x + 5) ^^^ nth a (x + 10) ^^^ nth a (x + 15) ^^^ nth a (x + 20)
  let d := (List.range 5).map fun x => nth c ((x + 4) % 5) ^^^ rotl64 (nth c ((x + 1) % 5)) 1
  let t := (List.range 25).map fun i => rotl64 (nth a i ^^^ nth d (i % 5)) (nth keccakRho i)
  -- pi: B[y, 2x + 3y] = t[x, y]
  let b := (List.range 25).map fun i =>
    let x := i % 5; let y := i / 5
    nth t ((x + 3 * y) % 5 + 5 * x)
  let e := (List.range 25).map fun i =>
    let x := i % 5; let y := i / 5
    nth b i ^^^ ((2 ^ 64 - 1 - nth b ((x + 1) % 5 + 5 * y)) &&& nth b ((x + 2) % 5 + 5 * y))
  match e with
  | [] => []
  | e0 :: r => (e0 ^^^ rc) :: r

/-- The permutation Keccak-f[1600]. -/
def keccakF (a : List Nat) : List Nat := keccakRc.foldl keccakRound a

/-- Exclusive or of one 136-byte block into the state. -/
def keccakAbsorb (a : List Nat) (blk : List Byte) : List Nat :=
  keccakF ((List.range 25).map fun i => nth a i ^^^ (if i < 17 then fieldLE blk (8 * i) 8 else 0))

/-- Absorb `n` blocks of 136 bytes. -/
def keccakBlocks : Nat → List Nat → List Byte → List Nat
  | 0, a, _ => a
  | n + 1, a, l => keccakBlocks n (keccakAbsorb a (l.take 136)) (l.drop 136)

/-- Pad with the domain byte and the final bit to a multiple of 136 bytes. -/
def keccakPad (dom : Nat) (l : List Byte) : List Byte :=
  let n := 136 - l.length % 136
  if n = 1 then l ++ [BitVec.ofNat 8 (dom + 128)]
  else l ++ [BitVec.ofNat 8 dom] ++ List.replicate (n - 2) 0 ++ [0x80]

/-- The 256-bit sponge output. -/
def keccak256 (dom : Nat) (l : List Byte) : Digest :=
  let p := keccakPad dom l
  let a := keccakBlocks (p.length / 136) (List.replicate 25 0) p
  BitVec.ofNat 256 (nth a 0 + nth a 1 * 2 ^ 64 + nth a 2 * 2 ^ 128 + nth a 3 * 2 ^ 192)

/-- SHAKE256 with a 256-bit output (R73). -/
def shake256 (l : List Byte) : Digest := keccak256 0x1F l

/-- The 32 bytes of a digest, in the order its standard produces them (R9). -/
def digestBytes (d : Digest) : List Byte := leBytes 32 d.toNat

/-- left_encode of SP 800-185 for numbers below 2^16. -/
def leftEncode (n : Nat) : List Byte :=
  if n < 256 then [1, BitVec.ofNat 8 n] else [2, BitVec.ofNat 8 (n / 256), BitVec.ofNat 8 n]

/-- right_encode of SP 800-185 for numbers below 2^16. -/
def rightEncode (n : Nat) : List Byte :=
  if n < 256 then [BitVec.ofNat 8 n, 1] else [BitVec.ofNat 8 (n / 256), BitVec.ofNat 8 n, 2]

/-- encode_string of SP 800-185. -/
def encodeString (l : List Byte) : List Byte := leftEncode (8 * l.length) ++ l

/-- bytepad to the rate of 136 bytes. -/
def bytepad136 (l : List Byte) : List Byte := padTo 136 (leftEncode 136 ++ l)

/-- The ASCII bytes of a customisation string. -/
def asciiBytes (s : String) : List Byte := s.toList.map fun c => BitVec.ofNat 8 c.toNat

/-- KMAC256(K, X, 256, S) (R451, R452). -/
def kmac256 (key x : List Byte) (s : String) : Digest :=
  keccak256 0x04 (bytepad136 (encodeString (asciiBytes "KMAC") ++ encodeString (asciiBytes s)) ++
    bytepad136 (encodeString key) ++ x ++ rightEncode 256)

/-- One round of Philox4x32. -/
def philoxRound (k0 k1 : Nat) (c : List Nat) : List Nat :=
  let p0 := 0xD2511F53 * nth c 0
  let p1 := 0xCD9E8D57 * nth c 2
  [(p1 / 2 ^ 32) ^^^ nth c 1 ^^^ k0, p1 % 2 ^ 32, (p0 / 2 ^ 32) ^^^ nth c 3 ^^^ k1, p0 % 2 ^ 32]

/-- `n` rounds with the key bumped between rounds. -/
def philoxGo : Nat → Nat → Nat → List Nat → List Nat
  | 0, _, _, c => c
  | n + 1, k0, k1, c => philoxGo n ((k0 + 0x9E3779B9) % 2 ^ 32) ((k1 + 0xBB67AE85) % 2 ^ 32) (philoxRound k0 k1 c)

/-- Philox4x32-10: key and counter to four words (R104). -/
def philox (k0 k1 c0 c1 c2 c3 : Nat) : List Nat := philoxGo 10 k0 k1 [c0, c1, c2, c3]

/-- The stochastic word of element `i` of logical page `p` (R104). -/
def srWord (jobId step p i domain site selector : Nat) : Nat :=
  nth (philox jobId (step % 2 ^ 32) (i / 4) p (step / 2 ^ 32) (domain * 2 ^ 24 + site * 2 ^ 16 + selector * 2 ^ 8)) (i % 4)

/-- One bit of CRC-32, most significant first, polynomial 0x04C11DB7 (R284). -/
def crc32Bit (c : Nat) (b : Bool) : Nat :=
  let top := (c / 2 ^ 31 % 2 == 1) != b
  let s := c * 2 % 2 ^ 32
  if top then s ^^^ 0x04C11DB7 else s

/-- CRC-32 over bits taken most significant first, initial all ones, complemented (R284). -/
def crc32Bits (l : List Bool) : Nat := 2 ^ 32 - 1 - l.foldl crc32Bit (2 ^ 32 - 1)

/-- The bits of a byte, most significant first. -/
def byteBits (b : Byte) : List Bool := (List.range 8).map fun i => b.toNat / 2 ^ (7 - i) % 2 == 1

/-- CRC-32 over bytes (R480). -/
def crc32 (l : List Byte) : Nat := crc32Bits (l.flatMap byteBits)

/-- One bit of CRC-16, polynomial 0x1021 (R493). -/
def crc16Bit (c : Nat) (b : Bool) : Nat :=
  let top := (c / 2 ^ 15 % 2 == 1) != b
  let s := c * 2 % 2 ^ 16
  if top then s ^^^ 0x1021 else s

/-- CRC-16 over bytes, initial value 0xFFFF (R493). -/
def crc16 (l : List Byte) : Nat := (l.flatMap byteBits).foldl crc16Bit 0xFFFF

end Sys2Proof.Machine
end

