-- ==== Sys2Proof/Machine/Float.lean ====
section
/-! DEFINITION. Update engine arithmetic, exactly (R97 to R107, R16): element formats, decoding, one rounding per
conversion, and the correctly rounded operations of R124. -/
namespace Sys2Proof.Machine

/-- An exact value: (-1)^neg * m * 2^e, an infinity, or a NaN. `fin neg 0 e` is a zero with a sign. -/
inductive Val where
  | nan
  | inf (neg : Bool)
  | fin (neg : Bool) (m : Nat) (e : Int)
deriving DecidableEq, Repr

/-- Number of significant bits of `n`. -/
def bitLength (n : Nat) : Nat := if n = 0 then 0 else n.log2 + 1

/-- A floating-point element encoding of R99: exponent bits, mantissa bits, bias, the largest finite magnitude as an
encoding, and whether infinities and NaNs exist. -/
structure FpFormat where
  expBits : Nat
  manBits : Nat
  bias    : Nat
  maxMag  : Nat
  hasInf  : Bool
  nanBits : Option Nat
deriving DecidableEq, Repr

/-- Width in bits of an encoding. -/
def FpFormat.width (f : FpFormat) : Nat := 1 + f.expBits + f.manBits

/-- Format codes of R99; `none` for INT8 (0x9) and for codes the table does not list. -/
def fpFormat (code : Nat) : Option FpFormat :=
  match code with
  | 0 => some ⟨11, 52, 1023, 0x7FEFFFFFFFFFFFFF, true, some 0x7FF8000000000000⟩
  | 1 => some ⟨8, 23, 127, 0x7F7FFFFF, true, some 0x7FC00000⟩
  | 2 => some ⟨8, 7, 127, 0x7F7F, true, some 0x7FC0⟩
  | 3 => some ⟨5, 10, 15, 0x7BFF, true, some 0x7E00⟩
  | 4 => some ⟨4, 3, 7, 0x7E, false, some 0x7F⟩
  | 5 => some ⟨5, 2, 15, 0x7B, true, some 0x7E⟩
  | 6 => some ⟨3, 2, 3, 0x1F, false, none⟩
  | 7 => some ⟨2, 3, 1, 0x1F, false, none⟩
  | 8 => some ⟨2, 1, 1, 0x7, false, none⟩
  | _ => none

/-- The four register formats of R123. -/
def fmtB64 : FpFormat := ⟨11, 52, 1023, 0x7FEFFFFFFFFFFFFF, true, some 0x7FF8000000000000⟩
def fmtB32 : FpFormat := ⟨8, 23, 127, 0x7F7FFFFF, true, some 0x7FC00000⟩
def fmtBf16 : FpFormat := ⟨8, 7, 127, 0x7F7F, true, some 0x7FC0⟩
def fmtB16 : FpFormat := ⟨5, 10, 15, 0x7BFF, true, some 0x7E00⟩

/-- Element width in bits of a format code (R99). -/
def fmtBits (code : Nat) : Nat :=
  match fpFormat code with
  | some f => f.width
  | none => 8

/-- Format fields that R97 lists: codes 0x0 to 0x9, and 0x14 to 0x19 with the MX modifier. -/
def formatValid (f : Nat) : Bool := f ≤ 9 || (0x14 ≤ f && f ≤ 0x19)

/-- The MX modifier of a format field (R97). -/
def formatMx (f : Nat) : Bool := f / 16 % 2 == 1

/-- The format code of a format field (R97). -/
def formatCode (f : Nat) : Nat := f % 16

/-- Fields of an FR byte (R98). -/
def frSat (fr : Nat) : Bool := fr / 128 % 2 == 1
def frRound (fr : Nat) : Nat := fr / 32 % 4
def frFormat (fr : Nat) : Nat := fr % 32
/-- The round field asks for stochastic rounding (R98, R104). -/
def frStochastic (fr : Nat) : Bool := frRound fr == 2
/-- An FR byte that is not malformed (R97, R98). -/
def frValid (fr : Nat) : Bool := formatValid (frFormat fr) && frRound fr != 3 && fr < 256

/-- The exact value of a floating-point encoding (R99). -/
def fpDecode (f : FpFormat) (x : Nat) : Val :=
  let neg := x / 2 ^ (f.expBits + f.manBits) % 2 == 1
  let mag := x % 2 ^ (f.expBits + f.manBits)
  let ex := mag / 2 ^ f.manBits
  let fr := mag % 2 ^ f.manBits
  let low : Int := 1 - (f.bias : Int) - (f.manBits : Int)
  if mag ≤ f.maxMag then
    if ex = 0 then .fin neg fr low
    else .fin neg (2 ^ f.manBits + fr) (low + (ex : Int) - 1)
  else if f.hasInf && mag == f.maxMag + 1 then .inf neg
  else .nan

/-- The exact value of an INT8 element: k, or k * 2^-6 with the MX modifier (R99). -/
def int8Decode (mx : Bool) (x : Nat) : Val :=
  let k : Int := (BitVec.ofNat 8 x).toInt
  .fin (k < 0) k.natAbs (if mx then -6 else 0)

/-- The exact value of one element of format field `f`, before any block scale (R99). -/
def elemDecode (f x : Nat) : Val :=
  match fpFormat (formatCode f) with
  | some p => fpDecode p x
  | none => int8Decode (formatMx f) x

/-- Round an exact magnitude m * 2^e, with `sticky` for a nonzero rest below m, to a multiple of 2^q (R103): mode 0 RNE,
1 RTZ, 2 SR with the word r. Answers the multiple. -/
def roundMag (mode r m : Nat) (e : Int) (sticky : Bool) (q : Int) : Nat :=
  if q ≤ e then m * 2 ^ (e - q).toNat
  else
    let sh := (q - e).toNat
    let lo := m / 2 ^ sh
    let rem := m % 2 ^ sh
    if rem = 0 && !sticky then lo
    else match mode with
      | 0 => if rem * 2 > 2 ^ sh || (rem * 2 == 2 ^ sh && (sticky || lo % 2 == 1)) then lo + 1 else lo
      | 2 => if rem * 2 ^ 32 / 2 ^ sh + r ≥ 2 ^ 32 then lo + 1 else lo
      | _ => lo

/-- What a conversion noted, for the counters of R519. -/
inductive ConvNote where
  | none | nonfinite | nanLost | saturated
deriving DecidableEq, Repr

/-- The encoded magnitude of a nonzero exact magnitude, before the range check. -/
def fpRoundMag (f : FpFormat) (mode r m : Nat) (e : Int) (sticky : Bool) : Nat :=
  if m = 0 && !sticky then 0
  else
    let top : Int := e + (bitLength m : Int) - 1
    let qmin : Int := 1 - (f.bias : Int) - (f.manBits : Int)
    let q : Int := max (top - (f.manBits : Int)) qmin
    (q - qmin).toNat * 2 ^ f.manBits + roundMag mode r m e sticky q

/-- Sign bit of a format, in place. -/
def fpSign (f : FpFormat) (neg : Bool) : Nat := if neg then 2 ^ (f.expBits + f.manBits) else 0

/-- Round a signed exact value to a floating-point encoding under R103 and R105. -/
def fpRoundFin (f : FpFormat) (sat : Bool) (mode r : Nat) (neg : Bool) (m : Nat) (e : Int) (sticky : Bool) :
    Nat × ConvNote :=
  let mag := fpRoundMag f mode r m e sticky
  if mag ≤ f.maxMag then (fpSign f neg + mag, .none)
  else if f.hasInf && !sat && mode != 1 then (fpSign f neg + f.maxMag + 1, .saturated)
  else (fpSign f neg + f.maxMag, .saturated)

/-- Conversion of an exact value to a floating-point target (R103, R105). -/
def fpConvert (f : FpFormat) (sat : Bool) (mode r : Nat) : Val → Nat × ConvNote
  | .nan => match f.nanBits with
    | some n => (n, .nonfinite)
    | none => (0, .nanLost)
  | .inf neg => if f.hasInf && !sat then (fpSign f neg + f.maxMag + 1, .nonfinite) else (fpSign f neg + f.maxMag, .nonfinite)
  | .fin neg m e => fpRoundFin f sat mode r neg m e false

/-- Conversion of an exact value to INT8 (R99, R105): the magnitude never exceeds 127. -/
def int8Convert (mx : Bool) (mode r : Nat) : Val → Nat × ConvNote
  | .nan => (0, .nanLost)
  | .inf neg => (if neg then 0x81 else 0x7F, .nonfinite)
  | .fin neg m e =>
    let k := roundMag mode r m e false (if mx then -6 else 0)
    if k > 127 then (if neg then 0x81 else 0x7F, .saturated)
    else (if neg && k != 0 then 256 - k else k, .none)

/-- Conversion to format field `fmt` of one element (R103 to R106). -/
def elemConvert (fmt : Nat) (sat : Bool) (mode r : Nat) (v : Val) : Nat × ConvNote :=
  match fpFormat (formatCode fmt) with
  | some f => fpConvert f (sat || formatMx fmt) mode r v
  | none => int8Convert (formatMx fmt) mode r v

/-- Conversion under an FR byte (R98). -/
def frConvert (fr r : Nat) (v : Val) : Nat × ConvNote :=
  elemConvert (frFormat fr) (frSat fr) (frRound fr) r v

/-- Multiply an exact value by 2^k. -/
def valScale (k : Int) : Val → Val
  | .fin n m e => .fin n m (e + k)
  | v => v

/-- Negation. -/
def valNeg : Val → Val
  | .nan => .nan
  | .inf n => .inf (!n)
  | .fin n m e => .fin (!n) m e

/-- Magnitude. -/
def valAbs : Val → Val
  | .nan => .nan
  | .inf _ => .inf false
  | .fin _ m e => .fin false m e

/-- A NaN. -/
def valIsNan : Val → Bool
  | .nan => true
  | _ => false

/-- A NaN or an infinity. -/
def valNonfinite : Val → Bool
  | .fin .. => false
  | _ => true

/-- A zero of either sign. -/
def valIsZero : Val → Bool
  | .fin _ m _ => m == 0
  | _ => false

/-- The sign bit of a value; a NaN reads clear, being canonical (R100). -/
def valSign : Val → Bool
  | .nan => false
  | .inf n => n
  | .fin n _ _ => n

/-- The integer m * 2^(e - q) of a magnitude, for q at or below e. -/
def valInt (neg : Bool) (m : Nat) (e q : Int) : Int :=
  let k : Int := (m * 2 ^ (e - q).toNat : Nat)
  if neg then -k else k

/-- Exact sum (R16, R100): opposite infinities give NaN, and a zero sum of opposite signs is +0. -/
def valAdd : Val → Val → Val
  | .nan, _ => .nan
  | _, .nan => .nan
  | .inf a, .inf b => if a == b then .inf a else .nan
  | .inf a, .fin .. => .inf a
  | .fin .., .inf b => .inf b
  | .fin n1 m1 e1, .fin n2 m2 e2 =>
    let q := min e1 e2
    let s := valInt n1 m1 e1 q + valInt n2 m2 e2 q
    if s = 0 then .fin (n1 && n2) 0 q else .fin (s < 0) s.natAbs q

/-- Exact product: zero times infinity is NaN. -/
def valMul : Val → Val → Val
  | .nan, _ => .nan
  | _, .nan => .nan
  | .inf a, .inf b => .inf (a != b)
  | .inf a, .fin b m _ => if m = 0 then .nan else .inf (a != b)
  | .fin a m _, .inf b => if m = 0 then .nan else .inf (a != b)
  | .fin a m e, .fin b m' e' => .fin (a != b) (m * m') (e + e')

/-- -1, 0, 1 for less, equal, greater; none when unordered. Zeros of either sign are equal. -/
def valCmp : Val → Val → Option Int
  | .nan, _ => none
  | _, .nan => none
  | .inf a, .inf b => some (if a == b then 0 else if a then -1 else 1)
  | .inf a, .fin .. => some (if a then -1 else 1)
  | .fin .., .inf b => some (if b then 1 else -1)
  | .fin n1 m1 e1, .fin n2 m2 e2 =>
    let q := min e1 e2
    let d := valInt n1 m1 e1 q - valInt n2 m2 e2 q
    some (if d < 0 then -1 else if d = 0 then 0 else 1)

/-- IEEE 754-2019 maximum: NaN propagates, and +0 is above -0. -/
def valMax (a b : Val) : Val :=
  match valCmp a b with
  | none => .nan
  | some c => if c > 0 then a else if c < 0 then b else if valSign a then b else a

/-- IEEE 754-2019 minimum. -/
def valMin (a b : Val) : Val :=
  match valCmp a b with
  | none => .nan
  | some c => if c < 0 then a else if c > 0 then b else if valSign a then a else b

/-- Integer square root by bits, from bit `k - 1` down. -/
def isqrtGo (n : Nat) : Nat → Nat → Nat
  | 0, r => r
  | k + 1, r => if (r + 2 ^ k) * (r + 2 ^ k) ≤ n then isqrtGo n k (r + 2 ^ k) else isqrtGo n k r

/-- The largest r with r * r ≤ n. -/
def isqrt (n : Nat) : Nat := isqrtGo n (bitLength n / 2 + 1) 0

/-- A value rounded once to a register format with RNE, sat 0 (R124). -/
def rne (f : FpFormat) (v : Val) : Nat := (fpConvert f false 0 0 v).1

/-- Correctly rounded quotient (R124). -/
def fpDiv (f : FpFormat) : Val → Val → Nat
  | .nan, _ => rne f .nan
  | _, .nan => rne f .nan
  | .inf _, .inf _ => rne f .nan
  | .inf a, .fin b _ _ => rne f (.inf (a != b))
  | .fin a _ _, .inf b => rne f (.fin (a != b) 0 0)
  | .fin a m e, .fin b m' e' =>
    if m' = 0 then (if m = 0 then rne f .nan else rne f (.inf (a != b)))
    else if m = 0 then rne f (.fin (a != b) 0 0)
    else
      let k := f.manBits + 3 + bitLength m'
      let n := m * 2 ^ k
      (fpRoundFin f false 0 0 (a != b) (n / m') (e - e' - (k : Int)) (n % m' != 0)).1

/-- Correctly rounded square root (R124): the root of -0 is -0, of a negative number NaN. -/
def fpSqrt (f : FpFormat) : Val → Nat
  | .nan => rne f .nan
  | .inf n => if n then rne f .nan else rne f (.inf false)
  | .fin n m e =>
    if m = 0 then rne f (.fin n 0 0)
    else if n then rne f .nan
    else
      let k := 2 * (f.manBits + 3) + (if e % 2 = 0 then 0 else 1)
      let w := m * 2 ^ k
      let r := isqrt w
      (fpRoundFin f false 0 0 false r ((e - (k : Int)) / 2) (r * r != w)).1

/-- Correctly rounded reciprocal square root (R124): of a zero, the infinity of its sign; of +infinity, +0. -/
def fpRsqrt (f : FpFormat) : Val → Nat
  | .nan => rne f .nan
  | .inf n => if n then rne f .nan else rne f (.fin false 0 0)
  | .fin n m e =>
    if m = 0 then rne f (.inf n)
    else if n then rne f .nan
    else
      let k := 2 * (f.manBits + 3) + 2 * bitLength m + (if e % 2 = 0 then 0 else 1)
      let w := 2 ^ k / m
      let r := isqrt w
      (fpRoundFin f false 0 0 false r ((-e - (k : Int)) / 2) (r * r * m != 2 ^ k)).1

/-- Convert an encoding between floating-point formats with RNE, sat 0. -/
def fpRecode (src dst : FpFormat) (x : Nat) : Nat := rne dst (fpDecode src x)

/-- Round an exact value to an integer with RNE or RTZ; non-finite values read 0. -/
def valRoundInt (mode : Nat) : Val → Int
  | .fin n m e =>
    let k : Int := (roundMag mode 0 m e false 0 : Nat)
    if n then -k else k
  | _ => 0

/-- The exact value of an integer. -/
def valOfInt (k : Int) : Val := .fin (k < 0) k.natAbs 0

/-- binary64 operations with RNE, on encodings (R115 to R117). -/
def add64 (a b : Nat) : Nat := rne fmtB64 (valAdd (fpDecode fmtB64 a) (fpDecode fmtB64 b))
def sub64 (a b : Nat) : Nat := rne fmtB64 (valAdd (fpDecode fmtB64 a) (valNeg (fpDecode fmtB64 b)))
def mul64 (a b : Nat) : Nat := rne fmtB64 (valMul (fpDecode fmtB64 a) (fpDecode fmtB64 b))
def div64 (a b : Nat) : Nat := fpDiv fmtB64 (fpDecode fmtB64 a) (fpDecode fmtB64 b)
def sqrt64 (a : Nat) : Nat := fpSqrt fmtB64 (fpDecode fmtB64 a)
def ofNat64 (n : Nat) : Nat := rne fmtB64 (.fin false n 0)
def add32 (a b : Nat) : Nat := rne fmtB32 (valAdd (fpDecode fmtB32 a) (fpDecode fmtB32 b))
def mul32 (a b : Nat) : Nat := rne fmtB32 (valMul (fpDecode fmtB32 a) (fpDecode fmtB32 b))
def div32 (a b : Nat) : Nat := fpDiv fmtB32 (fpDecode fmtB32 a) (fpDecode fmtB32 b)
def b64to32 (a : Nat) : Nat := fpRecode fmtB64 fmtB32 a
def b32to64 (a : Nat) : Nat := fpRecode fmtB32 fmtB64 a

/-- Largest-power exponent of an MX element format (R107). -/
def mxEmax (fmt : Nat) : Int :=
  match formatCode fmt with
  | 4 => 8 | 5 => 15 | 6 => 4 | 7 => 2 | 8 => 2 | _ => 0

/-- floor(log2) of a nonzero exact magnitude. -/
def valLog2 : Val → Int
  | .fin _ m e => e + (bitLength m : Int) - 1
  | _ => 0

/-- The largest magnitude of a block. -/
def valAbsMax (l : List Val) : Val :=
  l.foldl (fun a v => valMax a (valAbs v)) (.fin false 0 0)

/-- A block maximum in binary32, as the egress path forms it (R118): a NaN makes it NaN. The spec names no rounding for the maximum of
wider values; it is RNE, as R118 has it for the row sum (DESIGN CHOICE, log entry 46). -/
def blockMax (l : List Val) : Val :=
  if l.any valIsNan then .nan else fpDecode fmtB32 (rne fmtB32 (valAbsMax l))

/-- Encode one MX block (R106, R107): scale byte, elements and notes. The block maximum of R118 gives the scale; one that rounds to an
infinity takes the largest. `r` gives the stochastic words. -/
def mxEncode (fmt mode : Nat) (r : List Nat) (vs : List Val) : Nat × List (Nat × ConvNote) :=
  if vs.any valNonfinite then
    (0xFF, vs.map fun v => (0, if valNonfinite v then .nonfinite else .none))
  else
    let a := blockMax vs
    if valIsZero a then (0, vs.map fun v => elemConvert fmt true mode 0 v)
    else
      let x := if valNonfinite a then 127 else max (-127) (min 127 (valLog2 a - mxEmax fmt))
      ((x + 127).toNat, (vs.zip (r ++ List.replicate vs.length 0)).map fun p => elemConvert fmt true mode p.2 (valScale (-x) p.1))

/-- Decode one element of an MX block (R102). -/
def mxDecode (fmt scale x : Nat) : Val :=
  if scale = 0xFF then .nan else valScale ((scale : Int) - 127) (elemDecode fmt x)

/-- Significand width counting the leading bit, of an output element format (R189). -/
def sigWidth (fmt : Nat) : Nat :=
  match fpFormat (formatCode fmt) with
  | some f => f.manBits + 1
  | none => 0

end Sys2Proof.Machine
end

