-- ==== Sys2Proof/Machine/Regs.lean ====
section
/-! DEFINITION. The register maps (R11, R12): every register of the sixteen blocks by name, with its offset, its place
in an array, its fields with their access codes and reset values, and the selection that a view follows (R518). The
rows follow the register tables of the chapters, in the order of their offsets. -/
namespace Sys2Proof.Machine

/-- The register blocks (R400); the Bruix block's map (R245) is reached by REG_READ and REG_WRITE. -/
inductive Blk where
  | cap | str | upd | stm | asy | spk | tor | pair | tmu | evr | sec | pwr | sbb | dbg | hst | brx
  deriving DecidableEq, Repr

/-- The access codes of R12. -/
inductive Access where
  | ro | rw | rw1c | wo | rwl | rc
  deriving DecidableEq, Repr

/-- What selects the object that a view shows (R518). -/
inductive View where
  | none | hop | strJob | slice | stmSpoke | stmSpokeJob | stmArb | asySite | asyJob | asyProfile | torPort | torPeloton
  | link
  deriving DecidableEq, Repr

/-- One field of a register: its lowest bit, width, access code and reset value. -/
structure RegField where
  lo : Nat
  width : Nat
  access : Access
  reset : Nat
  deriving DecidableEq, Repr

/-- One register: its block, offset, spacing and number within an array, selection and fields. -/
structure RegRow where
  blk : Blk
  offset : Nat
  stride : Nat
  count : Nat
  view : View
  fields : List RegField
  deriving DecidableEq, Repr

/-- Every register, by name. -/
inductive Reg where
  | capIdent | capFwRelease | capCmdIface | capPciId | capController | capSerialLo | capSerialHi | capLimits
  | capJournalEntries | strInfo | strCtrl | strStatus | strFreeFrames | strParityWin | strHopSel | strHopReplays
  | strHopEscalations | strJobSel | strJobState | strJobQuota | strJobUsedMax | strJobCommittedLo | strJobCommittedHi
  | strJobAssayedLo | strJobAssayedHi | strJobPinnedLo | strJobPinnedHi | strJobAllocRefused | strJobPoisoned
  | strFlipLatMax | strFlipCount | strIntStatus | strIntEnable | strEccCe | strEccUe | strEccCeThresh
  | strRepairCount | updInfo | updCtrl | updStatus | updSliceSel | updOrderStall | updConvNonfinite | updConvSat
  | updConvNanLost | updRescaleBlocks | updRescaleRepeats | updRescaleExhausted | updArithNan | updStreamStall
  | updIssueCycles | updInvocations | updKernelLimit | updFaultPc | updRescaleCtrl | updFault | updIntStatus
  | updIntEnable | updKslot | stmInfo | stmCtrl | stmSel | stmStatus | stmSeqNext | stmWinOut | stmBufUsed
  | stmPktsSent | stmPktsDropped | stmPktsSkipped | stmReadsShared | stmLayerWait | stmWinWait | stmArbPrio
  | stmArbState | stmArbQuota | stmArbGrants | stmArbDead | stmArbSurplus | stmArbQuotaCuts | stmArbWindows
  | stmArbFloor | stmArbForecastLo | stmArbForecastHi | stmIntStatus | stmIntEnable | asyInfo | asyCtrl | asyStatus
  | asySel | asyQueue | asyTempBins | asySigCtrl | asyProfile | asySamplesReceived | asySamplesChecked
  | asySamplesMismatch | asySamplesUnchecked | asySamplesDroppedSrc | asySamplesMalformed | asyAbftChecked
  | asyAbftFailed | asySigFlags | asyVerdictDisagree | asyWindowLate | asyLocalisations | asyCleanThroughLo
  | asyCleanThroughHi | asyFindingStepLo | asyFindingStepHi | asyBaseThresh | asyBoostThresh | asyBoostHold
  | asyRateMax | asyIntStatus | asyIntEnable | spkInfo | spkCtrl | spkStatus | spkPeer | spkFecCorr | spkFecHeavy
  | spkFecUncorr | spkParityErr | spkNakTx | spkReplays | spkEscalations | spkReplayFull | spkCreditWait | spkFlitsTx
  | spkFlitsRx | spkAlarmsTx | spkAlarmsRx | spkMalformed | spkTagDiscards | spkGenDiscards | spkTrainTime
  | spkParityWin | spkHeavyThresh | spkForwarded | spkLaneSerr | spkIntStatus | spkIntEnable | torInfo | torCtrl
  | torSel | torIdentity | torPodId | torHelloInterval | torOptThresh | torDims | torAlarmsOrig | torAlarmsRx
  | torAlarmsDup | torAlarmErrors | torAlarmsForeign | torSurveyChanges | torRouteDiscards | torStaleDiscards
  | torLandDiscards | torFwdPkts | torXferPktsTx | torXferPktsRx | torCollTimeouts | torLandingsOpen | torPelotonJob
  | torPortStatus | torNeighbour | torNeighbourPort | torOptStatus | torPeloton | torPelotonGen | torIntStatus
  | torIntEnable | pairRole | pairCtrl | pairHbTimeout | pairFenceTimeout | pairAssistTimeout | pairLinkGrace
  | pairHbMissed | pairResultsFromPartner | pairAssists | pairJournalResends | pairRejoinBytesLo | pairRejoinBytesHi
  | pairIntStatus | pairIntEnable | tmuInfo | tmuCtrl | tmuStatus | tmuCapture | tmuSlew | tmuLossTimeout
  | tmuTimeInterval | tmuPtpDiscards | tmuTimeDiscards | tmuSetRefused | tmuSnapSLo | tmuSnapSHi | tmuSnapNs
  | tmuSnapFrac | tmuIntStatus | tmuIntEnable | tmuDomainCfg | tmuFreqAdj | tmuStepLo | tmuStepHi | tmuSetSLo
  | tmuSetSHi | tmuSetNs | tmuSetFrac | tmuMeasOffsetLo | tmuMeasOffsetHi | tmuMeasDelayLo | tmuMeasDelayHi
  | tmuMeasSeq | tmuMeasCount | tmuMeasDropped | tmuDomainCtrl | tmuCalTx | tmuCalRx | tmuCalAsym | evrInfo | evrCtrl
  | evrStatus | evrHeadSeq | evrNextSeq | evrReadSeq | evrOverwritten | evrRepeatWindow | evrPowerCycles | evrOpMsLo
  | evrOpMsHi | evrFolded | evrWilostSel | evrWilostUsed | evrWilostOverwritten | evrIntStatus | evrIntEnable
  | evrRecord | evrWilost | secInfo | secCtrl | secStatus | secIdIndexLo | secIdIndexHi | secReservedEndLo
  | secReservedEndHi | secClearSeq | secSvnMin | secSignatures | secVerifyFailures | secTagFailures | secReserveBlock
  | secIntStatus | secIntEnable | secMeas | secIdPubkey | secKeyHash | pwrInfo | pwrCtrl | pwrStatus | pwrReset
  | pwrDomainOnLo | pwrDomainOnHi | pwrDomainReqLo | pwrDomainReqHi | pwrDomainRefused | pwrStartCount
  | pwrStartFails | pwrStartTime | pwrResetIgnored | pwrCalSaves | pwrFuseFailures | pwrHbmRate | pwrCalCtrl
  | pwrFuseAuth | pwrFuseCtrl | pwrDisc | pwrTherm | pwrIntStatus | pwrIntEnable | pwrFloor | sbbInfo | sbbPresence
  | sbbFramesTx | sbbFramesRx | sbbCrcErrors | sbbUnknown | sbbArbLost | sbbAborts | sbbStuck | sbbIntStatus
  | sbbIntEnable | dbgInfo | dbgStatus | dbgFacilitiesLo | dbgFacilitiesHi | dbgTraceBytesLo | dbgTraceBytesHi
  | dbgTraceDropped | dbgIntStatus | dbgIntEnable | hstInfo | hstCtrl | hstStatus | hstCqBaseLo | hstCqBaseHi
  | hstCqEntries | hstCqHead | hstCqTail | hstCqLost | hstBdrReturn | hstIdFloorLo | hstIdFloorHi | hstJournalSeqLo
  | hstJournalSeqHi | hstCmdsAccepted | hstCmdsRefused | hstCmdsRepeated | hstSlotViolations | hstWindowViolations
  | hstPoisonedRx | hstWindowsLo | hstWindowsHi | hstIntStatus | hstIntEnable | brxInfo | brxCtrl | brxStatus
  | brxTags | brxSite | brxWdog | brxStreamPkts | brxDupDiscards | brxTagDiscards | brxGenDiscards | brxSeqErrors
  | brxFabricDiscards | brxGradPkts | brxSamplesSelected | brxSamplesDropped | brxTapsSent | brxMarkersInjected
  | brxMarkersRelayed | brxMarkersForeign | brxLeaseRefused | brxCursorRefused | brxResets | brxHangs | brxRouteSwaps
  | brxFreezeLost | brxFabricLifetime | brxJobId | brxHangMask | brxIntStatus | brxIntEnable | brxCursorLo
  | brxCursorHi | brxCap | brxFreeze
  deriving DecidableEq, Repr

/-- The row of each register. A reset value that depends on a strap, a fuse or the object is given by `regReset`. -/
def Reg.row : Reg → RegRow
  | .capIdent => ⟨.cap, 0x0, 4, 1, .none, [⟨16, 16, .ro, 29024⟩, ⟨8, 8, .ro, 177⟩]⟩
  | .capFwRelease => ⟨.cap, 0x4, 4, 1, .none, [⟨24, 8, .ro, 0⟩, ⟨16, 8, .ro, 0⟩, ⟨0, 16, .ro, 0⟩]⟩
  | .capCmdIface => ⟨.cap, 0x8, 4, 1, .none, [⟨8, 8, .ro, 1⟩, ⟨0, 8, .ro, 0⟩]⟩
  | .capPciId => ⟨.cap, 0xC, 4, 1, .none, [⟨16, 16, .ro, 29024⟩, ⟨0, 16, .ro, 0⟩]⟩
  | .capController => ⟨.cap, 0x10, 4, 1, .none, [⟨16, 16, .ro, 0⟩, ⟨0, 1, .ro, 0⟩]⟩
  | .capSerialLo => ⟨.cap, 0x18, 4, 1, .none, [⟨0, 32, .ro, 0⟩]⟩
  | .capSerialHi => ⟨.cap, 0x1C, 4, 1, .none, [⟨0, 32, .ro, 0⟩]⟩
  | .capLimits => ⟨.cap, 0x20, 4, 1, .none, [⟨24, 8, .ro, 16⟩, ⟨16, 8, .ro, 64⟩, ⟨0, 16, .ro, 256⟩]⟩
  | .capJournalEntries => ⟨.cap, 0x24, 4, 1, .none, [⟨0, 32, .ro, 131072⟩]⟩
  | .strInfo => ⟨.str, 0x0, 4, 1, .none, [⟨16, 16, .ro, 36864⟩, ⟨8, 8, .ro, 64⟩, ⟨0, 5, .ro, 16⟩]⟩
  | .strCtrl => ⟨.str, 0x4, 4, 1, .none, [⟨2, 3, .rw, 3⟩, ⟨1, 1, .rw, 0⟩]⟩
  | .strStatus => ⟨.str, 0x8, 4, 1, .none, [⟨16, 16, .ro, 0⟩, ⟨2, 1, .ro, 0⟩, ⟨1, 1, .ro, 0⟩, ⟨0, 1, .ro, 0⟩]⟩
  | .strFreeFrames => ⟨.str, 0xC, 4, 1, .none, [⟨0, 32, .ro, 588800⟩]⟩
  | .strParityWin => ⟨.str, 0x10, 4, 1, .none, [⟨16, 16, .rw, 64⟩, ⟨0, 16, .rw, 1000⟩]⟩
  | .strHopSel => ⟨.str, 0x14, 4, 1, .none, [⟨0, 3, .rw, 0⟩]⟩
  | .strHopReplays => ⟨.str, 0x18, 4, 1, .hop, [⟨0, 32, .rc, 0⟩]⟩
  | .strHopEscalations => ⟨.str, 0x1C, 4, 1, .hop, [⟨0, 32, .rc, 0⟩]⟩
  | .strJobSel => ⟨.str, 0x20, 4, 1, .none, [⟨0, 4, .rw, 0⟩]⟩
  | .strJobState => ⟨.str, 0x24, 4, 1, .strJob, [
      ⟨24, 8, .ro, 0⟩, ⟨16, 8, .ro, 0⟩, ⟨7, 1, .ro, 0⟩, ⟨6, 1, .ro, 0⟩, ⟨5, 1, .ro, 0⟩, ⟨4, 1, .ro, 0⟩,
      ⟨3, 1, .ro, 0⟩, ⟨0, 1, .ro, 0⟩]⟩
  | .strJobQuota => ⟨.str, 0x28, 4, 1, .strJob, [⟨0, 32, .ro, 0⟩]⟩
  | .strJobUsedMax => ⟨.str, 0x2C, 4, 1, .strJob, [⟨0, 32, .ro, 0⟩]⟩
  | .strJobCommittedLo => ⟨.str, 0x30, 4, 1, .strJob, [⟨0, 32, .ro, 0⟩]⟩
  | .strJobCommittedHi => ⟨.str, 0x34, 4, 1, .strJob, [⟨0, 32, .ro, 0⟩]⟩
  | .strJobAssayedLo => ⟨.str, 0x38, 4, 1, .strJob, [⟨0, 32, .ro, 0⟩]⟩
  | .strJobAssayedHi => ⟨.str, 0x3C, 4, 1, .strJob, [⟨0, 32, .ro, 0⟩]⟩
  | .strJobPinnedLo => ⟨.str, 0x40, 4, 1, .strJob, [⟨0, 32, .ro, 0⟩]⟩
  | .strJobPinnedHi => ⟨.str, 0x44, 4, 1, .strJob, [⟨0, 32, .ro, 0⟩]⟩
  | .strJobAllocRefused => ⟨.str, 0x48, 4, 1, .strJob, [⟨0, 32, .rc, 0⟩]⟩
  | .strJobPoisoned => ⟨.str, 0x4C, 4, 1, .strJob, [⟨0, 32, .ro, 0⟩]⟩
  | .strFlipLatMax => ⟨.str, 0x50, 4, 1, .none, [⟨0, 32, .rc, 0⟩]⟩
  | .strFlipCount => ⟨.str, 0x54, 4, 1, .none, [⟨0, 32, .ro, 0⟩]⟩
  | .strIntStatus => ⟨.str, 0x58, 4, 1, .none, [
      ⟨7, 1, .rw1c, 0⟩, ⟨6, 1, .rw1c, 0⟩, ⟨5, 1, .rw1c, 0⟩, ⟨4, 1, .rw1c, 0⟩, ⟨3, 1, .rw1c, 0⟩, ⟨2, 1, .rw1c, 0⟩,
      ⟨1, 1, .rw1c, 0⟩, ⟨0, 1, .rw1c, 0⟩]⟩
  | .strIntEnable => ⟨.str, 0x5C, 4, 1, .none, [
      ⟨7, 1, .rw, 0⟩, ⟨6, 1, .rw, 0⟩, ⟨5, 1, .rw, 0⟩, ⟨4, 1, .rw, 0⟩, ⟨3, 1, .rw, 0⟩, ⟨2, 1, .rw, 0⟩, ⟨1, 1, .rw, 0⟩,
      ⟨0, 1, .rw, 0⟩]⟩
  | .strEccCe => ⟨.str, 0x80, 4, 16, .none, [⟨0, 32, .rc, 0⟩]⟩
  | .strEccUe => ⟨.str, 0xC0, 4, 16, .none, [⟨0, 32, .rc, 0⟩]⟩
  | .strEccCeThresh => ⟨.str, 0x100, 4, 1, .none, [⟨0, 32, .rw, 1000⟩]⟩
  | .strRepairCount => ⟨.str, 0x108, 4, 1, .none, [⟨0, 32, .rc, 0⟩]⟩
  | .updInfo => ⟨.upd, 0x0, 4, 1, .none, [⟨24, 8, .ro, 1⟩, ⟨16, 8, .ro, 8⟩, ⟨8, 8, .ro, 16⟩, ⟨0, 5, .ro, 16⟩]⟩
  | .updCtrl => ⟨.upd, 0x4, 4, 1, .none, [⟨0, 1, .rw, 0⟩]⟩
  | .updStatus => ⟨.upd, 0x8, 4, 1, .none, [⟨16, 16, .ro, 0⟩, ⟨0, 16, .ro, 0⟩]⟩
  | .updSliceSel => ⟨.upd, 0xC, 4, 1, .none, [⟨0, 4, .rw, 0⟩]⟩
  | .updOrderStall => ⟨.upd, 0x10, 4, 1, .slice, [⟨0, 32, .rc, 0⟩]⟩
  | .updConvNonfinite => ⟨.upd, 0x14, 4, 1, .slice, [⟨0, 32, .rc, 0⟩]⟩
  | .updConvSat => ⟨.upd, 0x18, 4, 1, .slice, [⟨0, 32, .rc, 0⟩]⟩
  | .updConvNanLost => ⟨.upd, 0x1C, 4, 1, .slice, [⟨0, 32, .rc, 0⟩]⟩
  | .updRescaleBlocks => ⟨.upd, 0x20, 4, 1, .slice, [⟨0, 32, .rc, 0⟩]⟩
  | .updRescaleRepeats => ⟨.upd, 0x24, 4, 1, .slice, [⟨0, 32, .rc, 0⟩]⟩
  | .updRescaleExhausted => ⟨.upd, 0x28, 4, 1, .slice, [⟨0, 32, .rc, 0⟩]⟩
  | .updArithNan => ⟨.upd, 0x2C, 4, 1, .slice, [⟨0, 32, .rc, 0⟩]⟩
  | .updStreamStall => ⟨.upd, 0x30, 4, 1, .none, [⟨0, 32, .rc, 0⟩]⟩
  | .updIssueCycles => ⟨.upd, 0x34, 4, 1, .none, [⟨0, 32, .rc, 0⟩]⟩
  | .updInvocations => ⟨.upd, 0x38, 4, 1, .slice, [⟨0, 32, .rc, 0⟩]⟩
  | .updKernelLimit => ⟨.upd, 0x3C, 4, 1, .none, [⟨0, 32, .rw, 1048576⟩]⟩
  | .updFaultPc => ⟨.upd, 0x40, 4, 1, .slice, [⟨0, 32, .ro, 0⟩]⟩
  | .updRescaleCtrl => ⟨.upd, 0x44, 4, 1, .none, [⟨0, 4, .rw, 4⟩]⟩
  | .updFault => ⟨.upd, 0x48, 4, 1, .slice, [⟨16, 8, .ro, 0⟩, ⟨12, 4, .ro, 0⟩, ⟨8, 3, .ro, 0⟩]⟩
  | .updIntStatus => ⟨.upd, 0x60, 4, 1, .none, [
      ⟨3, 1, .rw1c, 0⟩, ⟨2, 1, .rw1c, 0⟩, ⟨1, 1, .rw1c, 0⟩, ⟨0, 1, .rw1c, 0⟩]⟩
  | .updIntEnable => ⟨.upd, 0x64, 4, 1, .none, [⟨3, 1, .rw, 0⟩, ⟨2, 1, .rw, 0⟩, ⟨1, 1, .rw, 0⟩, ⟨0, 1, .rw, 0⟩]⟩
  | .updKslot => ⟨.upd, 0x80, 4, 8, .none, [⟨31, 1, .ro, 0⟩, ⟨30, 1, .ro, 0⟩, ⟨0, 16, .ro, 0⟩]⟩
  | .stmInfo => ⟨.stm, 0x0, 4, 1, .none, [⟨24, 8, .ro, 8⟩, ⟨16, 8, .ro, 24⟩, ⟨8, 8, .ro, 8⟩, ⟨0, 8, .ro, 8⟩]⟩
  | .stmCtrl => ⟨.stm, 0x4, 4, 1, .none, [⟨16, 16, .rw, 64⟩, ⟨0, 1, .rw, 1⟩]⟩
  | .stmSel => ⟨.stm, 0x8, 4, 1, .none, [⟨16, 5, .rw, 0⟩, ⟨8, 4, .rw, 0⟩, ⟨0, 3, .rw, 0⟩]⟩
  | .stmStatus => ⟨.stm, 0xC, 4, 1, .none, [⟨24, 8, .ro, 0⟩, ⟨16, 8, .ro, 0⟩, ⟨0, 1, .ro, 0⟩]⟩
  | .stmSeqNext => ⟨.stm, 0x10, 4, 1, .stmSpokeJob, [⟨0, 32, .ro, 0⟩]⟩
  | .stmWinOut => ⟨.stm, 0x14, 4, 1, .stmSpoke, [⟨0, 32, .ro, 0⟩]⟩
  | .stmBufUsed => ⟨.stm, 0x18, 4, 1, .stmSpoke, [⟨0, 32, .ro, 0⟩]⟩
  | .stmPktsSent => ⟨.stm, 0x1C, 4, 1, .stmSpoke, [⟨0, 32, .rc, 0⟩]⟩
  | .stmPktsDropped => ⟨.stm, 0x20, 4, 1, .stmSpoke, [⟨0, 32, .rc, 0⟩]⟩
  | .stmPktsSkipped => ⟨.stm, 0x24, 4, 1, .stmSpoke, [⟨0, 32, .rc, 0⟩]⟩
  | .stmReadsShared => ⟨.stm, 0x28, 4, 1, .stmSpoke, [⟨0, 32, .rc, 0⟩]⟩
  | .stmLayerWait => ⟨.stm, 0x2C, 4, 1, .stmSpoke, [⟨0, 32, .rc, 0⟩]⟩
  | .stmWinWait => ⟨.stm, 0x30, 4, 1, .stmSpoke, [⟨0, 32, .rc, 0⟩]⟩
  | .stmArbPrio => ⟨.stm, 0x34, 4, 1, .stmArb, [⟨0, 8, .rw, 0⟩]⟩
  | .stmArbState => ⟨.stm, 0x38, 4, 1, .stmArb, [⟨24, 8, .ro, 0⟩, ⟨16, 8, .ro, 0⟩, ⟨0, 13, .ro, 0⟩]⟩
  | .stmArbQuota => ⟨.stm, 0x40, 4, 8, .stmArb, [⟨0, 32, .rw, 0⟩]⟩
  | .stmArbGrants => ⟨.stm, 0x60, 4, 8, .stmArb, [⟨0, 32, .rc, 0⟩]⟩
  | .stmArbDead => ⟨.stm, 0x80, 4, 1, .stmArb, [⟨0, 32, .rc, 0⟩]⟩
  | .stmArbSurplus => ⟨.stm, 0x84, 4, 1, .stmArb, [⟨0, 32, .rc, 0⟩]⟩
  | .stmArbQuotaCuts => ⟨.stm, 0x88, 4, 1, .stmArb, [⟨0, 32, .rc, 0⟩]⟩
  | .stmArbWindows => ⟨.stm, 0x8C, 4, 1, .stmArb, [⟨0, 32, .ro, 0⟩]⟩
  | .stmArbFloor => ⟨.stm, 0x90, 4, 1, .stmArb, [⟨0, 32, .rw, 256⟩]⟩
  | .stmArbForecastLo => ⟨.stm, 0x98, 4, 1, .stmArb, [
      ⟨24, 8, .ro, 0⟩, ⟨16, 8, .ro, 0⟩, ⟨8, 8, .ro, 0⟩, ⟨0, 8, .ro, 0⟩]⟩
  | .stmArbForecastHi => ⟨.stm, 0x9C, 4, 1, .stmArb, [
      ⟨24, 8, .ro, 0⟩, ⟨16, 8, .ro, 0⟩, ⟨8, 8, .ro, 0⟩, ⟨0, 8, .ro, 0⟩]⟩
  | .stmIntStatus => ⟨.stm, 0xA0, 4, 1, .none, [
      ⟨3, 1, .rw1c, 0⟩, ⟨2, 1, .rw1c, 0⟩, ⟨1, 1, .rw1c, 0⟩, ⟨0, 1, .rw1c, 0⟩]⟩
  | .stmIntEnable => ⟨.stm, 0xA4, 4, 1, .none, [⟨3, 1, .rw, 0⟩, ⟨2, 1, .rw, 0⟩, ⟨1, 1, .rw, 0⟩, ⟨0, 1, .rw, 0⟩]⟩
  | .asyInfo => ⟨.asy, 0x0, 4, 1, .none, [⟨24, 8, .ro, 64⟩, ⟨16, 8, .ro, 2⟩, ⟨8, 8, .ro, 48⟩, ⟨0, 8, .ro, 5⟩]⟩
  | .asyCtrl => ⟨.asy, 0x4, 4, 1, .none, [⟨2, 1, .rw, 1⟩, ⟨1, 1, .rw, 1⟩]⟩
  | .asyStatus => ⟨.asy, 0x8, 4, 1, .none, [⟨16, 16, .ro, 0⟩, ⟨2, 2, .ro, 0⟩, ⟨1, 1, .ro, 0⟩, ⟨0, 1, .ro, 0⟩]⟩
  | .asySel => ⟨.asy, 0xC, 4, 1, .none, [⟨8, 6, .rw, 0⟩, ⟨4, 4, .rw, 0⟩, ⟨0, 3, .rw, 0⟩]⟩
  | .asyQueue => ⟨.asy, 0x10, 4, 1, .none, [⟨16, 16, .ro, 0⟩, ⟨0, 16, .rw, 40960⟩]⟩
  | .asyTempBins => ⟨.asy, 0x14, 4, 1, .none, [⟨8, 8, .rw, 5⟩, ⟨0, 8, .rw, 55⟩]⟩
  | .asySigCtrl => ⟨.asy, 0x18, 4, 1, .none, [⟨24, 8, .rw, 64⟩, ⟨16, 8, .rw, 32⟩, ⟨8, 8, .rw, 8⟩, ⟨0, 4, .rw, 6⟩]⟩
  | .asyProfile => ⟨.asy, 0x1C, 4, 1, .asyProfile, [
      ⟨31, 1, .ro, 0⟩, ⟨30, 1, .ro, 0⟩, ⟨29, 1, .ro, 0⟩, ⟨0, 16, .ro, 0⟩]⟩
  | .asySamplesReceived => ⟨.asy, 0x20, 4, 1, .asySite, [⟨0, 32, .rc, 0⟩]⟩
  | .asySamplesChecked => ⟨.asy, 0x24, 4, 1, .asySite, [⟨0, 32, .rc, 0⟩]⟩
  | .asySamplesMismatch => ⟨.asy, 0x28, 4, 1, .asySite, [⟨0, 32, .rc, 0⟩]⟩
  | .asySamplesUnchecked => ⟨.asy, 0x2C, 4, 1, .asySite, [⟨0, 32, .rc, 0⟩]⟩
  | .asySamplesDroppedSrc => ⟨.asy, 0x30, 4, 1, .asySite, [⟨0, 32, .rc, 0⟩]⟩
  | .asySamplesMalformed => ⟨.asy, 0x34, 4, 1, .asySite, [⟨0, 32, .rc, 0⟩]⟩
  | .asyAbftChecked => ⟨.asy, 0x38, 4, 1, .asySite, [⟨0, 32, .rc, 0⟩]⟩
  | .asyAbftFailed => ⟨.asy, 0x3C, 4, 1, .asySite, [⟨0, 32, .rc, 0⟩]⟩
  | .asySigFlags => ⟨.asy, 0x40, 4, 1, .asySite, [⟨0, 32, .rc, 0⟩]⟩
  | .asyVerdictDisagree => ⟨.asy, 0x44, 4, 1, .asySite, [⟨0, 32, .rc, 0⟩]⟩
  | .asyWindowLate => ⟨.asy, 0x48, 4, 1, .asyJob, [⟨0, 32, .rc, 0⟩]⟩
  | .asyLocalisations => ⟨.asy, 0x4C, 4, 1, .asyJob, [⟨0, 32, .rc, 0⟩]⟩
  | .asyCleanThroughLo => ⟨.asy, 0x50, 4, 1, .asyJob, [⟨0, 32, .ro, 0⟩]⟩
  | .asyCleanThroughHi => ⟨.asy, 0x54, 4, 1, .asyJob, [⟨0, 32, .ro, 0⟩]⟩
  | .asyFindingStepLo => ⟨.asy, 0x58, 4, 1, .asyJob, [⟨0, 32, .ro, 0⟩]⟩
  | .asyFindingStepHi => ⟨.asy, 0x5C, 4, 1, .asyJob, [⟨0, 32, .ro, 0⟩]⟩
  | .asyBaseThresh => ⟨.asy, 0x60, 4, 1, .none, [⟨0, 32, .rw, 8589935⟩]⟩
  | .asyBoostThresh => ⟨.asy, 0x64, 4, 1, .none, [⟨0, 32, .rw, 214748365⟩]⟩
  | .asyBoostHold => ⟨.asy, 0x68, 4, 1, .none, [⟨0, 32, .rw, 1000⟩]⟩
  | .asyRateMax => ⟨.asy, 0x6C, 4, 1, .none, [⟨0, 32, .rw, 1073741824⟩]⟩
  | .asyIntStatus => ⟨.asy, 0x70, 4, 1, .none, [
      ⟨6, 1, .rw1c, 0⟩, ⟨5, 1, .rw1c, 0⟩, ⟨4, 1, .rw1c, 0⟩, ⟨3, 1, .rw1c, 0⟩, ⟨2, 1, .rw1c, 0⟩, ⟨1, 1, .rw1c, 0⟩,
      ⟨0, 1, .rw1c, 0⟩]⟩
  | .asyIntEnable => ⟨.asy, 0x74, 4, 1, .none, [
      ⟨6, 1, .rw, 0⟩, ⟨5, 1, .rw, 0⟩, ⟨4, 1, .rw, 0⟩, ⟨3, 1, .rw, 0⟩, ⟨2, 1, .rw, 0⟩, ⟨1, 1, .rw, 0⟩, ⟨0, 1, .rw, 0⟩]⟩
  | .spkInfo => ⟨.spk, 0x0, 4, 1, .link, [⟨24, 8, .ro, 16⟩, ⟨16, 8, .ro, 4⟩, ⟨0, 10, .ro, 512⟩]⟩
  | .spkCtrl => ⟨.spk, 0x4, 4, 1, .link, [⟨5, 3, .rw, 3⟩, ⟨4, 1, .rw, 0⟩, ⟨3, 1, .rw, 0⟩, ⟨0, 1, .rw, 0⟩]⟩
  | .spkStatus => ⟨.spk, 0x8, 4, 1, .link, [
      ⟨16, 16, .ro, 0⟩, ⟨8, 4, .ro, 0⟩, ⟨4, 3, .ro, 0⟩, ⟨2, 2, .ro, 0⟩, ⟨1, 1, .ro, 0⟩, ⟨0, 1, .ro, 0⟩]⟩
  | .spkPeer => ⟨.spk, 0xC, 4, 1, .link, [⟨16, 16, .ro, 0⟩, ⟨8, 8, .ro, 0⟩, ⟨0, 4, .ro, 0⟩]⟩
  | .spkFecCorr => ⟨.spk, 0x10, 4, 1, .link, [⟨0, 32, .rc, 0⟩]⟩
  | .spkFecHeavy => ⟨.spk, 0x14, 4, 1, .link, [⟨0, 32, .rc, 0⟩]⟩
  | .spkFecUncorr => ⟨.spk, 0x18, 4, 1, .link, [⟨0, 32, .rc, 0⟩]⟩
  | .spkParityErr => ⟨.spk, 0x1C, 4, 1, .link, [⟨0, 32, .rc, 0⟩]⟩
  | .spkNakTx => ⟨.spk, 0x20, 4, 1, .link, [⟨0, 32, .rc, 0⟩]⟩
  | .spkReplays => ⟨.spk, 0x24, 4, 1, .link, [⟨0, 32, .rc, 0⟩]⟩
  | .spkEscalations => ⟨.spk, 0x28, 4, 1, .link, [⟨0, 32, .rc, 0⟩]⟩
  | .spkReplayFull => ⟨.spk, 0x2C, 4, 1, .link, [⟨0, 32, .rc, 0⟩]⟩
  | .spkCreditWait => ⟨.spk, 0x30, 4, 4, .link, [⟨0, 32, .rc, 0⟩]⟩
  | .spkFlitsTx => ⟨.spk, 0x40, 4, 1, .link, [⟨0, 32, .rc, 0⟩]⟩
  | .spkFlitsRx => ⟨.spk, 0x44, 4, 1, .link, [⟨0, 32, .rc, 0⟩]⟩
  | .spkAlarmsTx => ⟨.spk, 0x48, 4, 1, .link, [⟨0, 32, .rc, 0⟩]⟩
  | .spkAlarmsRx => ⟨.spk, 0x4C, 4, 1, .link, [⟨0, 32, .rc, 0⟩]⟩
  | .spkMalformed => ⟨.spk, 0x50, 4, 1, .link, [⟨0, 32, .rc, 0⟩]⟩
  | .spkTagDiscards => ⟨.spk, 0x54, 4, 1, .link, [⟨0, 32, .rc, 0⟩]⟩
  | .spkGenDiscards => ⟨.spk, 0x58, 4, 1, .link, [⟨0, 32, .rc, 0⟩]⟩
  | .spkTrainTime => ⟨.spk, 0x5C, 4, 1, .link, [⟨0, 32, .ro, 0⟩]⟩
  | .spkParityWin => ⟨.spk, 0x60, 4, 1, .link, [⟨16, 16, .rw, 64⟩, ⟨0, 16, .rw, 1000⟩]⟩
  | .spkHeavyThresh => ⟨.spk, 0x64, 4, 1, .link, [⟨0, 32, .rw, 1000⟩]⟩
  | .spkForwarded => ⟨.spk, 0x68, 4, 1, .link, [⟨0, 32, .rc, 0⟩]⟩
  | .spkLaneSerr => ⟨.spk, 0x80, 4, 16, .link, [⟨0, 32, .rc, 0⟩]⟩
  | .spkIntStatus => ⟨.spk, 0xE0, 4, 1, .link, [
      ⟨6, 1, .rw1c, 0⟩, ⟨5, 1, .rw1c, 0⟩, ⟨4, 1, .rw1c, 0⟩, ⟨3, 1, .rw1c, 0⟩, ⟨2, 1, .rw1c, 0⟩, ⟨1, 1, .rw1c, 0⟩,
      ⟨0, 1, .rw1c, 0⟩]⟩
  | .spkIntEnable => ⟨.spk, 0xE4, 4, 1, .link, [
      ⟨6, 1, .rw, 0⟩, ⟨5, 1, .rw, 0⟩, ⟨4, 1, .rw, 0⟩, ⟨3, 1, .rw, 0⟩, ⟨2, 1, .rw, 0⟩, ⟨1, 1, .rw, 0⟩, ⟨0, 1, .rw, 0⟩]⟩
  | .torInfo => ⟨.tor, 0x0, 4, 1, .none, [⟨24, 8, .ro, 6⟩, ⟨16, 8, .ro, 8⟩, ⟨8, 8, .ro, 64⟩, ⟨0, 8, .ro, 128⟩]⟩
  | .torCtrl => ⟨.tor, 0x4, 4, 1, .none, [⟨4, 1, .rw, 1⟩, ⟨3, 1, .rw, 0⟩, ⟨2, 1, .rw, 0⟩, ⟨0, 1, .rw, 0⟩]⟩
  | .torSel => ⟨.tor, 0x8, 4, 1, .none, [⟨8, 6, .rw, 0⟩, ⟨0, 3, .rw, 0⟩]⟩
  | .torIdentity => ⟨.tor, 0xC, 4, 1, .none, [⟨16, 16, .ro, 0⟩, ⟨15, 1, .ro, 0⟩, ⟨0, 15, .ro, 0⟩]⟩
  | .torPodId => ⟨.tor, 0x10, 4, 1, .none, [⟨0, 32, .rwl, 0⟩]⟩
  | .torHelloInterval => ⟨.tor, 0x14, 4, 1, .none, [⟨0, 32, .rw, 1000⟩]⟩
  | .torOptThresh => ⟨.tor, 0x18, 4, 1, .none, [⟨0, 32, .rw, 100⟩]⟩
  | .torDims => ⟨.tor, 0x1C, 4, 1, .none, [⟨31, 1, .ro, 0⟩, ⟨10, 5, .ro, 1⟩, ⟨5, 5, .ro, 1⟩, ⟨0, 5, .ro, 1⟩]⟩
  | .torAlarmsOrig => ⟨.tor, 0x20, 4, 1, .none, [⟨0, 32, .rc, 0⟩]⟩
  | .torAlarmsRx => ⟨.tor, 0x24, 4, 1, .none, [⟨0, 32, .rc, 0⟩]⟩
  | .torAlarmsDup => ⟨.tor, 0x28, 4, 1, .none, [⟨0, 32, .rc, 0⟩]⟩
  | .torAlarmErrors => ⟨.tor, 0x2C, 4, 1, .torPort, [⟨0, 32, .rc, 0⟩]⟩
  | .torAlarmsForeign => ⟨.tor, 0x30, 4, 1, .none, [⟨0, 32, .rc, 0⟩]⟩
  | .torSurveyChanges => ⟨.tor, 0x34, 4, 1, .none, [⟨0, 32, .rc, 0⟩]⟩
  | .torRouteDiscards => ⟨.tor, 0x38, 4, 1, .none, [⟨0, 32, .rc, 0⟩]⟩
  | .torStaleDiscards => ⟨.tor, 0x3C, 4, 1, .none, [⟨0, 32, .rc, 0⟩]⟩
  | .torLandDiscards => ⟨.tor, 0x40, 4, 1, .none, [⟨0, 32, .rc, 0⟩]⟩
  | .torFwdPkts => ⟨.tor, 0x44, 4, 1, .none, [⟨0, 32, .rc, 0⟩]⟩
  | .torXferPktsTx => ⟨.tor, 0x48, 4, 1, .none, [⟨0, 32, .rc, 0⟩]⟩
  | .torXferPktsRx => ⟨.tor, 0x4C, 4, 1, .none, [⟨0, 32, .rc, 0⟩]⟩
  | .torCollTimeouts => ⟨.tor, 0x50, 4, 1, .none, [⟨0, 32, .rc, 0⟩]⟩
  | .torLandingsOpen => ⟨.tor, 0x54, 4, 1, .none, [⟨0, 32, .ro, 0⟩]⟩
  | .torPelotonJob => ⟨.tor, 0x58, 4, 1, .torPeloton, [⟨0, 32, .ro, 0⟩]⟩
  | .torPortStatus => ⟨.tor, 0x60, 4, 1, .torPort, [
      ⟨24, 8, .ro, 0⟩, ⟨23, 1, .ro, 0⟩, ⟨20, 3, .ro, 0⟩, ⟨12, 4, .ro, 0⟩, ⟨8, 2, .ro, 0⟩, ⟨5, 1, .ro, 0⟩,
      ⟨4, 1, .ro, 0⟩, ⟨0, 1, .ro, 0⟩]⟩
  | .torNeighbour => ⟨.tor, 0x64, 4, 1, .torPort, [⟨16, 16, .ro, 0⟩, ⟨15, 1, .ro, 0⟩, ⟨0, 15, .ro, 0⟩]⟩
  | .torNeighbourPort => ⟨.tor, 0x68, 4, 1, .torPort, [⟨3, 1, .ro, 0⟩, ⟨0, 3, .ro, 0⟩]⟩
  | .torOptStatus => ⟨.tor, 0x6C, 4, 1, .torPort, [⟨16, 8, .ro, 0⟩, ⟨8, 8, .ro, 0⟩, ⟨1, 1, .ro, 0⟩, ⟨0, 1, .ro, 0⟩]⟩
  | .torPeloton => ⟨.tor, 0x70, 4, 1, .torPeloton, [
      ⟨31, 1, .ro, 0⟩, ⟨30, 1, .ro, 0⟩, ⟨28, 2, .ro, 0⟩, ⟨0, 14, .ro, 0⟩]⟩
  | .torPelotonGen => ⟨.tor, 0x74, 4, 1, .torPeloton, [⟨0, 16, .ro, 0⟩]⟩
  | .torIntStatus => ⟨.tor, 0xE0, 4, 1, .none, [
      ⟨9, 1, .rw1c, 0⟩, ⟨8, 1, .rw1c, 0⟩, ⟨7, 1, .rw1c, 0⟩, ⟨6, 1, .rw1c, 0⟩, ⟨5, 1, .rw1c, 0⟩, ⟨4, 1, .rw1c, 0⟩,
      ⟨3, 1, .rw1c, 0⟩, ⟨2, 1, .rw1c, 0⟩, ⟨1, 1, .rw1c, 0⟩, ⟨0, 1, .rw1c, 0⟩]⟩
  | .torIntEnable => ⟨.tor, 0xE4, 4, 1, .none, [
      ⟨9, 1, .rw, 0⟩, ⟨8, 1, .rw, 0⟩, ⟨7, 1, .rw, 0⟩, ⟨6, 1, .rw, 0⟩, ⟨5, 1, .rw, 0⟩, ⟨4, 1, .rw, 0⟩, ⟨3, 1, .rw, 0⟩,
      ⟨2, 1, .rw, 0⟩, ⟨1, 1, .rw, 0⟩, ⟨0, 1, .rw, 0⟩]⟩
  | .pairRole => ⟨.pair, 0x100, 4, 1, .none, [
      ⟨16, 16, .ro, 0⟩, ⟨7, 1, .ro, 0⟩, ⟨6, 1, .ro, 0⟩, ⟨5, 1, .ro, 0⟩, ⟨4, 1, .ro, 0⟩, ⟨3, 1, .ro, 0⟩,
      ⟨0, 3, .ro, 0⟩]⟩
  | .pairCtrl => ⟨.pair, 0x104, 4, 1, .none, [⟨0, 1, .rw, 1⟩]⟩
  | .pairHbTimeout => ⟨.pair, 0x108, 4, 1, .none, [⟨0, 32, .rw, 3000⟩]⟩
  | .pairFenceTimeout => ⟨.pair, 0x10C, 4, 1, .none, [⟨0, 32, .rw, 1000⟩]⟩
  | .pairAssistTimeout => ⟨.pair, 0x110, 4, 1, .none, [⟨0, 32, .rw, 2000⟩]⟩
  | .pairLinkGrace => ⟨.pair, 0x114, 4, 1, .none, [⟨0, 32, .rw, 5000⟩]⟩
  | .pairHbMissed => ⟨.pair, 0x118, 4, 1, .none, [⟨0, 32, .rc, 0⟩]⟩
  | .pairResultsFromPartner => ⟨.pair, 0x11C, 4, 1, .none, [⟨0, 32, .rc, 0⟩]⟩
  | .pairAssists => ⟨.pair, 0x120, 4, 1, .none, [⟨0, 32, .rc, 0⟩]⟩
  | .pairJournalResends => ⟨.pair, 0x124, 4, 1, .none, [⟨0, 32, .rc, 0⟩]⟩
  | .pairRejoinBytesLo => ⟨.pair, 0x128, 4, 1, .none, [⟨0, 32, .ro, 0⟩]⟩
  | .pairRejoinBytesHi => ⟨.pair, 0x12C, 4, 1, .none, [⟨0, 32, .ro, 0⟩]⟩
  | .pairIntStatus => ⟨.pair, 0x1E0, 4, 1, .none, [
      ⟨5, 1, .rw1c, 0⟩, ⟨4, 1, .rw1c, 0⟩, ⟨3, 1, .rw1c, 0⟩, ⟨2, 1, .rw1c, 0⟩, ⟨1, 1, .rw1c, 0⟩, ⟨0, 1, .rw1c, 0⟩]⟩
  | .pairIntEnable => ⟨.pair, 0x1E4, 4, 1, .none, [
      ⟨5, 1, .rw, 0⟩, ⟨4, 1, .rw, 0⟩, ⟨3, 1, .rw, 0⟩, ⟨2, 1, .rw, 0⟩, ⟨1, 1, .rw, 0⟩, ⟨0, 1, .rw, 0⟩]⟩
  | .tmuInfo => ⟨.tmu, 0x0, 4, 1, .none, [⟨24, 8, .ro, 2⟩, ⟨16, 8, .ro, 7⟩, ⟨0, 16, .ro, 1000⟩]⟩
  | .tmuCtrl => ⟨.tmu, 0x4, 4, 1, .none, [⟨2, 1, .rw, 0⟩, ⟨1, 1, .rw, 0⟩, ⟨0, 1, .rw, 0⟩]⟩
  | .tmuStatus => ⟨.tmu, 0x8, 4, 1, .none, [⟨5, 1, .ro, 0⟩, ⟨4, 1, .ro, 0⟩, ⟨2, 2, .ro, 0⟩, ⟨0, 2, .ro, 0⟩]⟩
  | .tmuCapture => ⟨.tmu, 0x10, 4, 1, .none, [⟨0, 32, .wo, 0⟩]⟩
  | .tmuSlew => ⟨.tmu, 0x14, 4, 1, .none, [⟨0, 32, .rw, 100000⟩]⟩
  | .tmuLossTimeout => ⟨.tmu, 0x18, 4, 1, .none, [⟨0, 32, .rw, 2000⟩]⟩
  | .tmuTimeInterval => ⟨.tmu, 0x1C, 4, 1, .none, [⟨0, 32, .rw, 125000⟩]⟩
  | .tmuPtpDiscards => ⟨.tmu, 0x20, 4, 1, .none, [⟨0, 32, .rc, 0⟩]⟩
  | .tmuTimeDiscards => ⟨.tmu, 0x24, 4, 1, .none, [⟨0, 32, .rc, 0⟩]⟩
  | .tmuSetRefused => ⟨.tmu, 0x28, 4, 1, .none, [⟨0, 32, .rc, 0⟩]⟩
  | .tmuSnapSLo => ⟨.tmu, 0x30, 16, 3, .none, [⟨0, 32, .ro, 0⟩]⟩
  | .tmuSnapSHi => ⟨.tmu, 0x34, 16, 3, .none, [⟨0, 32, .ro, 0⟩]⟩
  | .tmuSnapNs => ⟨.tmu, 0x38, 16, 3, .none, [⟨0, 32, .ro, 0⟩]⟩
  | .tmuSnapFrac => ⟨.tmu, 0x3C, 16, 3, .none, [⟨0, 32, .ro, 0⟩]⟩
  | .tmuIntStatus => ⟨.tmu, 0xE0, 4, 1, .none, [
      ⟨3, 1, .rw1c, 0⟩, ⟨2, 1, .rw1c, 0⟩, ⟨1, 1, .rw1c, 0⟩, ⟨0, 1, .rw1c, 0⟩]⟩
  | .tmuIntEnable => ⟨.tmu, 0xE4, 4, 1, .none, [⟨3, 1, .rw, 0⟩, ⟨2, 1, .rw, 0⟩, ⟨1, 1, .rw, 0⟩, ⟨0, 1, .rw, 0⟩]⟩
  | .tmuDomainCfg => ⟨.tmu, 0x100, 128, 2, .none, [⟨16, 16, .rw, 0⟩, ⟨8, 7, .rw, 0⟩, ⟨0, 2, .rw, 0⟩]⟩
  | .tmuFreqAdj => ⟨.tmu, 0x104, 128, 2, .none, [⟨0, 32, .rw, 0⟩]⟩
  | .tmuStepLo => ⟨.tmu, 0x108, 128, 2, .none, [⟨0, 32, .wo, 0⟩]⟩
  | .tmuStepHi => ⟨.tmu, 0x10C, 128, 2, .none, [⟨0, 32, .wo, 0⟩]⟩
  | .tmuSetSLo => ⟨.tmu, 0x110, 128, 2, .none, [⟨0, 32, .rw, 0⟩]⟩
  | .tmuSetSHi => ⟨.tmu, 0x114, 128, 2, .none, [⟨0, 32, .rw, 0⟩]⟩
  | .tmuSetNs => ⟨.tmu, 0x118, 128, 2, .none, [⟨0, 32, .rw, 0⟩]⟩
  | .tmuSetFrac => ⟨.tmu, 0x11C, 128, 2, .none, [⟨0, 32, .rw, 0⟩]⟩
  | .tmuMeasOffsetLo => ⟨.tmu, 0x120, 128, 2, .none, [⟨0, 32, .ro, 0⟩]⟩
  | .tmuMeasOffsetHi => ⟨.tmu, 0x124, 128, 2, .none, [⟨0, 32, .ro, 0⟩]⟩
  | .tmuMeasDelayLo => ⟨.tmu, 0x128, 128, 2, .none, [⟨0, 32, .ro, 0⟩]⟩
  | .tmuMeasDelayHi => ⟨.tmu, 0x12C, 128, 2, .none, [⟨0, 32, .ro, 0⟩]⟩
  | .tmuMeasSeq => ⟨.tmu, 0x130, 128, 2, .none, [⟨0, 32, .ro, 0⟩]⟩
  | .tmuMeasCount => ⟨.tmu, 0x134, 128, 2, .none, [⟨0, 32, .rc, 0⟩]⟩
  | .tmuMeasDropped => ⟨.tmu, 0x138, 128, 2, .none, [⟨0, 32, .rc, 0⟩]⟩
  | .tmuDomainCtrl => ⟨.tmu, 0x13C, 128, 2, .none, [⟨2, 1, .wo, 0⟩, ⟨1, 1, .wo, 0⟩, ⟨0, 1, .rw, 0⟩]⟩
  | .tmuCalTx => ⟨.tmu, 0x200, 16, 7, .none, [⟨0, 32, .rw, 0⟩]⟩
  | .tmuCalRx => ⟨.tmu, 0x204, 16, 7, .none, [⟨0, 32, .rw, 0⟩]⟩
  | .tmuCalAsym => ⟨.tmu, 0x208, 16, 7, .none, [⟨0, 32, .rw, 0⟩]⟩
  | .evrInfo => ⟨.evr, 0x0, 4, 1, .none, [⟨24, 8, .ro, 128⟩, ⟨16, 8, .ro, 32⟩, ⟨0, 16, .ro, 64⟩]⟩
  | .evrCtrl => ⟨.evr, 0x4, 4, 1, .none, [⟨1, 3, .rw, 1⟩, ⟨0, 1, .rw, 0⟩]⟩
  | .evrStatus => ⟨.evr, 0x8, 4, 1, .none, [⟨16, 16, .ro, 0⟩, ⟨1, 1, .ro, 0⟩, ⟨0, 1, .ro, 0⟩]⟩
  | .evrHeadSeq => ⟨.evr, 0x10, 4, 1, .none, [⟨0, 32, .ro, 0⟩]⟩
  | .evrNextSeq => ⟨.evr, 0x14, 4, 1, .none, [⟨0, 32, .ro, 0⟩]⟩
  | .evrReadSeq => ⟨.evr, 0x18, 4, 1, .none, [⟨0, 32, .rw, 0⟩]⟩
  | .evrOverwritten => ⟨.evr, 0x1C, 4, 1, .none, [⟨0, 32, .rc, 0⟩]⟩
  | .evrRepeatWindow => ⟨.evr, 0x20, 4, 1, .none, [⟨0, 32, .rw, 1000⟩]⟩
  | .evrPowerCycles => ⟨.evr, 0x24, 4, 1, .none, [⟨0, 32, .ro, 0⟩]⟩
  | .evrOpMsLo => ⟨.evr, 0x28, 4, 1, .none, [⟨0, 32, .ro, 0⟩]⟩
  | .evrOpMsHi => ⟨.evr, 0x2C, 4, 1, .none, [⟨0, 32, .ro, 0⟩]⟩
  | .evrFolded => ⟨.evr, 0x30, 4, 1, .none, [⟨0, 32, .rc, 0⟩]⟩
  | .evrWilostSel => ⟨.evr, 0x34, 4, 1, .none, [⟨0, 32, .rw, 0⟩]⟩
  | .evrWilostUsed => ⟨.evr, 0x38, 4, 1, .none, [⟨0, 32, .ro, 0⟩]⟩
  | .evrWilostOverwritten => ⟨.evr, 0x3C, 4, 1, .none, [⟨0, 32, .rc, 0⟩]⟩
  | .evrIntStatus => ⟨.evr, 0xE0, 4, 1, .none, [
      ⟨3, 1, .rw1c, 0⟩, ⟨2, 1, .rw1c, 0⟩, ⟨1, 1, .rw1c, 0⟩, ⟨0, 1, .rw1c, 0⟩]⟩
  | .evrIntEnable => ⟨.evr, 0xE4, 4, 1, .none, [⟨3, 1, .rw, 0⟩, ⟨2, 1, .rw, 0⟩, ⟨1, 1, .rw, 0⟩, ⟨0, 1, .rw, 0⟩]⟩
  | .evrRecord => ⟨.evr, 0x1000, 4, 32, .none, [⟨0, 32, .ro, 0⟩]⟩
  | .evrWilost => ⟨.evr, 0x2000, 4, 1024, .none, [⟨0, 32, .ro, 0⟩]⟩
  | .secInfo => ⟨.sec, 0x0, 4, 1, .none, [⟨24, 8, .ro, 2⟩, ⟨16, 8, .ro, 4⟩, ⟨8, 8, .ro, 3⟩]⟩
  | .secCtrl => ⟨.sec, 0x4, 4, 1, .none, [⟨1, 1, .wo, 0⟩, ⟨0, 1, .wo, 0⟩]⟩
  | .secStatus => ⟨.sec, 0x8, 4, 1, .none, [
      ⟨16, 6, .ro, 0⟩, ⟨12, 4, .ro, 0⟩, ⟨11, 1, .ro, 0⟩, ⟨10, 1, .ro, 0⟩, ⟨9, 1, .ro, 0⟩, ⟨8, 1, .ro, 0⟩,
      ⟨7, 1, .ro, 0⟩]⟩
  | .secIdIndexLo => ⟨.sec, 0x10, 4, 1, .none, [⟨0, 32, .ro, 0⟩]⟩
  | .secIdIndexHi => ⟨.sec, 0x14, 4, 1, .none, [⟨0, 32, .ro, 0⟩]⟩
  | .secReservedEndLo => ⟨.sec, 0x18, 4, 1, .none, [⟨0, 32, .ro, 0⟩]⟩
  | .secReservedEndHi => ⟨.sec, 0x1C, 4, 1, .none, [⟨0, 32, .ro, 0⟩]⟩
  | .secClearSeq => ⟨.sec, 0x20, 4, 1, .none, [⟨0, 32, .ro, 0⟩]⟩
  | .secSvnMin => ⟨.sec, 0x24, 4, 1, .none, [⟨0, 32, .ro, 0⟩]⟩
  | .secSignatures => ⟨.sec, 0x28, 4, 1, .none, [⟨0, 32, .rc, 0⟩]⟩
  | .secVerifyFailures => ⟨.sec, 0x2C, 4, 1, .none, [⟨0, 32, .rc, 0⟩]⟩
  | .secTagFailures => ⟨.sec, 0x30, 4, 1, .none, [⟨0, 32, .rc, 0⟩]⟩
  | .secReserveBlock => ⟨.sec, 0x34, 4, 1, .none, [⟨0, 32, .ro, 1024⟩]⟩
  | .secIntStatus => ⟨.sec, 0xE0, 4, 1, .none, [
      ⟨4, 1, .rw1c, 0⟩, ⟨3, 1, .rw1c, 0⟩, ⟨2, 1, .rw1c, 0⟩, ⟨1, 1, .rw1c, 0⟩, ⟨0, 1, .rw1c, 0⟩]⟩
  | .secIntEnable => ⟨.sec, 0xE4, 4, 1, .none, [
      ⟨4, 1, .rw, 0⟩, ⟨3, 1, .rw, 0⟩, ⟨2, 1, .rw, 0⟩, ⟨1, 1, .rw, 0⟩, ⟨0, 1, .rw, 0⟩]⟩
  | .secMeas => ⟨.sec, 0x100, 4, 24, .none, [⟨0, 32, .ro, 0⟩]⟩
  | .secIdPubkey => ⟨.sec, 0x200, 4, 17, .none, [⟨0, 32, .ro, 0⟩]⟩
  | .secKeyHash => ⟨.sec, 0x300, 4, 48, .none, [⟨0, 32, .ro, 0⟩]⟩
  | .pwrInfo => ⟨.pwr, 0x0, 4, 1, .none, [⟨24, 8, .ro, 64⟩, ⟨16, 8, .ro, 72⟩]⟩
  | .pwrCtrl => ⟨.pwr, 0x4, 4, 1, .none, [⟨1, 1, .rw, 0⟩]⟩
  | .pwrStatus => ⟨.pwr, 0x8, 4, 1, .none, [
      ⟨12, 4, .ro, 0⟩, ⟨10, 2, .ro, 0⟩, ⟨9, 1, .ro, 0⟩, ⟨8, 1, .ro, 0⟩, ⟨7, 1, .ro, 0⟩, ⟨6, 1, .ro, 0⟩,
      ⟨5, 1, .ro, 0⟩, ⟨4, 1, .ro, 0⟩, ⟨0, 1, .ro, 0⟩]⟩
  | .pwrReset => ⟨.pwr, 0xC, 4, 1, .none, [
      ⟨31, 1, .wo, 0⟩, ⟨30, 1, .wo, 0⟩, ⟨29, 1, .wo, 0⟩, ⟨28, 1, .wo, 0⟩, ⟨8, 8, .wo, 0⟩, ⟨0, 7, .wo, 0⟩]⟩
  | .pwrDomainOnLo => ⟨.pwr, 0x10, 4, 1, .none, [⟨0, 32, .ro, 0⟩]⟩
  | .pwrDomainOnHi => ⟨.pwr, 0x14, 4, 1, .none, [⟨0, 32, .ro, 0⟩]⟩
  | .pwrDomainReqLo => ⟨.pwr, 0x18, 4, 1, .none, [⟨0, 32, .rw, 4294967295⟩]⟩
  | .pwrDomainReqHi => ⟨.pwr, 0x1C, 4, 1, .none, [⟨0, 32, .rw, 4294967295⟩]⟩
  | .pwrDomainRefused => ⟨.pwr, 0x20, 4, 1, .none, [⟨0, 32, .rc, 0⟩]⟩
  | .pwrStartCount => ⟨.pwr, 0x24, 4, 1, .none, [⟨0, 32, .ro, 0⟩]⟩
  | .pwrStartFails => ⟨.pwr, 0x28, 4, 1, .none, [⟨0, 32, .rc, 0⟩]⟩
  | .pwrStartTime => ⟨.pwr, 0x2C, 4, 1, .none, [⟨0, 32, .ro, 0⟩]⟩
  | .pwrResetIgnored => ⟨.pwr, 0x30, 4, 1, .none, [⟨0, 32, .rc, 0⟩]⟩
  | .pwrCalSaves => ⟨.pwr, 0x34, 4, 1, .none, [⟨0, 32, .rc, 0⟩]⟩
  | .pwrFuseFailures => ⟨.pwr, 0x38, 4, 1, .none, [⟨0, 32, .rc, 0⟩]⟩
  | .pwrHbmRate => ⟨.pwr, 0x3C, 4, 1, .none, [⟨0, 32, .ro, 0⟩]⟩
  | .pwrCalCtrl => ⟨.pwr, 0x40, 4, 1, .none, [⟨0, 1, .wo, 0⟩]⟩
  | .pwrFuseAuth => ⟨.pwr, 0x44, 4, 1, .none, [⟨16, 8, .rw, 0⟩, ⟨0, 12, .rw, 0⟩]⟩
  | .pwrFuseCtrl => ⟨.pwr, 0x48, 4, 1, .none, [⟨0, 1, .wo, 0⟩]⟩
  | .pwrDisc => ⟨.pwr, 0x50, 4, 1, .none, [
      ⟨7, 1, .ro, 0⟩, ⟨6, 1, .ro, 0⟩, ⟨5, 1, .ro, 0⟩, ⟨4, 1, .ro, 0⟩, ⟨3, 1, .ro, 0⟩, ⟨2, 1, .ro, 0⟩, ⟨1, 1, .ro, 0⟩,
      ⟨0, 1, .ro, 0⟩]⟩
  | .pwrTherm => ⟨.pwr, 0x54, 4, 1, .none, [
      ⟨24, 8, .ro, 0⟩, ⟨16, 8, .rc, 0⟩, ⟨8, 8, .rw, 95⟩, ⟨1, 1, .ro, 0⟩, ⟨0, 1, .ro, 0⟩]⟩
  | .pwrIntStatus => ⟨.pwr, 0xE0, 4, 1, .none, [
      ⟨5, 1, .rw1c, 0⟩, ⟨4, 1, .rw1c, 0⟩, ⟨3, 1, .rw1c, 0⟩, ⟨2, 1, .rw1c, 0⟩, ⟨1, 1, .rw1c, 0⟩, ⟨0, 1, .rw1c, 0⟩]⟩
  | .pwrIntEnable => ⟨.pwr, 0xE4, 4, 1, .none, [
      ⟨5, 1, .rw, 0⟩, ⟨4, 1, .rw, 0⟩, ⟨3, 1, .rw, 0⟩, ⟨2, 1, .rw, 0⟩, ⟨1, 1, .rw, 0⟩, ⟨0, 1, .rw, 0⟩]⟩
  | .pwrFloor => ⟨.pwr, 0x400, 4, 72, .none, [
      ⟨8, 8, .ro, 0⟩, ⟨3, 1, .ro, 0⟩, ⟨2, 1, .ro, 0⟩, ⟨1, 1, .ro, 0⟩, ⟨0, 1, .ro, 0⟩]⟩
  | .sbbInfo => ⟨.sbb, 0x0, 4, 1, .none, [⟨24, 8, .ro, 11⟩, ⟨16, 8, .ro, 20⟩, ⟨8, 8, .ro, 64⟩, ⟨0, 8, .ro, 0⟩]⟩
  | .sbbPresence => ⟨.sbb, 0x8, 4, 1, .none, [⟨3, 8, .ro, 0⟩, ⟨2, 1, .ro, 0⟩, ⟨1, 1, .ro, 0⟩, ⟨0, 1, .ro, 0⟩]⟩
  | .sbbFramesTx => ⟨.sbb, 0x10, 4, 1, .none, [⟨0, 32, .rc, 0⟩]⟩
  | .sbbFramesRx => ⟨.sbb, 0x14, 4, 1, .none, [⟨0, 32, .rc, 0⟩]⟩
  | .sbbCrcErrors => ⟨.sbb, 0x18, 4, 1, .none, [⟨0, 32, .rc, 0⟩]⟩
  | .sbbUnknown => ⟨.sbb, 0x1C, 4, 1, .none, [⟨0, 32, .rc, 0⟩]⟩
  | .sbbArbLost => ⟨.sbb, 0x20, 4, 1, .none, [⟨0, 32, .rc, 0⟩]⟩
  | .sbbAborts => ⟨.sbb, 0x24, 4, 1, .none, [⟨0, 32, .rc, 0⟩]⟩
  | .sbbStuck => ⟨.sbb, 0x28, 4, 1, .none, [⟨0, 32, .rc, 0⟩]⟩
  | .sbbIntStatus => ⟨.sbb, 0xE0, 4, 1, .none, [⟨2, 1, .rw1c, 0⟩, ⟨1, 1, .rw1c, 0⟩, ⟨0, 1, .rw1c, 0⟩]⟩
  | .sbbIntEnable => ⟨.sbb, 0xE4, 4, 1, .none, [⟨2, 1, .rw, 0⟩, ⟨1, 1, .rw, 0⟩, ⟨0, 1, .rw, 0⟩]⟩
  | .dbgInfo => ⟨.dbg, 0x0, 4, 1, .none, [⟨24, 8, .ro, 8⟩, ⟨16, 8, .ro, 4⟩]⟩
  | .dbgStatus => ⟨.dbg, 0x8, 4, 1, .none, [⟨2, 1, .ro, 0⟩, ⟨1, 1, .ro, 0⟩, ⟨0, 1, .ro, 0⟩]⟩
  | .dbgFacilitiesLo => ⟨.dbg, 0x10, 4, 1, .none, [⟨0, 32, .ro, 0⟩]⟩
  | .dbgFacilitiesHi => ⟨.dbg, 0x14, 4, 1, .none, [⟨0, 32, .ro, 0⟩]⟩
  | .dbgTraceBytesLo => ⟨.dbg, 0x18, 4, 1, .none, [⟨0, 32, .ro, 0⟩]⟩
  | .dbgTraceBytesHi => ⟨.dbg, 0x1C, 4, 1, .none, [⟨0, 32, .ro, 0⟩]⟩
  | .dbgTraceDropped => ⟨.dbg, 0x20, 4, 1, .none, [⟨0, 32, .rc, 0⟩]⟩
  | .dbgIntStatus => ⟨.dbg, 0xE0, 4, 1, .none, [⟨2, 1, .rw1c, 0⟩, ⟨1, 1, .rw1c, 0⟩, ⟨0, 1, .rw1c, 0⟩]⟩
  | .dbgIntEnable => ⟨.dbg, 0xE4, 4, 1, .none, [⟨2, 1, .rw, 0⟩, ⟨1, 1, .rw, 0⟩, ⟨0, 1, .rw, 0⟩]⟩
  | .hstInfo => ⟨.hst, 0x0, 4, 1, .none, [⟨24, 8, .ro, 64⟩, ⟨8, 8, .ro, 192⟩]⟩
  | .hstCtrl => ⟨.hst, 0x4, 4, 1, .none, [⟨0, 1, .rw, 0⟩]⟩
  | .hstStatus => ⟨.hst, 0x8, 4, 1, .none, [
      ⟨8, 3, .ro, 0⟩, ⟨7, 1, .ro, 0⟩, ⟨4, 3, .ro, 0⟩, ⟨1, 3, .ro, 0⟩, ⟨0, 1, .ro, 0⟩]⟩
  | .hstCqBaseLo => ⟨.hst, 0x10, 4, 1, .none, [⟨0, 32, .rw, 0⟩]⟩
  | .hstCqBaseHi => ⟨.hst, 0x14, 4, 1, .none, [⟨0, 32, .rw, 0⟩]⟩
  | .hstCqEntries => ⟨.hst, 0x18, 4, 1, .none, [⟨0, 32, .rw, 64⟩]⟩
  | .hstCqHead => ⟨.hst, 0x1C, 4, 1, .none, [⟨0, 32, .rw, 0⟩]⟩
  | .hstCqTail => ⟨.hst, 0x20, 4, 1, .none, [⟨0, 32, .ro, 0⟩]⟩
  | .hstCqLost => ⟨.hst, 0x24, 4, 1, .none, [⟨0, 32, .rc, 0⟩]⟩
  | .hstBdrReturn => ⟨.hst, 0x28, 4, 1, .none, [⟨0, 32, .wo, 0⟩]⟩
  | .hstIdFloorLo => ⟨.hst, 0x30, 4, 1, .none, [⟨0, 32, .ro, 0⟩]⟩
  | .hstIdFloorHi => ⟨.hst, 0x34, 4, 1, .none, [⟨0, 32, .ro, 0⟩]⟩
  | .hstJournalSeqLo => ⟨.hst, 0x38, 4, 1, .none, [⟨0, 32, .ro, 0⟩]⟩
  | .hstJournalSeqHi => ⟨.hst, 0x3C, 4, 1, .none, [⟨0, 32, .ro, 0⟩]⟩
  | .hstCmdsAccepted => ⟨.hst, 0x40, 4, 1, .none, [⟨0, 32, .rc, 0⟩]⟩
  | .hstCmdsRefused => ⟨.hst, 0x44, 4, 1, .none, [⟨0, 32, .rc, 0⟩]⟩
  | .hstCmdsRepeated => ⟨.hst, 0x48, 4, 1, .none, [⟨0, 32, .rc, 0⟩]⟩
  | .hstSlotViolations => ⟨.hst, 0x4C, 4, 1, .none, [⟨0, 32, .rc, 0⟩]⟩
  | .hstWindowViolations => ⟨.hst, 0x50, 4, 1, .none, [⟨0, 32, .rc, 0⟩]⟩
  | .hstPoisonedRx => ⟨.hst, 0x54, 4, 1, .none, [⟨0, 32, .rc, 0⟩]⟩
  | .hstWindowsLo => ⟨.hst, 0x58, 4, 1, .none, [⟨0, 32, .ro, 0⟩]⟩
  | .hstWindowsHi => ⟨.hst, 0x5C, 4, 1, .none, [⟨0, 32, .ro, 0⟩]⟩
  | .hstIntStatus => ⟨.hst, 0x60, 4, 1, .none, [
      ⟨5, 1, .rw1c, 0⟩, ⟨4, 1, .rw1c, 0⟩, ⟨3, 1, .rw1c, 0⟩, ⟨2, 1, .rw1c, 0⟩, ⟨1, 1, .rw1c, 0⟩, ⟨0, 1, .rw1c, 0⟩]⟩
  | .hstIntEnable => ⟨.hst, 0x64, 4, 1, .none, [
      ⟨5, 1, .rw, 0⟩, ⟨4, 1, .rw, 0⟩, ⟨3, 1, .rw, 0⟩, ⟨2, 1, .rw, 0⟩, ⟨1, 1, .rw, 0⟩, ⟨0, 1, .rw, 0⟩]⟩
  | .brxInfo => ⟨.brx, 0x0, 4, 1, .none, [⟨24, 8, .ro, 1⟩, ⟨16, 8, .ro, 0⟩, ⟨0, 8, .ro, 0⟩]⟩
  | .brxCtrl => ⟨.brx, 0x4, 4, 1, .none, [⟨3, 1, .wo, 0⟩, ⟨2, 1, .rw, 0⟩, ⟨1, 1, .rw, 0⟩, ⟨0, 1, .rw, 0⟩]⟩
  | .brxStatus => ⟨.brx, 0x8, 4, 1, .none, [
      ⟨24, 8, .ro, 0⟩, ⟨14, 1, .ro, 0⟩, ⟨13, 1, .ro, 0⟩, ⟨12, 1, .ro, 0⟩, ⟨11, 1, .ro, 0⟩, ⟨10, 1, .ro, 0⟩,
      ⟨9, 1, .ro, 0⟩, ⟨8, 1, .ro, 0⟩, ⟨7, 1, .ro, 0⟩]⟩
  | .brxTags => ⟨.brx, 0xC, 4, 1, .none, [⟨24, 8, .ro, 0⟩, ⟨16, 8, .ro, 0⟩, ⟨1, 1, .ro, 0⟩, ⟨0, 1, .ro, 0⟩]⟩
  | .brxSite => ⟨.brx, 0x10, 4, 1, .none, [⟨16, 16, .ro, 0⟩, ⟨0, 16, .ro, 0⟩]⟩
  | .brxWdog => ⟨.brx, 0x20, 4, 16, .none, [⟨31, 1, .rw, 0⟩, ⟨30, 1, .ro, 0⟩, ⟨29, 1, .ro, 0⟩, ⟨0, 16, .rw, 200⟩]⟩
  | .brxStreamPkts => ⟨.brx, 0x80, 4, 1, .none, [⟨0, 32, .rc, 0⟩]⟩
  | .brxDupDiscards => ⟨.brx, 0x84, 4, 1, .none, [⟨0, 32, .rc, 0⟩]⟩
  | .brxTagDiscards => ⟨.brx, 0x88, 4, 1, .none, [⟨0, 32, .rc, 0⟩]⟩
  | .brxGenDiscards => ⟨.brx, 0x8C, 4, 1, .none, [⟨0, 32, .rc, 0⟩]⟩
  | .brxSeqErrors => ⟨.brx, 0x90, 4, 1, .none, [⟨0, 32, .rc, 0⟩]⟩
  | .brxFabricDiscards => ⟨.brx, 0x94, 4, 1, .none, [⟨0, 32, .rc, 0⟩]⟩
  | .brxGradPkts => ⟨.brx, 0x98, 4, 1, .none, [⟨0, 32, .rc, 0⟩]⟩
  | .brxSamplesSelected => ⟨.brx, 0x9C, 4, 1, .none, [⟨0, 32, .rc, 0⟩]⟩
  | .brxSamplesDropped => ⟨.brx, 0xA0, 4, 1, .none, [⟨0, 32, .rc, 0⟩]⟩
  | .brxTapsSent => ⟨.brx, 0xA4, 4, 1, .none, [⟨0, 32, .rc, 0⟩]⟩
  | .brxMarkersInjected => ⟨.brx, 0xA8, 4, 1, .none, [⟨0, 32, .rc, 0⟩]⟩
  | .brxMarkersRelayed => ⟨.brx, 0xAC, 4, 1, .none, [⟨0, 32, .rc, 0⟩]⟩
  | .brxMarkersForeign => ⟨.brx, 0xB0, 4, 1, .none, [⟨0, 32, .rc, 0⟩]⟩
  | .brxLeaseRefused => ⟨.brx, 0xB4, 4, 1, .none, [⟨0, 32, .rc, 0⟩]⟩
  | .brxCursorRefused => ⟨.brx, 0xB8, 4, 1, .none, [⟨0, 32, .rc, 0⟩]⟩
  | .brxResets => ⟨.brx, 0xBC, 4, 1, .none, [⟨0, 32, .rc, 0⟩]⟩
  | .brxHangs => ⟨.brx, 0xC0, 4, 1, .none, [⟨0, 32, .rc, 0⟩]⟩
  | .brxRouteSwaps => ⟨.brx, 0xC4, 4, 1, .none, [⟨0, 32, .rc, 0⟩]⟩
  | .brxFreezeLost => ⟨.brx, 0xC8, 4, 1, .none, [⟨0, 32, .rc, 0⟩]⟩
  | .brxFabricLifetime => ⟨.brx, 0xCC, 4, 1, .none, [⟨0, 32, .rw, 100⟩]⟩
  | .brxJobId => ⟨.brx, 0xD0, 4, 1, .none, [⟨0, 32, .ro, 0⟩]⟩
  | .brxHangMask => ⟨.brx, 0xD4, 4, 1, .none, [⟨0, 32, .ro, 0⟩]⟩
  | .brxIntStatus => ⟨.brx, 0xE0, 4, 1, .none, [
      ⟨7, 1, .rw1c, 0⟩, ⟨6, 1, .rw1c, 0⟩, ⟨5, 1, .rw1c, 0⟩, ⟨4, 1, .rw1c, 0⟩, ⟨3, 1, .rw1c, 0⟩, ⟨2, 1, .rw1c, 0⟩,
      ⟨1, 1, .rw1c, 0⟩, ⟨0, 1, .rw1c, 0⟩]⟩
  | .brxIntEnable => ⟨.brx, 0xE4, 4, 1, .none, [
      ⟨7, 1, .rw, 0⟩, ⟨6, 1, .rw, 0⟩, ⟨5, 1, .rw, 0⟩, ⟨4, 1, .rw, 0⟩, ⟨3, 1, .rw, 0⟩, ⟨2, 1, .rw, 0⟩, ⟨1, 1, .rw, 0⟩,
      ⟨0, 1, .rw, 0⟩]⟩
  | .brxCursorLo => ⟨.brx, 0x100, 8, 4, .none, [⟨0, 32, .ro, 4294967295⟩]⟩
  | .brxCursorHi => ⟨.brx, 0x104, 8, 4, .none, [⟨0, 32, .ro, 4294967295⟩]⟩
  | .brxCap => ⟨.brx, 0x400, 4, 64, .none, [⟨0, 32, .rwl, 0⟩]⟩
  | .brxFreeze => ⟨.brx, 0x1000, 4, 4096, .none, [⟨0, 32, .ro, 0⟩]⟩

/-- The registers of block CAP. -/
def Reg.ofCap : List Reg :=
  [.capIdent, .capFwRelease, .capCmdIface, .capPciId, .capController, .capSerialLo, .capSerialHi, .capLimits,
   .capJournalEntries]

/-- The registers of block STR. -/
def Reg.ofStr : List Reg :=
  [.strInfo, .strCtrl, .strStatus, .strFreeFrames, .strParityWin, .strHopSel, .strHopReplays, .strHopEscalations,
   .strJobSel, .strJobState, .strJobQuota, .strJobUsedMax, .strJobCommittedLo, .strJobCommittedHi, .strJobAssayedLo,
   .strJobAssayedHi, .strJobPinnedLo, .strJobPinnedHi, .strJobAllocRefused, .strJobPoisoned, .strFlipLatMax,
   .strFlipCount, .strIntStatus, .strIntEnable, .strEccCe, .strEccUe, .strEccCeThresh, .strRepairCount]

/-- The registers of block UPD. -/
def Reg.ofUpd : List Reg :=
  [.updInfo, .updCtrl, .updStatus, .updSliceSel, .updOrderStall, .updConvNonfinite, .updConvSat, .updConvNanLost,
   .updRescaleBlocks, .updRescaleRepeats, .updRescaleExhausted, .updArithNan, .updStreamStall, .updIssueCycles,
   .updInvocations, .updKernelLimit, .updFaultPc, .updRescaleCtrl, .updFault, .updIntStatus, .updIntEnable, .updKslot]

/-- The registers of block STM. -/
def Reg.ofStm : List Reg :=
  [.stmInfo, .stmCtrl, .stmSel, .stmStatus, .stmSeqNext, .stmWinOut, .stmBufUsed, .stmPktsSent, .stmPktsDropped,
   .stmPktsSkipped, .stmReadsShared, .stmLayerWait, .stmWinWait, .stmArbPrio, .stmArbState, .stmArbQuota,
   .stmArbGrants, .stmArbDead, .stmArbSurplus, .stmArbQuotaCuts, .stmArbWindows, .stmArbFloor, .stmArbForecastLo,
   .stmArbForecastHi, .stmIntStatus, .stmIntEnable]

/-- The registers of block ASY. -/
def Reg.ofAsy : List Reg :=
  [.asyInfo, .asyCtrl, .asyStatus, .asySel, .asyQueue, .asyTempBins, .asySigCtrl, .asyProfile, .asySamplesReceived,
   .asySamplesChecked, .asySamplesMismatch, .asySamplesUnchecked, .asySamplesDroppedSrc, .asySamplesMalformed,
   .asyAbftChecked, .asyAbftFailed, .asySigFlags, .asyVerdictDisagree, .asyWindowLate, .asyLocalisations,
   .asyCleanThroughLo, .asyCleanThroughHi, .asyFindingStepLo, .asyFindingStepHi, .asyBaseThresh, .asyBoostThresh,
   .asyBoostHold, .asyRateMax, .asyIntStatus, .asyIntEnable]

/-- The registers of block SPK. -/
def Reg.ofSpk : List Reg :=
  [.spkInfo, .spkCtrl, .spkStatus, .spkPeer, .spkFecCorr, .spkFecHeavy, .spkFecUncorr, .spkParityErr, .spkNakTx,
   .spkReplays, .spkEscalations, .spkReplayFull, .spkCreditWait, .spkFlitsTx, .spkFlitsRx, .spkAlarmsTx,
   .spkAlarmsRx, .spkMalformed, .spkTagDiscards, .spkGenDiscards, .spkTrainTime, .spkParityWin, .spkHeavyThresh,
   .spkForwarded, .spkLaneSerr, .spkIntStatus, .spkIntEnable]

/-- The registers of block TOR. -/
def Reg.ofTor : List Reg :=
  [.torInfo, .torCtrl, .torSel, .torIdentity, .torPodId, .torHelloInterval, .torOptThresh, .torDims, .torAlarmsOrig,
   .torAlarmsRx, .torAlarmsDup, .torAlarmErrors, .torAlarmsForeign, .torSurveyChanges, .torRouteDiscards,
   .torStaleDiscards, .torLandDiscards, .torFwdPkts, .torXferPktsTx, .torXferPktsRx, .torCollTimeouts,
   .torLandingsOpen, .torPelotonJob, .torPortStatus, .torNeighbour, .torNeighbourPort, .torOptStatus, .torPeloton,
   .torPelotonGen, .torIntStatus, .torIntEnable]

/-- The registers of block PAIR. -/
def Reg.ofPair : List Reg :=
  [.pairRole, .pairCtrl, .pairHbTimeout, .pairFenceTimeout, .pairAssistTimeout, .pairLinkGrace, .pairHbMissed,
   .pairResultsFromPartner, .pairAssists, .pairJournalResends, .pairRejoinBytesLo, .pairRejoinBytesHi,
   .pairIntStatus, .pairIntEnable]

/-- The registers of block TMU. -/
def Reg.ofTmu : List Reg :=
  [.tmuInfo, .tmuCtrl, .tmuStatus, .tmuCapture, .tmuSlew, .tmuLossTimeout, .tmuTimeInterval, .tmuPtpDiscards,
   .tmuTimeDiscards, .tmuSetRefused, .tmuSnapSLo, .tmuSnapSHi, .tmuSnapNs, .tmuSnapFrac, .tmuIntStatus,
   .tmuIntEnable, .tmuDomainCfg, .tmuFreqAdj, .tmuStepLo, .tmuStepHi, .tmuSetSLo, .tmuSetSHi, .tmuSetNs, .tmuSetFrac,
   .tmuMeasOffsetLo, .tmuMeasOffsetHi, .tmuMeasDelayLo, .tmuMeasDelayHi, .tmuMeasSeq, .tmuMeasCount, .tmuMeasDropped,
   .tmuDomainCtrl, .tmuCalTx, .tmuCalRx, .tmuCalAsym]

/-- The registers of block EVR. -/
def Reg.ofEvr : List Reg :=
  [.evrInfo, .evrCtrl, .evrStatus, .evrHeadSeq, .evrNextSeq, .evrReadSeq, .evrOverwritten, .evrRepeatWindow,
   .evrPowerCycles, .evrOpMsLo, .evrOpMsHi, .evrFolded, .evrWilostSel, .evrWilostUsed, .evrWilostOverwritten,
   .evrIntStatus, .evrIntEnable, .evrRecord, .evrWilost]

/-- The registers of block SEC. -/
def Reg.ofSec : List Reg :=
  [.secInfo, .secCtrl, .secStatus, .secIdIndexLo, .secIdIndexHi, .secReservedEndLo, .secReservedEndHi, .secClearSeq,
   .secSvnMin, .secSignatures, .secVerifyFailures, .secTagFailures, .secReserveBlock, .secIntStatus, .secIntEnable,
   .secMeas, .secIdPubkey, .secKeyHash]

/-- The registers of block PWR. -/
def Reg.ofPwr : List Reg :=
  [.pwrInfo, .pwrCtrl, .pwrStatus, .pwrReset, .pwrDomainOnLo, .pwrDomainOnHi, .pwrDomainReqLo, .pwrDomainReqHi,
   .pwrDomainRefused, .pwrStartCount, .pwrStartFails, .pwrStartTime, .pwrResetIgnored, .pwrCalSaves,
   .pwrFuseFailures, .pwrHbmRate, .pwrCalCtrl, .pwrFuseAuth, .pwrFuseCtrl, .pwrDisc, .pwrTherm, .pwrIntStatus,
   .pwrIntEnable, .pwrFloor]

/-- The registers of block SBB. -/
def Reg.ofSbb : List Reg :=
  [.sbbInfo, .sbbPresence, .sbbFramesTx, .sbbFramesRx, .sbbCrcErrors, .sbbUnknown, .sbbArbLost, .sbbAborts,
   .sbbStuck, .sbbIntStatus, .sbbIntEnable]

/-- The registers of block DBG. -/
def Reg.ofDbg : List Reg :=
  [.dbgInfo, .dbgStatus, .dbgFacilitiesLo, .dbgFacilitiesHi, .dbgTraceBytesLo, .dbgTraceBytesHi, .dbgTraceDropped,
   .dbgIntStatus, .dbgIntEnable]

/-- The registers of block HST. -/
def Reg.ofHst : List Reg :=
  [.hstInfo, .hstCtrl, .hstStatus, .hstCqBaseLo, .hstCqBaseHi, .hstCqEntries, .hstCqHead, .hstCqTail, .hstCqLost,
   .hstBdrReturn, .hstIdFloorLo, .hstIdFloorHi, .hstJournalSeqLo, .hstJournalSeqHi, .hstCmdsAccepted,
   .hstCmdsRefused, .hstCmdsRepeated, .hstSlotViolations, .hstWindowViolations, .hstPoisonedRx, .hstWindowsLo,
   .hstWindowsHi, .hstIntStatus, .hstIntEnable]

/-- The registers of block BRX. -/
def Reg.ofBrx : List Reg :=
  [.brxInfo, .brxCtrl, .brxStatus, .brxTags, .brxSite, .brxWdog, .brxStreamPkts, .brxDupDiscards, .brxTagDiscards,
   .brxGenDiscards, .brxSeqErrors, .brxFabricDiscards, .brxGradPkts, .brxSamplesSelected, .brxSamplesDropped,
   .brxTapsSent, .brxMarkersInjected, .brxMarkersRelayed, .brxMarkersForeign, .brxLeaseRefused, .brxCursorRefused,
   .brxResets, .brxHangs, .brxRouteSwaps, .brxFreezeLost, .brxFabricLifetime, .brxJobId, .brxHangMask, .brxIntStatus,
   .brxIntEnable, .brxCursorLo, .brxCursorHi, .brxCap, .brxFreeze]

/-- The registers of a block. -/
def Reg.ofBlk : Blk → List Reg
  | .cap => Reg.ofCap
  | .str => Reg.ofStr
  | .upd => Reg.ofUpd
  | .stm => Reg.ofStm
  | .asy => Reg.ofAsy
  | .spk => Reg.ofSpk
  | .tor => Reg.ofTor
  | .pair => Reg.ofPair
  | .tmu => Reg.ofTmu
  | .evr => Reg.ofEvr
  | .sec => Reg.ofSec
  | .pwr => Reg.ofPwr
  | .sbb => Reg.ofSbb
  | .dbg => Reg.ofDbg
  | .hst => Reg.ofHst
  | .brx => Reg.ofBrx

/-- The _HI register of the pair that a _LO register begins (R11). -/
def Reg.hi? : Reg → Option Reg
  | .capSerialLo => some .capSerialHi
  | .strJobCommittedLo => some .strJobCommittedHi
  | .strJobAssayedLo => some .strJobAssayedHi
  | .strJobPinnedLo => some .strJobPinnedHi
  | .asyCleanThroughLo => some .asyCleanThroughHi
  | .asyFindingStepLo => some .asyFindingStepHi
  | .pairRejoinBytesLo => some .pairRejoinBytesHi
  | .tmuSnapSLo => some .tmuSnapSHi
  | .tmuStepLo => some .tmuStepHi
  | .tmuSetSLo => some .tmuSetSHi
  | .tmuMeasOffsetLo => some .tmuMeasOffsetHi
  | .tmuMeasDelayLo => some .tmuMeasDelayHi
  | .evrOpMsLo => some .evrOpMsHi
  | .secIdIndexLo => some .secIdIndexHi
  | .secReservedEndLo => some .secReservedEndHi
  | .pwrDomainOnLo => some .pwrDomainOnHi
  | .pwrDomainReqLo => some .pwrDomainReqHi
  | .dbgFacilitiesLo => some .dbgFacilitiesHi
  | .dbgTraceBytesLo => some .dbgTraceBytesHi
  | .hstCqBaseLo => some .hstCqBaseHi
  | .hstIdFloorLo => some .hstIdFloorHi
  | .hstJournalSeqLo => some .hstJournalSeqHi
  | .hstWindowsLo => some .hstWindowsHi
  | .brxCursorLo => some .brxCursorHi
  | .stmArbForecastLo => some .stmArbForecastHi
  | _ => none

/-- The _LO register of the pair that a _HI register ends (R11). -/
def Reg.lo? : Reg → Option Reg
  | .capSerialHi => some .capSerialLo
  | .strJobCommittedHi => some .strJobCommittedLo
  | .strJobAssayedHi => some .strJobAssayedLo
  | .strJobPinnedHi => some .strJobPinnedLo
  | .stmArbForecastHi => some .stmArbForecastLo
  | .asyCleanThroughHi => some .asyCleanThroughLo
  | .asyFindingStepHi => some .asyFindingStepLo
  | .pairRejoinBytesHi => some .pairRejoinBytesLo
  | .tmuSnapSHi => some .tmuSnapSLo
  | .tmuStepHi => some .tmuStepLo
  | .tmuSetSHi => some .tmuSetSLo
  | .tmuMeasOffsetHi => some .tmuMeasOffsetLo
  | .tmuMeasDelayHi => some .tmuMeasDelayLo
  | .evrOpMsHi => some .evrOpMsLo
  | .secIdIndexHi => some .secIdIndexLo
  | .secReservedEndHi => some .secReservedEndLo
  | .pwrDomainOnHi => some .pwrDomainOnLo
  | .pwrDomainReqHi => some .pwrDomainReqLo
  | .dbgFacilitiesHi => some .dbgFacilitiesLo
  | .dbgTraceBytesHi => some .dbgTraceBytesLo
  | .hstCqBaseHi => some .hstCqBaseLo
  | .hstIdFloorHi => some .hstIdFloorLo
  | .hstJournalSeqHi => some .hstJournalSeqLo
  | .hstWindowsHi => some .hstWindowsLo
  | .brxCursorHi => some .brxCursorLo
  | _ => none

/-- A field mask in place. -/
def RegField.mask (f : RegField) : Nat := (2 ^ f.width - 1) * 2 ^ f.lo

/-- The bits of a register that have one access code. -/
def RegRow.maskOf (r : RegRow) (a : Access) : Nat :=
  (r.fields.filter fun f => f.access == a).foldl (fun m f => m + f.mask) 0

/-- The reset word that a row's fields give. -/
def RegRow.resetWord (r : RegRow) : Nat := r.fields.foldl (fun m f => m + f.reset * 2 ^ f.lo) 0

/-- The key of a register of an object in the register table. -/
def Reg.key (r : Reg) (obj : Nat) : Nat := r.ctorIdx * 65536 + obj

end Sys2Proof.Machine
end

