-- ==== Sys2Proof/Machine/Tbl.lean ====
section
/-! DEFINITION. A finite table from numbers to objects, held as a list of pairs with rising keys. An object that the
table does not list has its reset value, which every accessor of Machine/State.lean names. -/
namespace Sys2Proof.Machine

/-- A sparse table: the objects that have left their reset value. -/
abbrev Tbl (α : Type) := List (Nat × α)

/-- The object at key `k`, or `d` where none is listed. -/
def Tbl.get {α : Type} (t : Tbl α) (d : α) (k : Nat) : α :=
  match t with
  | [] => d
  | (k', v) :: r => if k' = k then v else Tbl.get r d k

/-- The table without key `k`. -/
def Tbl.erase {α : Type} (t : Tbl α) (k : Nat) : Tbl α :=
  t.filter fun p => !(p.1 == k)

/-- Insert in key order, before the first larger key. -/
def Tbl.insert {α : Type} (t : Tbl α) (k : Nat) (v : α) : Tbl α :=
  match t with
  | [] => [(k, v)]
  | (k', v') :: r => if k < k' then (k, v) :: (k', v') :: r else (k', v') :: Tbl.insert r k v

/-- The table with `v` at key `k`. -/
def Tbl.set {α : Type} (t : Tbl α) (k : Nat) (v : α) : Tbl α :=
  Tbl.insert (Tbl.erase t k) k v

/-- Whether key `k` is listed. -/
def Tbl.has {α : Type} (t : Tbl α) (k : Nat) : Bool :=
  t.any fun p => p.1 == k

/-- Change the object at key `k`. -/
def Tbl.modify {α : Type} (t : Tbl α) (d : α) (k : Nat) (f : α → α) : Tbl α :=
  Tbl.set t k (f (Tbl.get t d k))

/-- The objects listed. -/
def Tbl.vals {α : Type} (t : Tbl α) : List α := t.map Prod.snd

end Sys2Proof.Machine
end

