-- ==== Sys2Proof/Machine/StBruix.lean ====
section
/-! DEFINITION. The state of one Bruix block beside its registers and ports (08_bruix_block.md). -/
namespace Sys2Proof.Machine

/-- An open tag (R219, R223, R234, R235, R241). -/
structure BrxTag where
  step : W64
  /-- Sequence numbers received without a gap: rt + 1, so 0 stands for the rt of 0xFFFF_FFFF (R219). -/
  got : Nat
  /-- Bit i: sequence number got + i has arrived (R219). -/
  bitmap : BitVec 1024
  /-- Draw count of each stream (R234). -/
  draws : Tbl Nat
  /-- Opening snapshot of the cursors, once taken (R235). -/
  snapshot : Option (List W64)
  /-- STEP_DONE has been signalled (R241). -/
  done : Bool
  /-- Cursors at STEP_DONE (R235). -/
  doneCursors : List W64
  /-- The STEP_REPORT has been sent (R241). -/
  reported : Bool
  /-- Next gradient sequence number (R236). -/
  gradSeq : Nat
  /-- Next SAMPLE record number (R261). -/
  sampleSeq : Nat
  selected : Nat
  sent : Nat
  dropped : Nat
  unsampled : Nat
  gradPkts : Nat
  taps : Nat
  /-- The directive in force, once fixed, and whether it is stale (R178). -/
  directive : Option (List Byte × Bool)
  /-- Count, mean and s2 of the signature of each layer so far, in binary64 (R117, R192). -/
  sigs : Tbl (Nat × Nat × Nat)
  deriving DecidableEq, Repr

/-- A tag when it opens (R223). -/
def BrxTag.opened (step : W64) (snapshot : Option (List W64)) : BrxTag where
  step := step
  got := 0
  bitmap := 0
  draws := []
  snapshot := snapshot
  done := false
  doneCursors := []
  reported := false
  gradSeq := 0
  sampleSeq := 0
  selected := 0
  sent := 0
  dropped := 0
  unsampled := 0
  gradPkts := 0
  taps := 0
  directive := none
  sigs := []

/-- An entry in the stream window ring (R221). -/
structure BrxEntry where
  step : W64
  index : W32
  offset : Nat
  bytes : Nat
  accepted : Nat
  announced : Bool
  deriving DecidableEq, Repr

/-- A TAG_CLOSE or a closure without one that awaits steps 6 and 7 of R225. -/
structure BrxClose where
  /-- Steps closed, older first. -/
  steps : List W64
  /-- BRX_ABORT_DONE still awaited at the older and the newer position. -/
  waitOlder : Bool
  waitNewer : Bool
  /-- BRX.FABRIC_LIFETIME has elapsed since step 1 (R226). -/
  lifetime : Bool
  /-- Ports and idents of the TAG_CLOSE copies to acknowledge: none for an alarm or a hang. -/
  acks : List (Fin 2 × W64)
  deriving DecidableEq, Repr

/-- A RESET_DOMAIN in progress (R228). -/
structure BrxReset where
  mask : W16
  released : Bool
  ready : W16
  ident : W64
  acks : List (Fin 2)
  deriving DecidableEq, Repr

/-- An open checksum tap (R188, R238). -/
structure BrxTap where
  desc : TapData
  aRows : Nat
  cRows : Nat
  sa : List Nat
  ta : List Nat
  sc : List Nat
  uc : List Nat
  deriving DecidableEq, Repr

/-- A selected tile whose capture is awaited (R239, R240). -/
structure BrxCapture where
  desc : TileDesc
  tempBin : Fin 8
  stale : Bool
  bRef : Bool
  deriving DecidableEq, Repr

/-- A gradient slice accepted from the queue and what of it has been sent (R236, R237). -/
structure BrxSlice where
  desc : GradSlice
  sentElems : Nat
  lastSeq : Nat
  deriving DecidableEq, Repr

/-- A freeze frame (R242). -/
structure BrxFreeze where
  gen : Byte
  time : Nat
  ident : W64
  port : Fin 2
  forHang : Bool
  data : List Byte
  deriving DecidableEq, Repr

/-- The Bruix block. -/
structure Brx where
  /-- Admitted job, 0 for none. -/
  job : W32
  seed : W32
  logical : W16
  /-- Physical site ID from the straps (R248). -/
  physical : W16
  /-- Its place in the tray, from the position straps, which gives its sideband address (R493). -/
  place : Fin 8
  revision : Fin 4
  gradFmt : Fin 32
  older : Option BrxTag
  newer : Option BrxTag
  /-- The tag retired last by TAG_COMMIT (R223). -/
  retired : Option W64
  /-- Tags held back after ABORT_INCOMPLETE (R225). -/
  heldBack : List Byte
  closing : List BrxClose
  /-- A LEAVE that waits for the closing (R218). -/
  leaveWait : List (Fin 2 × W64)
  ring : List BrxEntry
  ringNext : Nat
  /-- Outbound items held while both ports are down (R220). -/
  outbound : List (Fin 4 × Packet)
  gen : Byte
  reset : Option BrxReset
  /-- BRX_PROGRESS pulses counted on each watchdog since it was last armed (R217). -/
  pulses : List Nat
  expired : BitVec 16
  hang : Bool
  hangMask : BitVec 16
  abortSeq : W16
  /-- The last 32 (origin, abort_seq) pairs (R232). -/
  markersSeen : List (W16 × W16)
  cursors : List W64
  /-- Waiting advances: tag, feed, index (R235). -/
  cursorQueue : List (Byte × Nat × W64)
  taps : List BrxTap
  captures : List BrxCapture
  slices : List BrxSlice
  /-- Directives kept, newest first: step and the 64 bytes (R178). -/
  directives : List (W64 × List Byte)
  seqErrSince : Nat
  /-- A trigger whose points are being collected, and the frame held (R242). -/
  freezing : Option BrxFreeze
  freezeHeld : Option BrxFreeze
  bank0 : Tbl W64
  bank1 : Tbl W64
  activeBank : Bool
  /-- A swap pending for a tag, a swap that the next ROUTE_SWAP makes, and the ROUTE_COMMIT to acknowledge (R243). -/
  swapTag : Option Byte
  swapNow : Bool
  swapAcks : List (Fin 2 × W64)
  /-- A TAG_OPEN that waits for the swap (R223). -/
  openWait : List (Fin 2 × W64)
  /-- The last 32 command IDs with their message types and recorded status and result (R215). -/
  cmds : List (W64 × Nat × Byte × W32)
  /-- The temperature on BRX_TEMP, degrees Celsius (R210). -/
  temp : Int
  /-- Powered time at BRX_POR_N, from which its ticks of 100 µs count (R490). -/
  porAt : Nat
  deriving DecidableEq, Repr

/-- The Bruix block after BRX_POR_N, at the site and revision that its straps and build give (R227). -/
def Brx.por (physical : W16) (place : Fin 8) (revision : Fin 4) (now : Nat := 0) : Brx where
  job := 0
  seed := 0
  logical := 0
  physical := physical
  place := place
  revision := revision
  gradFmt := 0
  older := none
  newer := none
  retired := none
  heldBack := []
  closing := []
  leaveWait := []
  ring := []
  ringNext := 0
  outbound := []
  gen := 0
  reset := none
  pulses := List.replicate 16 0
  expired := 0
  hang := false
  hangMask := 0
  abortSeq := 0
  markersSeen := []
  cursors := List.replicate 4 (BitVec.allOnes 64)
  cursorQueue := []
  taps := []
  captures := []
  slices := []
  directives := []
  seqErrSince := 0
  freezing := none
  freezeHeld := none
  bank0 := []
  bank1 := []
  activeBank := false
  swapTag := none
  swapNow := false
  swapAcks := []
  openWait := []
  cmds := []
  temp := 0
  porAt := now

end Sys2Proof.Machine
end

