-- ==== Sys2Proof/Machine/StStore.lean ====
section
/-! DEFINITION. The state store of one job slot: strata, silt, the record chain; the system area in its two copies
(03_state_store.md). -/
namespace Sys2Proof.Machine

/-- A stratum (R68 to R70, R73): page map, scalar block, leaf digests and root. -/
structure Stratum where
  step : W64
  /-- Frame of each logical page. -/
  map : Tbl Nat
  poisoned : List Nat
  scalars : Tbl W64
  leaf : Tbl Digest
  root : Digest
  /-- The place of its map in the job's map area (R74, R75; log entry 18). -/
  area : Nat
  deriving DecidableEq, Repr

/-- The stratum of a job that holds no state yet. -/
def Stratum.empty : Stratum := ⟨0, [], [], [], [], 0, 0⟩

/-- A silt entry (R78). -/
structure SiltEntry where
  step : W64
  closed : Bool
  mirrored : Bool
  damaged : Bool
  clipRerun : Bool
  skip : Bool
  clipFactor : W32
  lossScaleIn : W32
  params : List Byte
  /-- Frame of each payload page. -/
  pages : Tbl Nat
  payloadRoot : Digest
  prevEntry : Digest
  rootIn : Digest
  tag : Digest
  /-- Payload pages whose frames returned an uncorrectable error (R84); empty beside `damaged` where the header's tag failed (R453). -/
  bad : List Nat
  deriving DecidableEq, Repr

/-- The strata of a job (R70, R75). -/
structure Strata where
  working : Option Stratum
  committed : Stratum
  assayed : Stratum
  /-- Oldest first. -/
  retained : List Stratum
  pin : Option Stratum
  /-- A PIN copy in progress (R77). -/
  pinCopy : Option Stratum
  /-- False until the first step of the job, or a restore or fill, has given it state. -/
  held : Bool
  flipSeq : W64
  deriving DecidableEq, Repr

/-- Strata of a job that holds no state. -/
def Strata.empty : Strata := ⟨none, Stratum.empty, Stratum.empty, [], none, none, false, 0⟩

/-- A read reference (R72): the frames it keeps, and who holds it. -/
structure ReadRef where
  holder : Nat
  frames : List Nat
  deriving DecidableEq, Repr

/-- The strata table entry of a job slot (R61, R75): its selector, flip_seq above the number of the active slot, and its two slots of set
record bytes. -/
structure SetEntry where
  selector : W64
  slots : Tbl (List Byte)
  deriving DecidableEq, Repr

/-- One copy of the system area (R61, R62): layout version, controller ID, side and quota table of the header; strata table; journal, by the
position of an entry. The warm-start marker of both headers is PwrSt.marker. -/
structure SysCopy where
  version : Nat
  controller : W16
  side : Bool
  quota : Tbl Nat
  strata : Tbl SetEntry
  journal : Tbl (List Byte)
  deriving DecidableEq, Repr

/-- A copy that has not been initialised. -/
def SysCopy.blank : SysCopy := ⟨0, 0, false, [], [], []⟩

/-- Hop parity and HBM error bookkeeping (R83 to R87), beside the registers. -/
structure StoreSt where
  /-- Quota of each job slot, frames per stack (R63). -/
  quota : Tbl Nat
  /-- Replays of the transfer in hand on each hop class, and escalations within the last second. -/
  hopTries : Tbl Nat
  hopEsc : Tbl (List Nat)
  /-- The rate window of each hop class: its start, its replays, and whether it has been reported (R83). -/
  hopWin : Tbl (Nat × Nat × Bool)
  /-- Corrected and uncorrected errors of each stack within the last hour: times. -/
  ceTimes : Tbl (List Nat)
  ueTimes : Tbl (List Nat)
  /-- Stacks whose crossing of the hourly threshold has been reported (R87). -/
  ceWarned : BitVec 16
  failedStacks : BitVec 16
  hopFailed : Bool
  censusDone : Bool
  /-- A repair being fetched: job, kind, page, step (R85). -/
  repair : Option (W32 × Bool × Nat × W64 × Option W64)
  /-- Its copy has been asked for. -/
  repairAsked : Bool
  refs : List ReadRef
  /-- The copies of the system area: copy 0 on stack 0, copy 1 on stack 8 (R61, R62). -/
  sys0 : SysCopy
  sys1 : SysCopy
  deriving DecidableEq, Repr

/-- The state store after a cold start. -/
def StoreSt.init : StoreSt where
  quota := []
  hopTries := []
  hopEsc := []
  hopWin := []
  ceTimes := []
  ueTimes := []
  ceWarned := 0
  failedStacks := 0
  hopFailed := false
  censusDone := false
  repair := none
  repairAsked := false
  refs := []
  sys0 := SysCopy.blank
  sys1 := SysCopy.blank

end Sys2Proof.Machine
end

