-- ==== Sys2Proof/Machine/StJob.lean ====
section
/-! DEFINITION. The state of a job on one side: descriptor, states, open steps, start, recovery, bedrock
(02_resilient_step.md, 10_torus_control_plane.md to 13_bedrock.md). -/
namespace Sys2Proof.Machine

/-- The states of a job (R329) with those of a start (R312, R314). -/
inductive JobPhase where
  | staged | preparing | prepared | running | held | recovering | tearingDown | inDoubt
  deriving DecidableEq, Repr

/-- The states of a step (R55). -/
inductive StepPhase where
  | speculative | open | confirming
  deriving DecidableEq, Repr

/-- An item of a collective (R302). -/
inductive CollItem where
  | slot (n : Byte) (ssq : W64) (bad : W64) (cnt : W64) (mean : W64) (s2 : W64)
  | or (v : W64)
  | and (v : W64)
  | min (v : W64)
  | root (r : Digest) (mismatch : W32)
  deriving DecidableEq, Repr

/-- The operations of a collective (R302). -/
inductive CollOp where
  | scalar | roots | vote | advance | layerSlots | barrier
  deriving DecidableEq, Repr

/-- What names an instance of a collective (R302, R303). -/
structure CollKey where
  job : W32
  op : CollOp
  ident : W64
  layer : W16
  phase : Byte
  deriving DecidableEq, Repr

/-- An instance of a collective on this side (R301, R359). -/
structure Coll where
  key : CollKey
  /-- Peloton slot and generation. -/
  slot : Nat
  gen : W16
  /-- This side's own items, its partner's, and the partner's acknowledgement of the own items. -/
  own : Option (List CollItem)
  partner : Option (List CollItem)
  acked : Bool
  /-- Items of each child that has sent UP, by plane index. -/
  ups : Tbl (List CollItem)
  contributed : Bool
  result : Option (List CollItem)
  /-- The result has been applied on this side. -/
  applied : Bool
  deriving DecidableEq, Repr

/-- The commit sequence of a step (R39): how far it has come. -/
inductive CommitStage where
  /-- No yes vote has returned. -/
  | none
  /-- Buddy pages or the escrow item await their landing (R309, R336). -/
  | copies
  /-- The commit waits for the assayed stratum (R70) or a PIN copy (R77). -/
  | lag
  /-- The record is written; the partner's acknowledgement is awaited. -/
  | exchange
  deriving DecidableEq, Repr

/-- A reduction slot: 128 lane states of sum of squares, count of non-finite values, and Welford n, mean, s2 (R134). -/
structure RedSlot where
  ssq : Tbl Nat
  bad : Tbl Nat
  wel : Tbl (Nat × Nat × Nat)
  deriving DecidableEq, Repr

/-- An empty slot. -/
def RedSlot.empty : RedSlot := ⟨[], [], []⟩

/-- A step that is open on this side (R47), or held in IN_VOTE (R334). -/
structure OpenStep where
  step : W64
  phase : StepPhase
  retries : Nat
  clipRerun : Bool
  skip : Bool
  replay : Bool
  clipFactor : W32
  lossScaleIn : W32
  /-- The loss-scale flag of R44 on this controller. -/
  lossFlag : Bool
  /-- Link integrity, ABFT, scalar and replica checks that have failed (R36). -/
  linkFail : Bool
  abftFail : Bool
  scalarFail : Bool
  replicaFail : Bool
  /-- A SLOT or ROOT contribution differed between the sides (R359). -/
  pairDiffer : Bool
  kernelFault : Bool
  /-- A contribution was missing at the confirm timeout (R35); a SCALAR or LAYER_SLOTS reduction did not complete (R36, R303). -/
  missing : Bool
  scalarLate : Bool
  /-- Checksum tap results checked, and the matmuls reported by each site. -/
  abftChecked : Nat
  /-- Result of the scalar all-reduce: sum of squares, non-finite count, flag. -/
  scalar : Option (W64 × W64 × Bool)
  ownRoot : Option Digest
  partnerRoot : Option Digest
  replicaDone : Bool
  /-- The root that the replica compare returned (R303). -/
  replicaRoot : Option Digest
  voted : Option Bool
  voteBack : Bool
  commit : CommitStage
  /-- The wait for the assayed stratum has been reported (R70). -/
  lagTold : Bool
  /-- clean_through that the vote returned (R196). -/
  advanceTo : W64
  /-- Landing acknowledgements awaited before the record is written: transfer identifiers (R309, R336). -/
  landings : List W64
  escrowMissing : Bool
  record : Option (List Byte)
  partnerRecord : Option (List Byte)
  recordAcked : Bool
  /-- STEP_REPORT body of each site (R241). -/
  reports : Tbl (List Byte)
  /-- Layers whose update has ended: readable for the next step (R153). -/
  ready : List Nat
  /-- Layers, in the order in which their tiles closed, still to be dispatched. -/
  closedLayers : List Nat
  /-- Slot 0 of each slice as the layers updated so far have left it (R134). -/
  slot0 : Tbl RedSlot
  silt : Option SiltEntry
  confirmTime : List Byte
  deriving DecidableEq, Repr

/-- A rollback whose acknowledgements are awaited (R51). -/
structure GateWait where
  steps : List W64
  sites : BitVec 8
  partner : Bool
  deriving DecidableEq, Repr

/-- What a job does once its rollback has been acknowledged, or at its next commit boundary (R41, R54). -/
inductive AfterGate where
  | recompute | hold (reasons : W32) | restream | nothing
  deriving DecidableEq, Repr

/-- A start on one member (R311 to R314). -/
structure StartRun where
  cmd : W64
  firstStep : W64
  gen : W16
  digest : Digest
  /-- Own checks: none while pending; 0 passed, otherwise the reason (R311). -/
  own : Option Nat
  /-- Sites whose ADMIT is acknowledged, and whether one was refused. -/
  admitted : BitVec 8
  admitBad : Bool
  /-- Waiting for a tearing-down job's resources (R316). -/
  waiting : Bool
  /-- Counts of the children that answered READY, by plane index. -/
  ready : Tbl Nat
  /-- READY or REFUSE has been sent up, or at a root recorded. -/
  answered : Bool
  /-- The other plane's answer at the deciding side: reason 0 for READY, and the refusing member. -/
  plane : Option (Nat × Nat)
  /-- The first refusal: reason and member. -/
  refusal : Option (Nat × Nat)
  decision : Option Bool
  startTime : List Byte
  /-- Streaming waits for start_time (R313). -/
  timeWait : Bool
  /-- COMMITTED counts last received from the children. -/
  committed : Tbl Nat
  reported : Bool
  queries : Nat
  unanswered : Nat
  /-- The partner has passed its QUERY to this side (R371). -/
  passQuery : Bool
  deriving DecidableEq, Repr

/-- An item of a fill: the step of its silt entry, its transfer identifier, and its bytes (R343, R344). -/
structure FillItem where
  entry : W64
  id : W64
  bytes : List Byte
  deriving DecidableEq, Repr

/-- The recovery of a job (R329, R331). -/
structure RecoverySt where
  /-- hold_reasons, last_outcome, failed_site, failed_position (R331 to R333). -/
  reasons : W32
  outcome : Byte
  failedSite : W16
  failedPosition : W16
  command : W64
  /-- Opcode of the command running; 0 for none. -/
  running : W16
  /-- JOB_RESUME: the step of R338 reached, c_max, sites whose TAG_OPEN is acknowledged, and what has failed here. -/
  phase : Nat
  cMax : W64
  opened : BitVec 8
  bad : Nat
  /-- Fill (R342 to R346): sources, bytes verified and to be sent, items verified, the entry whose pages land. -/
  donor : Option W16
  escrowPeer : Option W16
  fillDone : W64
  fillTotal : W64
  items : List FillItem
  fillEntry : W64
  /-- At a source: destination, bytes sent, and the items still to be sent, the first of them under way. -/
  fillTo : W16
  fillSent : W64
  outItems : List FillItem
  /-- Route images staged (R349): bytes and digest of each site. -/
  routes : Tbl (List Byte × Digest)
  /-- JOB_ROLLBACK: recompute step and entries still to be replayed (R353). -/
  recompute : W64
  replaying : List W64
  /-- When the rollback under way was applied, in ns of powered time (R32). -/
  rolledAt : Nat
  /-- The job was found at a restart: it resumes only after a fill (R464). -/
  needsFill : Bool
  deriving DecidableEq, Repr

/-- No recovery yet. -/
def RecoverySt.init : RecoverySt where
  reasons := 0
  outcome := 0
  failedSite := 0xFFFF
  failedPosition := 0xFFFF
  command := 0
  running := 0
  phase := 0
  cMax := 0
  opened := 0
  bad := 0
  donor := none
  escrowPeer := none
  fillDone := 0
  fillTotal := 0
  items := []
  fillEntry := 0
  fillTo := 0
  fillSent := 0
  outItems := []
  routes := []
  recompute := 0
  replaying := []
  rolledAt := 0
  needsFill := false

/-- The bedrock of a job (R383 to R392) on this side. -/
structure Bedrock where
  id : W64
  /-- The command that it completes; 0 for none. -/
  cmd : W64
  /-- This controller is at the root's position. -/
  root : Bool
  boundary : W64
  /-- Pinned step, once pinned. -/
  step : Option W64
  dedup : List Byte
  timeoutS : Nat
  /-- The chunks have been listed, with those of a failed partner; those still to be written: kind and index. -/
  listed : Bool
  both : Bool
  chunks : List (Nat × Nat)
  /-- The member object (R380). -/
  member : List Byte
  /-- Slots written and not yet returned. -/
  busy : List Nat
  ownDone : Bool
  /-- Member reports at the root. -/
  reports : List (List Byte)
  /-- The manifest awaits its signature, or carries it. -/
  manifest : Option (List Byte)
  signed : Bool
  deriving DecidableEq, Repr

/-- The auto-bedrock arm (R384). -/
structure BedArm where
  idBase : W64
  timeoutS : Nat
  minInterval : Nat
  count : Nat
  dedup : List Byte
  deriving DecidableEq, Repr

/-- A restore on this side (R393 to R395). -/
structure Restore where
  cmd : W64
  root : Bool
  timeoutS : Nat
  /-- Manifests still to be tried, the number of the one under way, and the codes and members of those that failed. -/
  candidates : List (List Byte)
  number : Nat
  codes : List (Nat × Nat)
  manifest : List Byte
  /-- Chunks still to be asked for: kind and index; those asked for and not yet returned: slot, kind, index. -/
  todo : List (Nat × Nat)
  asked : List (Nat × Nat × Nat)
  /-- Chunks of the map object and of the member object read: kind, index, payload. -/
  got : List (Nat × Nat × List Byte)
  /-- The stratum read so far. -/
  loaded : Option Stratum
  failed : Option Nat
  entered : Bool
  deriving DecidableEq, Repr

/-- The buddy shadow that this side holds for its buddy (R307 to R310). -/
structure Buddy where
  shadow : Option Stratum
  /-- Mirrored silt entries, oldest first. -/
  mirrored : List SiltEntry
  invalid : Bool
  /-- The entry being applied, as a step of the shadow, and what its replay has written (R310). -/
  replay : Option OpenStep
  work : Option Stratum
  /-- Items of a seed that have landed, by transfer identifier. -/
  seed : List (W64 × List Byte)
  deriving DecidableEq, Repr

/-- A peloton table in its slot (R298). -/
structure PelTable where
  job : W32
  gen : W16
  kind : Nat
  members : List W16
  deriving DecidableEq, Repr

/-- A job on this side. -/
structure Job where
  id : W32
  slot : Nat
  phase : JobPhase
  /-- Staged descriptor and layer schedule table, as bytes (R149, R150, R414). -/
  desc : List Byte
  sched : List Byte
  /-- A new table, its mode, boundary and command (R163, R365); the step from which a deferred table holds. -/
  newSched : Option (List Byte × Bool × W64 × W64)
  deferred : Option (List Byte × W64 × W64)
  params : List Byte
  /-- New kernel_params, boundary and command. -/
  newParams : Option (List Byte × W64 × W64)
  /-- A commanded rollback that waits for its boundary: target, recompute, boundary and command (R353). -/
  newRollback : Option (W64 × W64 × W64 × W64)
  strata : Strata
  /-- Closed silt entries, oldest first. -/
  silt : List SiltEntry
  /-- Digests of the headers of closed entries from the assayed step on, which outlive the entries (R78). -/
  siltDigests : List (W64 × Digest)
  /-- Index, on every stack, of the first of the frames allocated whole at job start (R64, R74; log entry 18). -/
  base : Nat
  /-- Step records of this side, oldest first (R57). -/
  chain : List (List Byte)
  /-- The partner's records of the steps from the assayed step on (R39, R380). -/
  partnerChain : List (List Byte)
  /-- STEP_REPORT bodies by step (R381), and of committed tables. -/
  tables : List (W64 × Tbl (List Byte))
  /-- Open steps, older first. -/
  open_ : List OpenStep
  inVote : Option OpenStep
  gates : List GateWait
  after : AfterGate
  /-- Gradient packets held under R49: site and packet, in arrival order. -/
  hold : List (Nat × Packet)
  /-- The hold area is full: gradient credits of the next step's tag are withheld until the step commits (R49). -/
  holdFull : Bool
  /-- Skip steps and clip reruns committed (R45). -/
  skips : Nat
  clips : Nat
  /-- Retries made of the step that failed last: step and count (R41). -/
  retried : W64 × Nat
  start : Option StartRun
  recov : RecoverySt
  bed : Option Bedrock
  arm : Option BedArm
  /-- Time at which the last bedrock of the job began (R384). -/
  bedAt : Option Nat
  restore : Option Restore
  buddy : Buddy
  /-- Job-wide results of job-scope slots by step, layer and phase, up to the assayed step (R134, R310). -/
  slotsBack : List (W64 × W16 × Byte × List CollItem)
  /-- Tables that replace the job's peloton tables: slot, table, boundary and command (R299, R365). -/
  newPel : List (Nat × PelTable × W64 × W64)
  /-- Escrow items held for the escrowing member, by step (R336). -/
  escrow : Tbl (List Byte)
  escrowMissing : Bool
  /-- Sites admitted to the job (R218). -/
  admittedSites : BitVec 8
  teardownCmd : Option W64
  /-- Counts of GONE from the children. -/
  gone : Tbl Nat
  overQuota : Bool
  allocStall : Bool
  /-- The streaming cadence (R55). -/
  streaming : W64
  /-- The last step for which directives have been built or received, and the directive of each site (R178, R194, R376). -/
  directed : W64
  directive : Tbl (List Byte)
  deriving DecidableEq, Repr

end Sys2Proof.Machine
end

