-- ==== Sys2Proof/Machine/StData.lean ====
section
/-! DEFINITION. The data path beside its registers: accumulator tiles, update slices, site engines and stream buffers,
arbiters and the assay engine (04_update_arithmetic.md to 07_assay.md). -/
namespace Sys2Proof.Machine

/-- The state of an accumulator tile (R109). -/
inductive TileState where
  | free | kernel | accum | closed
  deriving DecidableEq, Repr

/-- One accumulator tile (R108 to R113): its holder and its 32-bit elements. They are binary32, but INT32 images of each block's exponent
while a tile in block-scaled mode takes site contributions. -/
structure Tile where
  state : TileState
  job : W32
  step : W64
  layer : Nat
  /-- First plane-0 element of the tile. -/
  first : Nat
  elems : Tbl W32
  /-- The next contributor: number of contributions added (R33). -/
  added : Nat
  /-- Block-scaled mode: the exponent array, the repeats that each block has taken, and the blocks that have become NaN (R108, R111, R113). -/
  exps : Tbl (BitVec 16)
  repeats : Tbl Nat
  nans : List Nat
  deriving DecidableEq, Repr

/-- A FREE tile. -/
def Tile.free : Tile := ⟨.free, 0, 0, 0, 0, [], 0, [], [], []⟩

/-- A contribution element group waiting in staging SRAM: site or replica, step, layer, first element, format, scales and
elements. -/
structure Staged where
  job : W32
  step : W64
  site : Nat
  layer : Nat
  first : Nat
  fmt : Nat
  scales : List Byte
  elems : List Nat
  deriving DecidableEq, Repr

/-- A gradient stream of a site in a step: packets received and the markers (R35). -/
structure GradIn where
  job : W32
  step : W64
  site : Nat
  /-- Sequence numbers received. -/
  seqs : List Nat
  /-- Markers whose packets have not all arrived: last_seq, first element, count, layer. -/
  markers : List (Nat × Nat × Nat × Nat)
  /-- Complete ranges: layer, first element, count. -/
  done : List (Nat × Nat × Nat)
  deriving DecidableEq, Repr

/-- The accumulators. -/
structure AccSt where
  tiles : Tbl Tile
  staged : List Staged
  grads : List GradIn
  /-- The spokes from which each slice withholds gradient credits, for want of staging space (R35). -/
  withheld : Tbl (BitVec 8)
  deriving DecidableEq, Repr

/-- A loop on the loop stack: first and last index, times left. -/
structure LoopRec where
  first : Nat
  last : Nat
  left : Nat
  deriving DecidableEq, Repr

/-- What a slice runs: job, step, layer, phase, prologue or the span of a group. -/
structure Invocation where
  job : W32
  step : W64
  layer : Nat
  phase : Nat
  prologue : Bool
  group : Nat
  /-- First vector of the span within the group, and vectors. -/
  firstVec : Nat
  vecs : Nat
  deriving DecidableEq, Repr

/-- One update slice (R122). -/
structure Slice where
  v : Tbl (BitVec 16384)
  m : Tbl (BitVec 1024)
  s : Tbl W64
  pc : Nat
  cycles : Nat
  loops : List LoopRec
  run : Option Invocation
  /-- Invocations still to run in this phase, and the phase's end reached. -/
  todo : List Invocation
  pos : Tbl Nat
  slots : Tbl RedSlot
  /-- Scratch tiles held (R135). -/
  scratch : List Nat
  /-- Poisoned data has reached the invocation (R142). -/
  poison : Bool
  /-- Pages written by the invocation. -/
  wrote : List Nat
  stopped : Bool
  /-- s8 to s31 as the phase's prologue left them (R139). -/
  left_ : Tbl W64
  /-- The vector and mask registers as the phase's prologue left them (R139). -/
  leftV : Tbl (BitVec 16384)
  leftM : Tbl (BitVec 1024)
  deriving DecidableEq, Repr

/-- A slice at rest. -/
def Slice.init : Slice := ⟨[], [], [], 0, 0, [], none, [], [], [], [], false, [], false, [], [], []⟩

/-- The dispatcher (R139): the layer being updated and its phase. -/
structure Dispatcher where
  job : W32
  step : W64
  layer : Nat
  phase : Nat
  /-- Kernel slot in use. -/
  kernel : Nat
  /-- 0 first run, 1 clip rerun, 2 replay, 3 replay on the buddy shadow (R310). -/
  mode : Nat
  /-- Merged slots of the phase before, one list of fields for each slot; none while the job-wide reduction runs (R134). -/
  merged : Tbl (List W64)
  waiting : Bool
  deriving DecidableEq, Repr

/-- Update slices and their dispatcher. -/
structure UpdSt where
  slices : Tbl Slice
  run : Option Dispatcher
  /-- The slice and code of the first fault of the layer (R141). -/
  faulted : Option (Nat × Nat)
  deriving DecidableEq, Repr

/-- A site engine in one step (R149, R160 to R162). -/
structure Engine where
  job : W32
  step : W64
  /-- Entry, unit and sequence number to enqueue next. -/
  entry : Nat
  unit : Nat
  seqNo : Nat
  begun : Bool
  /-- Entries charged to the window and not yet released, with entry_bytes. -/
  charged : List (Nat × Nat)
  /-- Entries released (R159). -/
  released : List Nat
  /-- TAG_OPEN acknowledged by the site. -/
  opened : Bool
  done : Bool
  /-- The entry to begin has been counted as waiting for its layer, and for window space. -/
  layerWait : Bool
  winWait : Bool
  deriving DecidableEq, Repr

/-- An arbiter (R164 to R169). -/
structure Arb where
  slot : Nat
  ready : BitVec 8
  masked : BitVec 8
  cut : BitVec 8
  use : List Nat
  normalGranted : Nat
  lastHigh : Nat
  lastNormal : Nat
  /-- Last forecasts plus 1, 0 where none (R174). -/
  forecast : List Nat
  /-- The requester granted last, whose transfer has not started, and whether the grant is a surplus grant. -/
  granted : Option (Nat × Bool)
  deriving DecidableEq, Repr

/-- An arbiter at reset. -/
def Arb.init : Arb := ⟨0, 0, 0, 0, List.replicate 8 0, 0, 7, 7, List.replicate 8 0, none⟩

/-- The stream scheduler and the arbiters. -/
structure StmSt where
  engines : Tbl (List Engine)
  /-- Stream buffer of each spoke: packets in order (R161). -/
  buffers : Tbl (List Packet)
  parked : BitVec 8
  arbs : Tbl Arb
  deriving DecidableEq, Repr

/-- A sample record queued (R180, R182). -/
structure Sample where
  spoke : Nat
  job : W32
  gen : Byte
  bytes : List Byte
  /-- Received before the gate of its tag closed on a rollback (R198). -/
  discarded : Bool
  /-- The stratum that its B comes from has been reverted since (R198). -/
  gone : Bool
  deriving DecidableEq, Repr

/-- A boost entry of the steering (R194). -/
structure Boost where
  job : W32
  site : Nat
  layer : Nat
  bins : Byte
  cls : Byte
  thresh : Nat
  since : W64
  deriving DecidableEq, Repr

/-- A verdict of this side or its partner: site, sample_seq, verdict (R197). -/
structure Verdict where
  job : W32
  step : W64
  site : Nat
  seqNo : Nat
  own : Option Nat
  partner : Option Nat
  /-- Wilost record of a mismatch on a step that has not committed (R177); empty for none. -/
  wil : List Byte
  deriving DecidableEq, Repr

/-- A matmul that a tap report of a site has named (R189). -/
structure TapKey where
  job : W32
  step : W64
  site : Nat
  layer : Nat
  pass : Nat
  matmul : Nat
  deriving DecidableEq, Repr

/-- A contribution signature of an open step, mean and s2 in binary64 (R192). -/
structure SigRec where
  job : W32
  step : W64
  site : Nat
  layer : Nat
  count : Nat
  mean : Nat
  s2 : Nat
  deriving DecidableEq, Repr

/-- The history of a job, layer and site: mean, variance, and steps seen (R193). -/
structure SigHist where
  job : W32
  site : Nat
  layer : Nat
  mean : Nat
  var : Nat
  seen : Nat
  deriving DecidableEq, Repr

/-- A root-mismatch descent (R191): the level of `nodes`, whose children are still to be compared, the leaf digests of the
working tree, and the other holder. -/
structure Descent where
  job : W32
  step : W64
  level : Nat
  nodes : List Nat
  leaves : List Digest
  holder : Nat
  deriving DecidableEq, Repr

/-- The assay engine. -/
structure AsySt where
  samples : List Sample
  taps : List Sample
  /-- Tap reports held until the job-wide non-finite count (R189). -/
  heldTaps : List Sample
  verdicts : List Verdict
  /-- Steps whose partner verdicts are complete, and steps whose last own verdicts have been sent (R197). -/
  partnerDone : List (W32 × W64)
  lastSent : List (W32 × W64)
  /-- Matmuls reported. -/
  reported : List TapKey
  sigs : List SigRec
  history : List SigHist
  boosts : List Boost
  /-- Finding step of each job; 0 for none (R200). -/
  findings : Tbl W64
  /-- Descents under way, one for each holder that they compare with. -/
  descents : List Descent
  /-- clean_through sent last, by job. -/
  clean : Tbl W64
  /-- Sample credits are withheld from every spoke for the sample queue (R182), and from the spokes of a set for the ABFT queue (R190). -/
  withheld : Bool
  abftHold : BitVec 8
  deriving DecidableEq, Repr

/-- The data path at rest. -/
def AccSt.init : AccSt := ⟨[], [], [], []⟩
def UpdSt.init : UpdSt := ⟨[], none, none⟩
def StmSt.init : StmSt := ⟨[], [], 0, []⟩
def AsySt.init : AsySt := ⟨[], [], [], [], [], [], [], [], [], [], [], [], [], false, 0⟩

end Sys2Proof.Machine
end

