-- ==== Sys2Proof/Machine/StTor.lean ====
section
/-! DEFINITION. The torus ports, the control plane and the pair beside their registers (10_torus_control_plane.md,
12_pair_operation.md). -/
namespace Sys2Proof.Machine

/-- What is known of the neighbour of a torus port (R289, R292). -/
structure Neigh where
  heard : Bool
  podId : W32
  physical : W16
  position : W16
  posValid : Bool
  port : Fin 8
  side : Bool
  /-- Neighbour state reported last (R293): 0 NONE to 4 FOREIGN. -/
  state : Nat
  helloSeq : W64
  alarmUp : Bool
  laserFault : Byte
  rxLow : Byte
  deriving DecidableEq, Repr

/-- A port that has heard nothing. -/
def Neigh.init : Neigh := ⟨false, 0, 0, 0, false, 0, false, 0, 0, false, 0, 0⟩

/-- An open landing at the receiver (R296). -/
structure Landing where
  id : W16
  gen : W32
  purpose : Nat
  src : W16
  job : W32
  transferId : W64
  length : W64
  tag : Option Byte
  /-- Bytes landed: offset and data. -/
  data : List (Nat × List Byte)
  /-- The landing came over the partner's plane (R362). -/
  assisted : Bool
  deriving DecidableEq, Repr

/-- A transfer at the sender (R296, R362). -/
structure Transfer where
  id : W64
  dest : W16
  purpose : Nat
  job : W32
  tag : Option Byte
  data : List Byte
  granted : Bool
  /-- Sent on this plane for the partner (R362). -/
  assist : Bool
  deriving DecidableEq, Repr

/-- An alarm triple held for 100 µs (R286). -/
structure Triple where
  origin : W16
  side : Bool
  seqNo : Byte
  deriving DecidableEq, Repr

/-- The torus. -/
structure TorSt where
  neigh : Tbl Neigh
  dimX : Nat
  dimY : Nat
  dimZ : Nat
  stable : Bool
  position : Option W16
  peloton : Tbl PelTable
  colls : List Coll
  landings : List Landing
  nextLanding : Nat
  landingGen : Nat
  transfers : List Transfer
  triples : List Triple
  alarmSeq : Byte
  deriving DecidableEq, Repr

/-- The torus after a cold start: dims of all ones until the start sets the own coordinates plus 1 (R290). -/
def TorSt.init : TorSt := ⟨[], 1, 1, 1, false, none, [], [], [], 1, 1, [], [], 0⟩

/-- The pair roles (R356), in the coding of PAIR.ROLE (R378). -/
inductive Role where
  | active | standby | sole | joining | withdrawn
  deriving DecidableEq, Repr

/-- The code of a role (R378). -/
def Role.code : Role → Nat
  | .active => 0 | .standby => 1 | .sole => 2 | .joining => 3 | .withdrawn => 4

/-- The role of a code. -/
def Role.ofCode : Nat → Role
  | 0 => .active | 1 => .standby | 2 => .sole | 3 => .joining | _ => .withdrawn

/-- A pair message that awaits its PAIR_ACK (R358). -/
structure PairSent where
  ty : Nat
  ident : W64
  job : W32
  body : List Byte
  /-- The site that a DIRECTIVE is for (log entry 48). -/
  site : Option Nat
  deriving DecidableEq, Repr

/-- The pair. -/
structure PairSt where
  role : Role
  /-- The role that the partner's last heartbeat carried. -/
  partnerRole : Role
  partnerFailed : Bool
  partnerHalting : Bool
  halting : Bool
  fenced : Bool
  sent : List PairSent
  /-- Types and identities of the messages applied, newest first (R358). -/
  applied : List (Nat × W64 × List Byte)
  /-- Whether a heartbeat has arrived on the pair link and on the sideband within the timeout. -/
  hbPair : Bool
  hbSide : Bool
  /-- Sites that still have to report the partner's port, and whether one reported it up (R369). -/
  polling : BitVec 8
  pollUp : Bool
  switching : Option W64
  /-- PAIR_REJOIN: command, and the step of R374 reached. -/
  rejoin : Option (W64 × Nat)
  /-- Join step of each job, and the last step whose silt entry has gone to the joining side, by job slot (R374). -/
  joinStep : Tbl W64
  joinSent : Tbl W64
  rejoinBytes : Nat
  /-- Boundaries received by APPLY: command ID and boundary (R365). -/
  applies : List (W64 × W64)
  /-- The journal_seq of the partner's next entry (R364). -/
  journalNext : Nat
  deriving DecidableEq, Repr

/-- The pair after a cold start on a side (R356). -/
def PairSt.init (sideB : Bool) : PairSt where
  role := if sideB then .standby else .active
  partnerRole := if sideB then .active else .standby
  partnerFailed := false
  partnerHalting := false
  halting := false
  fenced := false
  sent := []
  applied := []
  hbPair := false
  hbSide := false
  polling := 0
  pollUp := false
  switching := none
  rejoin := none
  joinStep := []
  joinSent := []
  rejoinBytes := 0
  applies := []
  journalNext := 0

end Sys2Proof.Machine
end

