-- ==== Sys2Proof/Machine/StHost.lean ====
section
/-! DEFINITION. The host interface beside its registers (14_host_interface.md): command slots, windows, the journal, the
completion ring, commands that continue after acceptance, bedrock slots. -/
namespace Sys2Proof.Machine

/-- A mapped bulk window (R413). -/
structure Window where
  /-- 1 SCRATCH, 2 STRATUM. -/
  kind : Nat
  job : W32
  /-- SCRATCH: its 128 frames. STRATUM: the frames of the pages shown, in order. -/
  frames : List Nat
  /-- Pages that read DEVICE. -/
  device : List Nat
  deriving DecidableEq, Repr

/-- A journal entry (R82). -/
structure JEntry where
  seqNo : Nat
  id : W64
  job : W32
  /-- 1 RECEIVED, 2 ACCEPTED, 3 DONE, 4 REFUSED. -/
  state : Nat
  partnerSeen : Bool
  packet : List Byte
  status : List Byte
  deriving DecidableEq, Repr

/-- A command that continues after acceptance (R408): what it waits for. -/
structure CmdRun where
  id : W64
  opcode : Nat
  job : W32
  /-- Header flags: bit 0 irq_on_done, bit 1 irq_on_reply. -/
  flags : Nat
  /-- The packet was taken from a slot of this side, so that its completion goes to this side's ring. -/
  own : Bool
  params : List Byte
  /-- Slot that awaits the partner's JOURNAL acknowledgement (R364 step 3), or none once accepted. -/
  slot : Option Nat
  /-- A result or a boundary kept for its completion. -/
  result : W64
  stage : Nat
  /-- Window references held DEVICE for it: window, first page, pages. -/
  pages : List (Nat × Nat × Nat)
  deriving DecidableEq, Repr

/-- A control message to a site that awaits its ACK or REG_DATA (R217): what asked for it. -/
structure SiteSent where
  site : Nat
  ty : Nat
  ident : W64
  job : W32
  body : List Byte
  /-- The command that completes with it; 0 for none. -/
  cmd : W64
  deriving DecidableEq, Repr

/-- Bedrock targets (R382). -/
structure KernelDue where
  slot : Nat
  /-- The image to place; none: the slot is unloaded. -/
  image : Option (List Byte)
  cmd : W64
  deriving DecidableEq, Repr

structure Targets where
  ringBase : W64
  slots : List (W64 × W64)
  /-- Entries written to the bedrock ring. -/
  written : Nat
  busy : List Nat
  deriving DecidableEq, Repr

/-- The host interface. -/
structure HostSt where
  /-- Bytes of each command slot, 256 zero bytes where none. -/
  slots : Tbl (List Byte)
  device : BitVec 256
  lastTaken : Nat
  windows : Tbl Window
  /-- Oldest first. -/
  journal : List JEntry
  nextSeq : Nat
  idFloor : W64
  cqQueue : List (List Byte × Bool)
  /-- The link has not settled below the rate and width of R397, and those it settled at: width and rate codes of R421. -/
  linkOk : Bool
  linkWidth : Nat
  linkRate : Nat
  busMaster : Bool
  /-- The words of the MSI-X table, four for each vector: address, address above, data, vector control (R417, log entry 36). -/
  msixTable : Tbl W32
  /-- The pending-bit array (R417). -/
  msixPending : BitVec 64
  runs : List CmdRun
  siteSent : List SiteSent
  /-- Identifiers that this side has given to commands of its own to sites (log entry 15). -/
  nextIdent : Nat
  /-- Capability table of each site as last received, and its generation (R212, R227). -/
  siteCap : Tbl (List Byte)
  siteGen : Tbl Byte
  targets : Option Targets
  /-- Kernel slots: image bytes without signature. Profile slots: the 64-byte descriptor. -/
  kernels : Tbl (List Byte)
  /-- Loads and unloads that wait until every job is between steps, oldest first (R138). -/
  kernelDue : List KernelDue
  profiles : Tbl (List Byte)
  deriving DecidableEq, Repr

/-- The host interface after a cold start. -/
def HostSt.init : HostSt where
  slots := []
  device := 0
  lastTaken := 255
  windows := []
  journal := []
  nextSeq := 0
  idFloor := 0
  cqQueue := []
  linkOk := true
  linkWidth := 0
  linkRate := 0
  busMaster := false
  msixTable := []
  msixPending := 0
  runs := []
  siteSent := []
  nextIdent := 1
  siteCap := []
  siteGen := []
  targets := none
  kernels := []
  kernelDue := []
  profiles := []

end Sys2Proof.Machine
end

