-- ==== Sys2Proof/Machine/StLink.lean ====
section
/-! DEFINITION. The state of one Miopra port (R253 to R270): a spoke, the pair link, a torus port (R279) or a port of
the Bruix block. -/
namespace Sys2Proof.Machine

/-- The states of a port (R257), in the coding of SPK.STATUS.state (R275). -/
inductive LinkState where
  | disabled | detect | equalise | align | param | active | down
  deriving DecidableEq, Repr

/-- The code of a port state in SPK.STATUS.state (R275). -/
def LinkState.code : LinkState → Nat
  | .disabled => 0 | .detect => 1 | .equalise => 2 | .align => 3 | .param => 4 | .active => 5 | .down => 6

/-- A flit with its link sequence number (R255, R256). -/
structure Flit where
  seq : BitVec 10
  vc : Fin 4
  sop : Bool
  eop : Bool
  data : BitVec 256
  deriving DecidableEq, Repr

/-- A packet in a transmit queue, and how many of its flits have entered the replay buffer. -/
structure TxPkt where
  vc : Fin 4
  pkt : Packet
  done : Nat
  /-- The packet carries the last piece of a freeze frame, which its sending releases (R242). -/
  frees : Bool
  /-- On a Bruix port: the other port was down when the packet was queued, so that this is its only copy (R220). -/
  sole : Bool
  deriving DecidableEq, Repr

/-- One port. -/
structure Port where
  state : LinkState
  lanesGood : BitVec 16
  /-- 0 none, 1 ×4, 2 ×8, 3 ×16 (R275). -/
  widthCode : Fin 4
  laneGroup : Fin 4
  savedUsed : Bool
  /-- Lanes that equalisation is to treat (R257). -/
  eqLanes : BitVec 16
  peerId : W16
  peerProto : Byte
  peerRev : Fin 16
  /-- Receive buffers that the peer advertised, in flits (R265). -/
  peerBuf : List Nat
  /-- Times of the automatic attempts since the port was last ACTIVE or trained by command (R260). -/
  attempts : List Nat
  /-- Sequence number of the next new flit (R256). -/
  nextSeq : BitVec 10
  /-- Unacknowledged flits, oldest first (R268). -/
  replay : List Flit
  /-- Flits still to be resent before new ones (R268). -/
  resend : List Flit
  /-- Resends of the oldest flit in a row (R269). -/
  resends : Nat
  /-- The flit last asked for by a NAK since it was last sent (R268). -/
  nakSeen : Option (BitVec 10)
  txq : List TxPkt
  /-- Flits sent on each VC, modulo 4,096 (R266). -/
  sent : List Nat
  /-- Flits freed that the peer has reported for each VC (R266). -/
  peerFreed : List Nat
  /-- Sequence number of the next flit expected (R267). -/
  rxNext : BitVec 10
  /-- Waiting for a replay of `rxNext` (R267). -/
  rxWait : Bool
  /-- A NAK header is due (R267). -/
  nakDue : Bool
  /-- Flits freed on each VC, modulo 4,096 (R266). -/
  freed : List Nat
  /-- Flits held back on each VC while credits are withheld (R266). -/
  held : List Nat
  /-- VCs whose credits are withheld. -/
  withhold : List Bool
  /-- Flits of the packet being received on each VC, header first. -/
  rxPart : List (List (BitVec 256))
  /-- The VC whose credit count the next header reports (R266). -/
  creditVc : Fin 4
  /-- The alarm being sent: reason, tag, headers left to carry it, and whether the next header skips it (R270). -/
  alarm : Option (Fin 16 × Byte × Nat × Bool)
  /-- The alarm acted on last and the headers in which a repeat of it can still come (R270). -/
  alarmSeen : Option (BitVec 12 × Nat)
  /-- Start of the second and malformed packets in it (R328). -/
  malSecond : Nat
  malCount : Nat
  /-- The ingress is isolated (R328). -/
  isolated : Bool
  /-- Time at which the training in progress began (R274). -/
  trainStart : Nat
  /-- Flit slots since the last sample flit (R264), the last VC served in turn on the pair link, or data packets since the
  last background packet (R282). -/
  share : Nat
  /-- The last data packet sent on a torus port was forwarded (R282). -/
  lastFwd : Bool
  /-- Stream flits that the grants of the spoke's arbiter still move (R164, R264). -/
  granted : Nat
  /-- The window of the replay rate and the second of heavily corrected frames (R269): start, count, and whether it has been reported. -/
  rateWin : Nat × Nat × Bool
  heavyWin : Nat × Nat × Bool
  /-- On the pair link: packets of other content since the last one of a repair or rejoin copy (R363). -/
  copyGap : Nat
  /-- VCs whose packet being received holds a flit with a nonzero reserved field (R10, R255). -/
  rxBad : List Bool
  deriving DecidableEq, Repr

/-- A port before any training. -/
def Port.init (st : LinkState) : Port where
  state := st
  lanesGood := 0
  widthCode := 0
  laneGroup := 0
  savedUsed := false
  eqLanes := 0
  peerId := 0
  peerProto := 0
  peerRev := 0
  peerBuf := [0, 0, 0, 0]
  attempts := []
  nextSeq := 0
  replay := []
  resend := []
  resends := 0
  nakSeen := none
  txq := []
  sent := [0, 0, 0, 0]
  peerFreed := [0, 0, 0, 0]
  rxNext := 0
  rxWait := false
  nakDue := false
  freed := [0, 0, 0, 0]
  held := [0, 0, 0, 0]
  withhold := [false, false, false, false]
  rxPart := [[], [], [], []]
  creditVc := 0
  alarm := none
  alarmSeen := none
  malSecond := 0
  malCount := 0
  isolated := false
  trainStart := 0
  share := 0
  lastFwd := false
  granted := 0
  rateWin := (0, 0, false)
  heavyWin := (0, 0, false)
  copyGap := 7
  rxBad := [false, false, false, false]

/-- Whether the port carries traffic. -/
def Port.up (p : Port) : Bool := p.state == .active

end Sys2Proof.Machine
end

