-- ==== Sys2Proof/Machine/StOut.lean ====
section
/-! DEFINITION. What leaves the modelled parts: messages, packets, frames, answers and interrupts, in the order in which
they are sent (log entry 2). -/
namespace Sys2Proof.Machine

/-- What the Bruix block puts out to the accelerator (R210). -/
inductive AccelOut where
  /-- A write to accelerator memory: the stream window at a ring offset (R221). -/
  | ringWrite (offset : Nat) (bytes : List Byte)
  /-- An entry-ready descriptor (R221). -/
  | entryReady (index : W32) (tag : Byte) (offset bytes : Nat)
  /-- A consume, gradient slice, tap or descriptor refused to the accelerator (R222, R236, R239). -/
  | refused (why : Nat)
  /-- The grant of a lease: key and first counter (R234). -/
  | grant (key : List W32) (counter : List W32)
  /-- A lease or cursor advance refused (R234, R235). -/
  | leaseRefused | advanceRefused
  /-- The answer to a tile descriptor (R239). -/
  | tileSelect (selected bRef : Bool)
  /-- The answer of the fabric gate (R224). -/
  | fabric (deliver : Bool)
  /-- An abort marker to the own engines, and to the fabric ports but the one given (R232). -/
  | markerIn (m : Marker)
  | markerOut (m : Marker) (except : Option Nat)
  /-- BRX_GEN (R227) and BRX_DOM_RST_N asserted or released for a mask (R228). -/
  | genOut (gen : Byte)
  | domReset (mask : W16) (asserted : Bool)
  /-- BRX_FREEZE asserted (R242). -/
  | freeze
  /-- The entry that a route lookup reads (R243). -/
  | route (entry : W64)
  /-- The DMA read of a gradient packet (R236). -/
  | gradRead (addr : W64) (first : W64) (count : Nat)
  deriving DecidableEq, Repr

/-- A message that leaves. -/
inductive OutMsg where
  /-- A frame on the wire of a port: its header, its 23 flit slots, and the symbols of its codeword on each trained lane (R253 to R255). -/
  | frame (port : Nat) (hdr : FrameHdr) (slots : List FlitSlot) (lanes : List (List (BitVec 10)))
  /-- What a port in PARAM sends: protocol version, identity, side or Bruix revision, receive buffers, lanes that passed (R257, R265). -/
  | params (port : Nat) (proto : Byte) (id : W16) (rev : Nat) (buffers : List Nat) (lanes : BitVec 16)
  /-- A packet that a port hands to its holder (R261, R263). -/
  | delivered (port : Nat) (p : Packet)
  | accel (a : AccelOut)
  /-- An MSI-X vector (R417). -/
  | msix (vector : Nat)
  /-- A START body passed between the two roots of a tray, for which R358 names no type (R312, R371). -/
  | pairStart (body : List Byte)
  /-- The SHAKE256 digest of a schedule table, for the partner; R358 names no type for it (R163, log entry 25). -/
  | pairDigest (cmd : W64) (digest : Digest)
  /-- Node digests of the children that a descent compares at a level, for the other holder; no rule gives their form (R191, log entry 49). -/
  | nodeDigests (holder : Nat) (job : W32) (step : W64) (level : Nat) (digests : List Digest)
  /-- The halt notice on the pair link, as it leaves before the fence (R367). -/
  | halt (body : List Byte)
  /-- An alarm slot on a torus port (R284). -/
  | alarmSlot (port : Nat) (slot : BitVec 128)
  /-- The poison indication with which an escalated internal transfer completes to its requester (R83). -/
  | hopPoison (cls : Nat) (island : Byte)
  /-- A write to host memory at a bus address (R387, R408). -/
  | hostWrite (addr : Nat) (bytes : List Byte)
  /-- The answer to a register or window read. -/
  | readData (bytes : List Byte)
  /-- An AER report (R399). -/
  | aer (kind : Nat)
  /-- A frame on the sideband bus: source, type, payload, CRC (R493). -/
  | sideband (src : Nat) (type : Nat) (payload : List Byte) (crc : Nat)
  /-- The 16 dominant bits with which a drop aborts its frame (R494). -/
  | sidebandAbort (src : Nat)
  /-- A PTP message on the management port: message type, sequence number, correctionField (R432). -/
  | ptp (kind : Nat) (seqNo : Nat) (corr : Int)
  /-- The answer of the I3C target, and an in-band interrupt (R498). -/
  | i3c (bytes : List Byte)
  | ibi (seqNo : Nat)
  /-- A discrete output: 0 ALERT_N, 1 THERMTRIP_N, 2 fence line, 3 BRX_INT_N (R250, R368, R509, R512). -/
  | pin (which : Nat) (asserted : Bool)
  deriving DecidableEq, Repr

end Sys2Proof.Machine
end

