-- ==== Sys2Proof/Machine/StSys.lean ====
section
/-! DEFINITION. The state of the event recorder, the time unit, the root of trust, bring-up and power, the sideband drop
and the I3C target beside their registers (15_time_base.md to 19_package_electrical.md). -/
namespace Sys2Proof.Machine

/-- An event record (R480), without its CRC. -/
structure EvRec where
  sev : Nat
  continued : Bool
  seqNo : Nat
  opMs : Nat
  cycles : Nat
  source : Nat
  code : Nat
  repeats : Nat
  job : W32
  ident : W64
  /-- The output clock, while the selected domain is locked (R428, R481). -/
  time : Option (List Byte)
  /-- Offset and length of the attached Wilost record. -/
  wilost : Option (Nat × Nat)
  detail : List Byte
  deriving DecidableEq, Repr

/-- The event recorder (R480 to R490) and the trace (R492). -/
structure EvSt where
  /-- Records programmed in NOR, oldest first. -/
  nor : List EvRec
  queue : List EvRec
  /-- The open record and the op_ms at which it was opened (R483). -/
  openRec : Option (EvRec × Nat)
  /-- The record closed last, for the continued flag (R483). -/
  lastClosed : Option EvRec
  headSeq : Nat
  nextSeq : Nat
  clearing : Bool
  /-- Powered time in ns since the checkpoint it resumed from (R482). -/
  opNs : Nat
  checkpoint : Nat
  cycles : Nat
  /-- Wilost records held: offset and bytes, oldest first; the next offset (R487). -/
  wilost : List (Nat × List Byte)
  wilostNext : Nat
  /-- The freeze frames being collected, by site: bytes so far and total (R490). -/
  collect : Tbl (List Byte × Nat)
  facilities : BitVec 64
  /-- Trace: window, first page, pages, wrap mode, core mask, bytes written; FIFO bytes and losses of each core. -/
  tracing : Bool
  traceStopped : Bool
  traceWrapped : Bool
  traceWindow : Nat
  tracePage : Nat
  tracePages : Nat
  traceWrap : Bool
  traceCores : BitVec 8
  traceBytes : Nat
  /-- Records in the FIFO of each core, records since its last sync, records dropped since the last loss record. -/
  traceFifo : Tbl (List (List Byte))
  traceSince : Tbl Nat
  traceLoss : Tbl Nat
  deriving DecidableEq, Repr

/-- One time domain (R424): its time in units of 2^−40 ns, its bits, and the phase steps written since the last tick. -/
structure Domain where
  t : Nat
  valid : Bool
  locked : Bool
  stepSum : Int
  /-- A load that the next tick applies (R425). -/
  load : Option Nat
  /-- A measurement exchange in progress: its sequence number and timestamps in units of 2^−16 ns (R432, R434). -/
  ptpSeq : Nat
  ptpT1 : Option Int
  ptpT2 : Option Int
  ptpT3 : Option Int
  ptpT4 : Option Int
  /-- Correction of the Sync awaiting its Follow_Up. -/
  ptpCorr : Int
  /-- The TIME exchange (R433, R434): its sequence number, whether one is open, and t_a once the request has left. -/
  reqSeq : Nat
  reqOpen : Bool
  reqTa : Option Int
  /-- The grandmaster chosen from Announce messages: priority vector and sender (R431). -/
  master : Option (List Nat)
  deriving DecidableEq, Repr

/-- A domain after a whole-chip reset (R427). -/
def Domain.init : Domain :=
  ⟨0, false, false, 0, none, 0, none, none, none, none, 0, 0, false, none, none⟩

/-- The time unit. -/
structure TmuSt where
  dom0 : Domain
  dom1 : Domain
  /-- The residual s in units of 2^−40 × 10^−9 ns (R426). -/
  resid : Int
  /-- Nominal ticks since the whole-chip reset (R427). -/
  count : Nat
  deriving DecidableEq, Repr

/-- A firmware bank: the image with its signature blocks, and whether its boot marker is whole (R446). -/
structure FwBank where
  bytes : List Byte
  marker : Bool
  deriving DecidableEq, Repr

/-- A request in the mailbox of the root-of-trust core (R455). -/
inductive RotReq where
  /-- Sign an attestation for the command in a slot: command ID and the bytes to sign. -/
  | attest (cmd : W64) (record : List Byte)
  /-- Sign the manifest of the bedrock in progress. -/
  | manifest (bytes : List Byte)
  deriving DecidableEq, Repr

/-- A reservation record as the NOR holds it (R449): its sequence number, the end of its block, and whether its CRC-32 passes. -/
structure ResvRec where
  seq : Nat
  blockEnd : Nat
  crcOk : Bool
  deriving DecidableEq, Repr

/-- Trust (R440 to R455). -/
structure SecSt where
  bank0 : FwBank
  bank1 : FwBank
  bootBank : Bool
  bootResult : Fin 4
  staged : Bool
  recovery : Bool
  recoveryBuf : List Byte
  release : W32
  svn : Nat
  m0 : Digest
  m1 : Digest
  m2 : Digest
  /-- The number of session keys drawn; the key is sessionKey of it. None while no key is loaded (R451). -/
  keyNo : Option Nat
  keysDrawn : Nat
  nextIndex : Nat
  reservedEnd : Nat
  /-- The two reservation sectors, each with its oldest record first, and whether records go to sector 1 (R449). -/
  resv0 : List ResvRec
  resv1 : List ResvRec
  resvAt : Bool
  clearSeq : Nat
  mailbox : List RotReq
  reserving : Bool
  deriving DecidableEq, Repr

/-- The fuse map (R467); dev_seeds and factory_cal feed Config only. -/
structure FuseSt where
  unitBad : BitVec 72
  serial : W64
  vendorId : W16
  keyHash : List Digest
  /-- Slots whose row is not blank. -/
  programmed : BitVec 6
  revoked : BitVec 6
  svnMin : Nat
  mfgLock : Bool
  calTx : List W32
  calRx : List W32
  deriving DecidableEq, Repr

/-- A calibration record (R471), without its CRC: the lanes of each port 0 to 14 and, at 15 + k, of stack k whose settings it holds. What the
settings are has no effect that the spec states (log entry 34). -/
structure CalRec where
  serial : W64
  physical : W16
  seqNo : Nat
  lanes : Tbl W32
  asym : List W32
  deriving DecidableEq, Repr

/-- The kind of the start in progress (R461). -/
inductive StartKind where
  | none | cold | warm
  deriving DecidableEq, Repr

/-- Bring-up and power (R459 to R479, R507 to R513). -/
structure PwrSt where
  pwrGood : Bool
  start : StartKind
  /-- PWR.STATUS.phase (R476). -/
  phase : Fin 16
  startDone : Bool
  lastWarm : Bool
  warmFellBack : Bool
  startHalted : Bool
  essentialLost : Bool
  calValid : Bool
  hbmSupplyHeld : Bool
  fuseResult : Fin 4
  /-- The control complex is out of reset (R444, R461). -/
  released : Bool
  failsInRow : Nat
  startCount : W32
  /-- The start count that the warm-start marker carries on stacks 0 and 8 (R463). -/
  marker : Option (W32 × W32)
  startedAt : Nat
  startUs : Nat
  domOn : BitVec 64
  bistCode : List Nat
  bistGood : BitVec 72
  hbmTrained : BitVec 16
  hbmSlow : BitVec 16
  cal0 : Option CalRec
  cal1 : Option CalRec
  calSaved : Bool
  /-- Lanes and channels that trained in full since the last save. -/
  fullTrained : Tbl W32
  strapsAt : StrapSt
  strapUnstable : Bool
  strapChanged : Bool
  brownout : Bool
  pgLimited : Bool
  pgStarts : List Nat
  warmMasked : Bool
  warmStuck : Bool
  chipStuck : Bool
  lastWarmAt : Option Nat
  tj : Int
  tjPeak : Int
  warned : Bool
  throttled : Bool
  tripped : Bool
  deriving DecidableEq, Repr

/-- The sideband drop and the I3C target (R493 to R498). -/
structure SideSt where
  /-- The frame being sent: type and payload, and times it was aborted. -/
  frame : Option (Nat × List Byte × Nat)
  waiting : Bool
  driverOff : Bool
  /-- Drops heard (R504) in the coding of SBB.PRESENCE. -/
  presence : BitVec 11
  /-- Flags of each site's last PRESENCE frame (R497). -/
  siteFlags : Tbl Byte
  i3cAddr : Option (BitVec 7)
  i3cEvents : Bool
  i3cOffset : W32
  deriving DecidableEq, Repr

end Sys2Proof.Machine
end

