-- ==== Sys2Proof/Machine/State.lean ====
section
/-! DEFINITION. The state of the block: one controller side and one Bruix block (log entry 1), as plain data. -/
namespace Sys2Proof.Machine

/-- Faults. No command of this block faults: the spec gives every command an effect in every state. -/
inductive Fault where
  /-- Never raised; the type must not be empty. Safe. -/
  | none
  deriving DecidableEq, Repr

/-- Refusals. -/
inductive Refusal where
  /-- A command that the model has given no meaning. Safe. -/
  | notModelled (mnemonic : String)
  deriving DecidableEq, Repr

/-- The whole state. -/
structure State where
  /-- Registers that have left their reset value (R12). -/
  regs : Tbl W32
  /-- Captured _HI values and held _LO writes, by BAR0 offset of the pair (R11). -/
  shadow : Tbl W32
  heldLo : Tbl W32
  /-- Ports: 0–7 spokes, 8 pair link, 9–14 torus faces, 15 and 16 ports A and B of the Bruix block. -/
  ports : Tbl Port
  brx : Brx
  ev : EvSt
  tmu : TmuSt
  sec : SecSt
  fuse : FuseSt
  pwr : PwrSt
  side : SideSt
  store : StoreSt
  jobs : Tbl Job
  tor : TorSt
  pair : PairSt
  host : HostSt
  acc : AccSt
  upd : UpdSt
  stm : StmSt
  asy : AsySt
  mem : Memory
  /-- Nanoseconds of powered time, one for each tick. -/
  now : Nat
  pending : List Instr
  outbox : List OutMsg
  fresh : Nat
  deriving DecidableEq, Repr

/-- The recorder as it leaves manufacture. -/
def EvSt.init : EvSt where
  nor := []
  queue := []
  openRec := none
  lastClosed := none
  headSeq := 0
  nextSeq := 0
  clearing := false
  opNs := 0
  checkpoint := 0
  cycles := 0
  wilost := []
  wilostNext := 0
  collect := []
  facilities := 0
  tracing := false
  traceStopped := false
  traceWrapped := false
  traceWindow := 0
  tracePage := 0
  tracePages := 0
  traceWrap := false
  traceCores := 0
  traceBytes := 0
  traceFifo := []
  traceSince := []
  traceLoss := []

/-- The time unit after a whole-chip reset (R427). -/
def TmuSt.init : TmuSt := ⟨Domain.init, Domain.init, 0, 0⟩

/-- Trust state before a boot: empty banks, no measurement, no key (log entry 5). -/
def SecSt.init : SecSt where
  bank0 := ⟨[], false⟩
  bank1 := ⟨[], false⟩
  bootBank := false
  bootResult := 0
  staged := false
  recovery := false
  recoveryBuf := []
  release := 0
  svn := 0
  m0 := 0
  m1 := 0
  m2 := 0
  keyNo := none
  keysDrawn := 0
  nextIndex := 0
  reservedEnd := 0
  resv0 := []
  resv1 := []
  resvAt := false
  clearSeq := 0
  mailbox := []
  reserving := false

/-- An unblown fuse map (log entry 5). -/
def FuseSt.init : FuseSt where
  unitBad := 0
  serial := 0
  vendorId := 0
  keyHash := List.replicate 6 0
  programmed := 0
  revoked := 0
  svnMin := 0
  mfgLock := false
  calTx := List.replicate 7 0
  calRx := List.replicate 7 0

/-- Straps of side A of the tray at (0, 0, 0), not a spare (log entry 5). -/
def StrapSt.init : StrapSt := ⟨false, 0, 0, 0, false⟩

/-- Power state at a whole-chip reset (R475, R476, R513). -/
def PwrSt.init : PwrSt where
  pwrGood := false
  start := .none
  phase := 0
  startDone := false
  lastWarm := false
  warmFellBack := false
  startHalted := false
  essentialLost := false
  calValid := false
  hbmSupplyHeld := false
  fuseResult := 0
  released := false
  failsInRow := 0
  startCount := 0
  marker := none
  startedAt := 0
  startUs := 0
  domOn := 0
  bistCode := List.replicate 72 0
  bistGood := 0
  hbmTrained := 0
  hbmSlow := 0
  cal0 := none
  cal1 := none
  calSaved := false
  fullTrained := []
  strapsAt := StrapSt.init
  strapUnstable := false
  strapChanged := false
  brownout := false
  pgLimited := false
  pgStarts := []
  warmMasked := false
  warmStuck := false
  chipStuck := false
  lastWarmAt := none
  tj := 0
  tjPeak := 0
  warned := false
  throttled := false
  tripped := false

/-- The sideband drop and the I3C target, idle; I3C events are enabled until DISEC (log entry 6). -/
def SideSt.init : SideSt := ⟨none, false, false, 0, [], none, true, 0⟩

/-- The machine right after a whole-chip reset and BRX_POR_N. -/
def State.reset : State where
  regs := []
  shadow := []
  heldLo := []
  ports := []
  brx := Brx.por 0 0 3
  ev := EvSt.init
  tmu := TmuSt.init
  sec := SecSt.init
  fuse := FuseSt.init
  pwr := PwrSt.init
  side := SideSt.init
  store := StoreSt.init
  jobs := []
  tor := TorSt.init
  pair := PairSt.init false
  host := HostSt.init
  acc := AccSt.init
  upd := UpdSt.init
  stm := StmSt.init
  asy := AsySt.init
  mem := []
  now := 0
  pending := []
  outbox := []
  fresh := 0

end Sys2Proof.Machine
end

