-- ==== Sys2Proof/Machine/Ops.lean ====
section
/-! DEFINITION. The named operations over registers, interrupts, events, ports and messages that every family uses. -/
namespace Sys2Proof.Machine

/-- A free value of `w` bits and the state that has spent it (log entry 3). -/
def State.free (s : State) (w : Nat) : BitVec w × State :=
  ((Config.freeValue s.fresh).setWidth w, { s with fresh := s.fresh + 1 })

/-- Send a message (log entry 2). -/
def State.emit (s : State) (m : OutMsg) : State := { s with outbox := s.outbox ++ [m] }

/-- Send messages in order. -/
def State.emitAll (s : State) (l : List OutMsg) : State := { s with outbox := s.outbox ++ l }

/-- A frame leaves on the sideband bus, with its CRC over src to the end of the payload (R493). -/
def State.sbFrame (s : State) (src type : Nat) (payload : List Byte) : State :=
  s.emit (.sideband src type payload (crc16 (leBytes 1 src ++ leBytes 1 type ++ leBytes 1 payload.length ++ payload)))

/-- Physical controller ID of the straps (R23). -/
def StrapSt.id (p : StrapSt) : W16 :=
  if p.spare then 0x4000#16 ||| (p.y.setWidth 16 <<< 4) ||| p.z.setWidth 16
  else (p.x.setWidth 16 <<< 8) ||| (p.y.setWidth 16 <<< 4) ||| p.z.setWidth 16

/-- Site ID of site `k` at a controller ID (R19, R23). -/
def siteId (ctl : W16) (k : Nat) : W16 :=
  let x := if ctl.getLsbD 14 then 0 else 2 * ((ctl >>> 8).setWidth 4).toNat
  let y := ((ctl >>> 4).setWidth 4).toNat
  let z := (ctl.setWidth 4).toNat
  BitVec.ofNat 16 ((if ctl.getLsbD 14 then 0x8000 else 0) + (x + k % 2) * 1024 +
    (2 * y + k / 2 % 2) * 32 + 2 * z + k / 4)

/-- The reset value of a register of an object: its row's, but where the row says strap, fuse or R170. -/
def State.resetReg (s : State) (r : Reg) (obj : Nat) : W32 :=
  match r with
  | .stmArbPrio => if obj < 16 then 0x2B else 0x01
  | .stmArbQuota =>
    if obj / 8 < 16 then
      (match obj % 8 with | 0 => 1024 | 1 => 2048 | 3 => 384 | 5 => 384 | _ => 0)
    else if obj % 8 = 0 then 3840 else 0
  | .tmuCalTx => s.fuse.calTx.getD obj 0
  | .tmuCalRx => s.fuse.calRx.getD obj 0
  | _ => BitVec.ofNat 32 r.row.resetWord

/-- The word that a register of an object holds (R12, R518). -/
def State.rd (s : State) (r : Reg) (obj : Nat := 0) : W32 :=
  Tbl.get s.regs (s.resetReg r obj) (r.key obj)

/-- Put a word into a register of an object. -/
def State.wr (s : State) (r : Reg) (v : W32) (obj : Nat := 0) : State :=
  { s with regs := Tbl.set s.regs (r.key obj) v }

/-- A field of a register: `w` bits from bit `lo`. -/
def State.fld (s : State) (r : Reg) (lo w : Nat) (obj : Nat := 0) : Nat :=
  (s.rd r obj).toNat / 2 ^ lo % 2 ^ w

/-- Replace `w` bits from bit `lo` of a word. -/
def putField (x : W32) (lo w v : Nat) : W32 :=
  BitVec.ofNat 32 (x.toNat - x.toNat / 2 ^ lo % 2 ^ w * 2 ^ lo + v % 2 ^ w * 2 ^ lo)

/-- Put a value into a field of a register. -/
def State.wrFld (s : State) (r : Reg) (lo w v : Nat) (obj : Nat := 0) : State :=
  s.wr r (putField (s.rd r obj) lo w v) obj

/-- The counters whose meaning says that they wrap (R14). -/
def Reg.wraps : Reg → Bool
  | .strFlipCount | .stmArbWindows | .tmuMeasSeq => true
  | _ => false

/-- Count `n` events: a counter saturates at its maximum unless its meaning says that it wraps (R14). -/
def State.bumpBy (s : State) (r : Reg) (n : Nat) (obj : Nat := 0) : State :=
  let v := (s.rd r obj).toNat + n
  s.wr r (BitVec.ofNat 32 (if r.wraps then v else min v 0xFFFFFFFF)) obj

/-- Count one event. -/
def State.bump (s : State) (r : Reg) (obj : Nat := 0) : State := s.bumpBy r 1 obj

/-- The INT_ENABLE register that goes with an INT_STATUS register. -/
def Reg.enable : Reg → Reg
  | .strIntStatus => .strIntEnable | .updIntStatus => .updIntEnable | .stmIntStatus => .stmIntEnable
  | .asyIntStatus => .asyIntEnable | .spkIntStatus => .spkIntEnable | .torIntStatus => .torIntEnable
  | .pairIntStatus => .pairIntEnable | .tmuIntStatus => .tmuIntEnable | .evrIntStatus => .evrIntEnable
  | .secIntStatus => .secIntEnable | .pwrIntStatus => .pwrIntEnable | .sbbIntStatus => .sbbIntEnable
  | .dbgIntStatus => .dbgIntEnable | .hstIntStatus => .hstIntEnable | .brxIntStatus => .brxIntEnable
  | r => r

/-- The MSI-X vector of a bit of an INT_STATUS register (R417). -/
def intVector (r : Reg) (obj bit : Nat) : Option Nat :=
  match r with
  | .strIntStatus => some 4 | .updIntStatus => some 5 | .stmIntStatus => some 6 | .asyIntStatus => some 7
  | .spkIntStatus => some (if obj = 8 then 17 else 8 + obj) | .torIntStatus => some 16 | .pairIntStatus => some 17
  | .tmuIntStatus => some 18 | .evrIntStatus => some 19 | .secIntStatus => some 20 | .pwrIntStatus => some 21
  | .sbbIntStatus => some 22 | .dbgIntStatus => some 23
  | .hstIntStatus => some (if bit < 2 then 0 else if bit = 2 then 1 else 2)
  | _ => none

/-- Raise an MSI-X vector: a message, or its pending bit where the vector is masked or the function may not master the bus (R17, R417,
log entry 36). -/
def State.vector (s : State) (v : Nat) : State :=
  if (Tbl.get s.host.msixTable 0 (4 * v + 3)).getLsbD 0 || !s.host.busMaster then
    { s with host.msixPending := s.host.msixPending ||| BitVec.ofNat 64 (2 ^ v) }
  else s.emit (.msix v)

/-- Set a bit of an INT_STATUS register and raise its vector where the bit is enabled (R417). -/
def State.raise (s : State) (r : Reg) (bit : Nat) (obj : Nat := 0) : State :=
  let t := s.wr r (s.rd r obj ||| BitVec.ofNat 32 (2 ^ bit)) obj
  if (s.rd r.enable obj).getLsbD bit then
    match intVector r obj bit with
    | some v => t.vector v
    | none => t
  else t

/-- The word that a write leaves in a register (R12): RW fields take the written bits, RWL fields while their lock is
open, RW1C bits clear where 1 is written, and every other field keeps its value. -/
def writeWord (r : Reg) (locked : Bool) (old v : W32) : W32 :=
  let rw := BitVec.ofNat 32 (r.row.maskOf .rw + if locked then 0 else r.row.maskOf .rwl)
  let w1c := BitVec.ofNat 32 (r.row.maskOf .rw1c)
  ((old &&& ~~~rw) ||| (v &&& rw)) &&& ~~~(v &&& w1c)

/-- The word that a read leaves: RC fields return to their reset value (R12). -/
def readWord (r : Reg) (old : W32) : W32 :=
  let rc := BitVec.ofNat 32 (r.row.maskOf .rc)
  (old &&& ~~~rc) ||| (BitVec.ofNat 32 r.row.resetWord &&& rc)

/-- The register of a block at an offset, with its place in an array and the copy it belongs to. -/
def findReg (l : List Reg) (off : Nat) : Option (Reg × Nat) :=
  match l with
  | [] => none
  | r :: t =>
    let d := off - r.row.offset
    if r.row.offset ≤ off ∧ d % r.row.stride = 0 ∧ d / r.row.stride < r.row.count then some (r, d / r.row.stride)
    else findReg t off

/-! ### Time -/

/-- Seconds wrap at 2^64: the modulus of a time in units of 2^−40 ns. -/
def timeMod : Nat := 2 ^ 64 * 10 ^ 9 * 2 ^ 40

/-- The selected time domain (R426). -/
def State.selDomain (s : State) : Domain := if s.rd .tmuCtrl |>.getLsbD 0 then s.tmu.dom1 else s.tmu.dom0

/-- The output clock in units of 2^−40 ns (R426, R427). -/
def State.outTime (s : State) : Nat :=
  if s.selDomain.valid then
    ((((s.selDomain.t : Int) * 10 ^ 9 + s.tmu.resid) / 10 ^ 9) % (timeMod : Int)).toNat
  else s.tmu.count * 2 ^ 40

/-- The 14 bytes of a time value (R423). -/
def timeBytes (t : Nat) : List Byte :=
  leBytes 8 (t / 2 ^ 40 / 10 ^ 9) ++ leBytes 4 (t / 2 ^ 40 % 10 ^ 9) ++ leBytes 2 (t / 2 ^ 24 % 2 ^ 16)

/-- op_ms (R482). -/
def State.opMs (s : State) : Nat := s.ev.opNs / 10 ^ 6

/-! ### The event recorder -/

/-- BAR0 block offset >> 16 (R400): the source of an event (R480). -/
def Blk.code : Blk → Nat
  | .cap => 0 | .str => 2 | .upd => 4 | .stm => 6 | .asy => 8 | .spk => 0xA | .tor => 0xC | .pair => 0xD
  | .tmu => 0xE | .evr => 0xF | .sec => 0x10 | .pwr => 0x11 | .sbb => 0x12 | .dbg => 0x13 | .hst => 0x14
  | .brx => 0xA

/-- Quantities as 8-byte little-endian words, in a detail field of 64 bytes (R481). -/
def detailWords (lead : List Byte) (ws : List Nat) : List Byte := sliceBytes (lead ++ ws.flatMap (leBytes 8)) 0 64

/-- The bytes of a record as NOR holds them (R480). -/
def EvRec.bytes (r : EvRec) : List Byte :=
  let body := leBytes 2 0xE0 ++ leBytes 1 r.sev ++
    leBytes 1 ((if r.continued then 4 else 0) + (if r.time.isSome then 2 else 0) + (if r.wilost.isSome then 1 else 0)) ++
    leBytes 4 r.seqNo ++ leBytes 8 r.opMs ++ leBytes 4 r.cycles ++ leBytes 2 r.source ++ leBytes 2 r.code ++
    leBytes 4 r.repeats ++ leBytes 4 r.job.toNat ++ leBytes 8 r.ident.toNat ++ sliceBytes (r.time.getD []) 0 14 ++
    leBytes 2 ((r.wilost.map Prod.snd).getD 0) ++ leBytes 4 ((r.wilost.map Prod.fst).getD 0) ++ sliceBytes r.detail 0 64
  body ++ leBytes 4 (crc32 body)

/-- Whether a detection repeats a record (R483). -/
def EvRec.same (a b : EvRec) : Bool :=
  a.source == b.source && a.code == b.code && a.sev == b.sev && a.job == b.job && a.ident == b.ident

/-- Fold a detection that finds the queue full into the queued record of code 0x31 (R484, log entry 12). -/
def State.evFold (s : State) : State :=
  let t := (s.bump .evrFolded).raise .evrIntStatus 2
  if t.ev.queue.any (fun r => r.code % 256 == 0x31) then
    { t with ev.queue := t.ev.queue.map fun r => if r.code % 256 == 0x31 then { r with repeats := min (r.repeats + 1) 0xFFFFFFFF } else r }
  else
    let r : EvRec := ⟨0, false, t.ev.nextSeq, t.opMs, t.ev.cycles, 0xF, 0xF31, 1, 0, 0, none, none, detailWords [] []⟩
    { t with ev.queue := t.ev.queue ++ [r], ev.nextSeq := t.ev.nextSeq + 1 }

/-- Close the open record: it waits to be programmed (R483, R484). -/
def State.evClose (s : State) : State :=
  match s.ev.openRec with
  | none => s
  | some (r, _) => { s with ev.openRec := none, ev.lastClosed := some r, ev.queue := s.ev.queue ++ [r] }

/-- Store a Wilost record in its ring (R487): the bytes of the ring that it needs are taken from the oldest records. -/
def State.wilostPut (s : State) (w : List Byte) : State × (Nat × Nat) :=
  let start := s.ev.wilostNext
  let stop := start + w.length
  let keep := s.ev.wilost.filter fun p => decide (stop ≤ p.1 + 2 ^ 25)
  let lost := s.ev.wilost.length - keep.length
  let t := { s with ev.wilost := keep ++ [(start, w)], ev.wilostNext := stop }
  let t := if lost = 0 then t else (t.bumpBy .evrWilostOverwritten lost).raise .evrIntStatus 1
  (t, (start % 2 ^ 25, w.length))

/-- Record a detection (R480 to R484, R323; log entry 12): severity, detecting block, low byte of the event code, job, ident and
detail, with the Wilost record that belongs to it. -/
def State.detect (s : State) (sev : Nat) (src : Blk) (low : Nat) (job : W32) (ident : W64) (detail : List Byte)
    (wil : Option (List Byte) := none) : State :=
  let time := if s.selDomain.locked then some (timeBytes s.outTime) else none
  let r : EvRec := ⟨sev, false, s.ev.nextSeq, s.opMs, s.ev.cycles, src.code, src.code * 256 % 65536 + low, 0, job,
    ident, time, none, detail⟩
  let window := (s.rd .evrRepeatWindow).toNat
  let same := match s.ev.openRec with
    | some (o, at0) => o.same r && decide (0 < window ∧ s.opMs ≤ at0 + window) && wil.isNone
    | none => false
  if same then
    { s with ev.openRec := s.ev.openRec.map fun p => ({ p.1 with repeats := min (p.1.repeats + 1) 0xFFFFFFFF }, p.2) }
  else if s.ev.openRec.isSome ∧ 256 ≤ s.ev.queue.length then s.evFold
  else
    let s := s.evClose
    let cont := decide (0 < window) && (s.ev.lastClosed.any (·.same r) ||
      (s.ev.queue ++ s.ev.nor).any fun o => o.same r && decide (s.opMs ≤ o.opMs + window))
    match wil with
    | none => { s with ev.openRec := some ({ r with continued := cont }, s.opMs), ev.nextSeq := s.ev.nextSeq + 1 }
    | some w =>
      let (t, at1) := s.wilostPut w
      { t with ev.openRec := some ({ r with continued := cont, wilost := some at1 }, t.opMs)
               ev.nextSeq := t.ev.nextSeq + 1 }

/-- An event that sets an interrupt bit: set it and record the event (R481). -/
def State.evInt (s : State) (sev : Nat) (r : Reg) (bit : Nat) (job : W32) (ident : W64) (ws : List Nat)
    (obj : Nat := 0) (wil : Option (List Byte) := none) : State :=
  (s.raise r bit obj).detect sev r.row.blk bit job ident (detailWords [] ws) wil

/-- An event that increments a counter and sets no interrupt bit: count it and record it (R481). -/
def State.evCount (s : State) (sev : Nat) (r : Reg) (job : W32) (ident : W64) (ws : List Nat) (obj : Nat := 0)
    (wil : Option (List Byte) := none) : State :=
  (s.bump r obj).detect sev r.row.blk 0x20 job ident
    (detailWords (leBytes 4 (r.row.blk.code * 65536 + r.row.offset)) ws) wil

/-- An event that does neither: its reason under R520. -/
def State.evReason (s : State) (sev : Nat) (src : Blk) (reason : Nat) (job : W32) (ident : W64) (ws : List Nat)
    (wil : Option (List Byte) := none) : State :=
  s.detect sev src 0x22 job ident (detailWords (leBytes 2 reason ++ List.replicate 6 0) ws) wil

/-! ### CBOR and Wilost records (R487, R488) -/

/-- The head of a CBOR item, with the shortest argument (R487). -/
def cborHead (major n : Nat) : List Byte :=
  if n < 24 then leBytes 1 (major * 32 + n)
  else if n < 2 ^ 8 then leBytes 1 (major * 32 + 24) ++ leBytes 1 n
  else if n < 2 ^ 16 then leBytes 1 (major * 32 + 25) ++ (leBytes 2 n).reverse
  else if n < 2 ^ 32 then leBytes 1 (major * 32 + 26) ++ (leBytes 4 n).reverse
  else leBytes 1 (major * 32 + 27) ++ (leBytes 8 n).reverse

/-- A value of a Wilost record, encoded: an unsigned integer, a byte string, an array. -/
def cborNat (n : Nat) : List Byte := cborHead 0 n
def cborBytes (b : List Byte) : List Byte := cborHead 2 b.length ++ b
def cborArray (l : List (List Byte)) : List Byte := cborHead 4 l.length ++ l.flatten
def cborMap (l : List (Nat × List Byte)) : List Byte := cborHead 5 l.length ++ l.flatMap fun p => cborNat p.1 ++ p.2

/-- A Wilost record: the keys 1 to 11 that the controller knows and the keys of its kind, in ascending order
(R488). -/
def State.wilostRec (s : State) (kind : Nat) (job : W32) (step : W64) (site phys : Nat) (more : List (Nat × List Byte)) :
    List Byte :=
  cborMap ([(1, cborNat 1), (2, cborNat kind), (3, cborNat s.pwr.strapsAt.id.toNat),
    (4, cborNat (if s.pwr.strapsAt.side then 1 else 0)), (5, cborNat job.toNat), (6, cborNat step.toNat),
    (7, cborNat site), (8, cborNat phys), (9, cborNat s.ev.cycles), (10, cborNat s.opMs)] ++
    (if s.selDomain.locked then
      [(11, cborArray [cborNat (s.outTime / 2 ^ 40 / 10 ^ 9), cborNat (s.outTime / 2 ^ 40 % 10 ^ 9),
        cborNat (s.outTime / 2 ^ 24 % 2 ^ 16)])] else []) ++ more)

/-! ### Units (R459, R468) -/

/-- A unit is usable: neither its fuse nor BIST reports it bad. -/
def State.usable (s : State) (u : Nat) : Bool := !s.fuse.unitBad.getLsbD u && s.pwr.bistGood.getLsbD u

/-- A port may be trained: its unit is usable and its domain on; a spoke needs its stream buffer, a torus port its engine; the pair link
trains before BIST ends; a Bruix port is no unit of the controller. -/
def State.portUsable (s : State) (p : Nat) : Bool :=
  if p < 8 then s.usable (34 + p) && s.usable (64 + p) && s.pwr.domOn.getLsbD (34 + p)
  else if p = 8 then !s.fuse.unitBad.getLsbD 54
  else if p < 15 then s.usable (33 + p) && s.usable (39 + p) && s.pwr.domOn.getLsbD (33 + p)
  else true

/-! ### Ports -/

/-- A port before training: the ports of the Bruix block wait in DETECT after BRX_POR_N (R257). -/
def portInit (p : Nat) : Port := if 15 ≤ p then Port.init .detect else Port.init .disabled

/-- Port `p`: 0–7 spokes, 8 pair link, 9–14 torus faces, 15 and 16 the Bruix block's ports. -/
def State.port (s : State) (p : Nat) : Port := Tbl.get s.ports (portInit p) p

/-- The content length of a packet header (R261) for a content: its bytes. -/
def mkPacket (kind tag gen : Byte) (flags : Nat) (seq job : W32) (src dst : W16) (unit : W32) (content : List Byte) :
    Packet :=
  ⟨⟨kind, BitVec.ofNat 8 flags, tag, gen, BitVec.ofNat 32 content.length, seq, job, src, dst, unit, 0⟩, content⟩

/-- The content of a control message (R214, R217): envelope and body, padded to whole flits. -/
def ctlContent (ty : Nat) (again : Bool) (ident : W64) (job : W32) (body : List Byte) : List Byte :=
  padTo 32 (leBytes 1 ty ++ leBytes 1 (if again then 1 else 0) ++ leBytes 2 body.length ++ leBytes 4 job.toNat ++
    leBytes 8 ident.toNat ++ body)

/-- The bytes of a packet header (R261). -/
def PktHdr.bytes (h : PktHdr) : List Byte :=
  [h.kind, h.flags, h.tag, h.gen] ++ leBytes 4 h.length.toNat ++ leBytes 4 h.seq.toNat ++ leBytes 4 h.jobId.toNat ++
    leBytes 2 h.src.toNat ++ leBytes 2 h.dst.toNat ++ leBytes 4 h.unit.toNat ++ leBytes 8 h.reserved.toNat

/-- Flits of a packet: the header and the content (R261). -/
def Packet.flitCount (p : Packet) : Nat := 1 + (p.content.length + 31) / 32

/-- Replace port `p`. -/
def State.setPort (s : State) (p : Nat) (q : Port) : State := { s with ports := Tbl.set s.ports p q }

/-- Queue a packet for a port's egress on a virtual channel (R262). -/
def State.queuePkt (s : State) (p : Nat) (vc : Fin 4) (k : Packet) (frees : Bool := false) (sole : Bool := false) : State :=
  s.setPort p { s.port p with txq := (s.port p).txq ++ [⟨vc, k, 0, frees, sole⟩] }

/-- A counting window of `len` ns as it stands now: start, count, and whether it has been reported. A new one starts once the last is over
(R83, R269; log entry 45). -/
def windowAt (now len : Nat) (w : Nat × Nat × Bool) : Nat × Nat × Bool := if w.1 + len ≤ now then (now, 0, false) else w

/-- Flits that a port can still send on a VC under its credits (R266). -/
def Port.credit (p : Port) (vc : Nat) : Nat :=
  p.peerBuf.getD vc 0 - (p.sent.getD vc 0 + 4096 - p.peerFreed.getD vc 0) % 4096

/-- Set an entry of a list. -/
def setAt {α : Type} (l : List α) (i : Nat) (v : α) : List α := l.set i v

/-- A message has the body length that its type gives, no reserved flag, and zero padding (R217). -/
def CtlMsg.formOk (m : CtlMsg) (len : Nat) : Bool :=
  m.flags.toNat < 2 && m.length.toNat == len && (16 + m.bytes.length) % 32 == 0 &&
    m.bytes.length == (len + 16 + 31) / 32 * 32 - 16 && (m.bytes.drop len).all (· == 0)

/-- A field of a message body. -/
def CtlMsg.get (m : CtlMsg) (lo n : Nat) : Nat := fieldLE m.bytes lo n

/-- All bytes of a range are 0. -/
def zeroBytes (l : List Byte) (lo n : Nat) : Bool := (sliceBytes l lo n).all (· == 0)

/-- Pack elements of `w` bits without gaps, zero-padded to a whole byte (R101). -/
def packBits (w : Nat) (l : List Nat) : List Byte :=
  leBytes ((w * l.length + 7) / 8) ((l.zipIdx.map fun p => p.1 % 2 ^ w * 2 ^ (w * p.2)).sum)

/-- Add a value to a Welford state of count, mean and s2 (R117). -/
def welfordAdd (a : Nat × Nat × Nat) (x : Nat) : Nat × Nat × Nat :=
  let n := a.1 + 1
  let d := sub64 x a.2.1
  let m := add64 a.2.1 (div64 d (ofNat64 n))
  (n, m, add64 a.2.2 (mul64 d (sub64 x m)))

/-- Merge Welford state `b` into `a` (R117). -/
def welfordMerge (a b : Nat × Nat × Nat) : Nat × Nat × Nat :=
  if b.1 = 0 then a
  else if a.1 = 0 then b
  else
    let n := a.1 + b.1
    let d := sub64 b.2.1 a.2.1
    let t := div64 (mul64 (ofNat64 a.1) (ofNat64 b.1)) (ofNat64 n)
    (n % 2 ^ 64, add64 a.2.1 (div64 (mul64 d (ofNat64 b.1)) (ofNat64 n)),
      add64 (add64 a.2.2 b.2.2) (mul64 (mul64 d d) t))

/-- Bytes of the elements of a line or unit in a format: scales first for MX, each part padded (R157). -/
def elemBytes (fmt n : Nat) : Nat :=
  let m := if formatMx fmt then (n + 31) / 32 * 32 else n
  (fmtBits (formatCode fmt) * m + 7) / 8

/-- Round up to a multiple of 32. -/
def up32 (n : Nat) : Nat := (n + 31) / 32 * 32

/-- Content bytes of a stream or gradient packet of `n` elements (R157): header, scales, elements, row statistics. -/
def unitBytes (fmt n : Nat) (rowStats : Bool) : Nat :=
  32 + (if formatMx fmt then up32 ((n + 31) / 32) else 0) + up32 (elemBytes fmt n) +
    (if rowStats then up32 (8 * ((n + 127) / 128)) else 0)

/-- A format of R152. -/
def streamFormat (f : Nat) : Bool := (1 ≤ f && f ≤ 5) || (0x14 ≤ f && f ≤ 0x19)

/-- The value of an element under its block scale, or unscaled (R99, R102). -/
def elemVal (fmt : Nat) (scales : List Byte) (i x : Nat) : Val :=
  if formatMx fmt then mxDecode fmt ((scales.getD (i / 32) 0).toNat) x else elemDecode fmt x

/-- A value in binary64, which holds every stream and gradient format exactly. -/
def val64 (v : Val) : Nat := rne fmtB64 v

/-- Site number of a site ID (R19, R23). -/
def siteNo (id : W16) : Nat :=
  4 * (id.toNat % 2) + 2 * (id.toNat / 32 % 2) + id.toNat / 1024 % 2

end Sys2Proof.Machine
end

