-- ==== Sys2Proof/Machine/Bruix.lean ====
section
/-! DEFINITION. The Bruix block (08_bruix_block.md): control messages, admission, the stream window, the epoch gate and its
closures, resets, watchdogs, abort markers, random streams and feeds, the gradient path, taps and samples, step reports,
freeze frames and route banks. -/
namespace Sys2Proof.Machine

/-! ### The capability table (R212, R213) -/

/-- A byte string of the capability table. -/
def State.capBytes (s : State) : List Byte := (List.range 64).flatMap fun i => leBytes 4 (s.rd .brxCap i).toNat

/-- A field of the capability table. -/
def State.capFld (s : State) (lo n : Nat) : Nat := fieldLE s.capBytes lo n

/-- A limit that the revision sets (R207). -/
def Brx.limit (b : Brx) (x1 x2 x3 : Nat) : Nat := if b.revision = 1 then x1 else if b.revision = 2 then x2 else x3

/-- Sizes of the sample buffer and of the outbound buffer: what the table says, at most what the revision has (R207, R212). -/
def State.sampleBuffer (s : State) : Nat := min (s.capFld 0x30 4) (s.brx.limit 8 8 16 * 2 ^ 20)
def State.outboundBuffer (s : State) : Nat := min (s.capFld 0x34 4) (s.brx.limit 4 4 8 * 2 ^ 20)

/-- A domain entry of the table: kind, flags, hold_us, ready_timeout_ms, watchdog_mask (R212). -/
def capDomain (cap : List Byte) (d : Nat) : Nat × Nat × Nat × Nat × Nat :=
  let o := 0x40 + 8 * d
  (fieldLE cap o 1, fieldLE cap (o + 1) 1, fieldLE cap (o + 2) 2, fieldLE cap (o + 4) 2, fieldLE cap (o + 6) 2)

/-- The table's counts keep the revision's limits (R207, R213). -/
def capCountsOk (b : Brx) (cap : List Byte) : Bool :=
  1 ≤ fieldLE cap 5 1 && fieldLE cap 5 1 ≤ b.limit 8 12 16 && 1 ≤ fieldLE cap 6 1 && fieldLE cap 6 1 ≤ b.limit 8 16 16 &&
  fieldLE cap 7 1 ≤ b.limit 6 12 16 && fieldLE cap 0x1E 1 ≤ b.limit 2 4 4 && fieldLE cap 0x28 2 ≤ b.limit 64 256 1024 &&
  fieldLE cap 0x2A 2 ≤ b.limit 1024 4096 16384 && fieldLE cap 0x2C 2 ≤ b.limit 64 128 256

/-- The table's reserved fields and unused entries are 0, and used entries name a kind (R212, R213). -/
def capReservedOk (cap : List Byte) : Bool :=
  zeroBytes cap 0x2E 2 && zeroBytes cap 0x3A 6 && zeroBytes cap 0xC0 32 &&
  (List.range 16).all fun d =>
    if d < fieldLE cap 5 1 then
      let e := capDomain cap d
      1 ≤ e.1 && e.1 ≤ 4 && e.2.1 < 2
    else zeroBytes cap (0x40 + 8 * d) 8

/-- The table is locked and valid (R213). -/
def State.capValid (s : State) : Bool :=
  let cap := s.capBytes
  (s.rd .brxCtrl).getLsbD 0 && (shake256 (cap.take 0xE0)).toNat == fieldLE cap 0xE0 32 && capCountsOk s.brx cap &&
  (List.range 32).all (fun f => (!(fieldLE cap 8 4).testBit f || streamFormat f) && (!(fieldLE cap 0xC 4).testBit f || formatValid f)) &&
  capReservedOk cap

/-! ### Ports and outbound items -/

/-- Whether a port of the block is up (R220). -/
def State.brxUp (s : State) (p : Fin 2) : Bool := (s.port (15 + p.val)).up

/-- Send an item on every port that is up, or hold it while both are down (R214, R220). -/
def State.brxSend (s : State) (vc : Fin 4) (mk : Fin 2 → Packet) : State :=
  let a := if s.brxUp 0 then s.queuePkt 15 vc (mk 0) false (!s.brxUp 1) else s
  let b := if s.brxUp 1 then a.queuePkt 16 vc (mk 1) false (!s.brxUp 0) else a
  if s.brxUp 0 || s.brxUp 1 then b else { b with brx.outbound := b.brx.outbound ++ [(vc, mk 0)] }

/-- Outbound items of `n` content bytes in all can leave or be held: while both ports are down the accelerator stalls where the outbound
buffer has no space (R220). What the block says of itself is held all the same (DESIGN CHOICE, log entry 50). -/
def State.brxRoom (s : State) (n : Nat) : Bool :=
  s.brxUp 0 || s.brxUp 1 || (s.brx.outbound.map fun x => 32 + x.2.content.length).sum + 32 + n ≤ s.outboundBuffer

/-- A packet of the block on a port (R261). -/
def State.brxPkt (s : State) (kind : Nat) (step : Option W64) (gen : Byte) (seq : Nat) (content : List Byte) (p : Fin 2) :
    Packet :=
  mkPacket (BitVec.ofNat 8 kind) ((step.map fun k => k.setWidth 8).getD 0) (if step.isSome then gen else 0)
    ((if step.isSome then 12 else 0) + p.val) (BitVec.ofNat 32 seq) s.brx.job s.brx.logical (s.port (15 + p.val)).peerId
    0 content

/-- A control message to both controllers (R214). -/
def State.brxTell (s : State) (ty : Nat) (ident : W64) (body : List Byte) : State :=
  s.brxSend 2 (s.brxPkt 4 none 0 0 (ctlContent ty false ident s.brx.job body))

/-- A control message on one port; it is discarded where that port is not up (R214). -/
def State.brxAnswer (s : State) (p : Fin 2) (ty : Nat) (ident : W64) (job : W32) (body : List Byte)
    (frees : Bool := false) : State :=
  if s.brxUp p then s.queuePkt (15 + p.val) 2 (s.brxPkt 4 none 0 0 (ctlContent ty false ident job body) p) frees
  else if frees then { s with brx.freezeHeld := none } else s

/-- Status values of an ACK (R215). -/
def ackDone : Byte := 0
def ackState : Byte := 1
def ackMalformed : Byte := 2
def ackCapacity : Byte := 3
def ackIncomplete : Byte := 4
def ackTimeout : Byte := 5
def ackDigest : Byte := 6

/-- An ACK (R217): the message type echoed, status, generation and result, with the capability table where asked. -/
def State.brxAck (s : State) (p : Fin 2) (ty : Nat) (ident : W64) (job : W32) (st : Byte) (result : W32 := 0)
    (cap : Bool := false) : State :=
  s.brxAnswer p 0x21 ident job ([BitVec.ofNat 8 ty, st, s.brx.gen, 0] ++ leBytes 4 result.toNat ++
    if cap then s.capBytes else [])

/-- Record the status of a command ID among the last 32 (R215). -/
def State.brxRecord (s : State) (ident : W64) (ty : Nat) (st : Byte) (result : W32 := 0) : State :=
  { s with brx.cmds := ((ident, ty, st, result) :: s.brx.cmds).take 32 }

/-- Record the status of a command ID and acknowledge it. -/
def State.brxDone (s : State) (p : Fin 2) (ty : Nat) (m : CtlMsg) (st : Byte) (result : W32 := 0) : State :=
  (s.brxRecord m.ident ty st result).brxAck p ty m.ident m.jobId st result

/-- A command whose ID is recorded is answered from the record and not executed again (R215). -/
def State.brxOnce (s : State) (p : Fin 2) (m : CtlMsg) (run : State) : State :=
  match s.brx.cmds.find? (fun c => c.1 == m.ident) with
  | some (_, t, st, r) => s.brxAck p t m.ident m.jobId st r (t == 0x10 && st == ackDone)
  | none => run

/-- An error counted in BRX.SEQ_ERRORS (R219). -/
def State.brxSeqErr (s : State) : State :=
  let t := (s.bump .brxSeqErrors).raise .brxIntStatus 7
  { t with brx.seqErrSince := min (t.brx.seqErrSince + 1) 0xFFFFFFFF }

/-! ### Tags -/

/-- The open tag with an epoch tag, and whether it is in the newer position. -/
def Brx.find (b : Brx) (tag : Byte) : Option (Bool × BrxTag) :=
  match b.older, b.newer with
  | some o, some n => if o.step.setWidth 8 = tag then some (false, o) else if n.step.setWidth 8 = tag then some (true, n) else none
  | some o, none => if o.step.setWidth 8 = tag then some (false, o) else none
  | none, some n => if n.step.setWidth 8 = tag then some (true, n) else none
  | none, none => none

/-- Replace an open tag. -/
def State.setTag (s : State) (newer : Bool) (t : BrxTag) : State :=
  if newer then { s with brx.newer := some t } else { s with brx.older := some t }

/-- Watchdog `k`'s domain is in reset (R229). -/
def State.wdogInReset (s : State) (k : Nat) : Bool :=
  match s.brx.reset with
  | none => false
  | some r => !r.released && (List.range 16).any fun d =>
      r.mask.getLsbD d && ((capDomain s.capBytes d).2.2.2.2).testBit k

/-- Watchdog `k` is armed (R229). -/
def State.wdogArmed (s : State) (k : Nat) : Bool :=
  let undone := fun (t : Option BrxTag) => match t with | some t => !t.done | none => false
  s.brx.job != 0 && (undone s.brx.older || undone s.brx.newer) && !s.wdogInReset k && (s.rd .brxWdog k).getLsbD 31

/-- Arming starts a watchdog's count afresh (R217, R229): `old` is the state before the command. -/
def State.rearm (old s : State) : State :=
  { s with brx.pulses := (List.range 16).map fun k =>
      if s.wdogArmed k && !old.wdogArmed k then 0 else s.brx.pulses.getD k 0 }

/-- A cursor as a number, the value of no record as −1 (R235). -/
def cursorInt (c : W64) : Int := if c = BitVec.allOnes 64 then -1 else c.toNat

/-- Apply an advance to a feed, or refuse it (R235). -/
def State.cursorPut (s : State) (feed : Nat) (index : W64) : State :=
  if cursorInt index ≤ cursorInt (s.brx.cursors.getD feed 0) ∨ s.capFld 0x1E 1 ≤ feed then
    (s.bump .brxCursorRefused).emit (.accel .advanceRefused)
  else { s with brx.cursors := setAt s.brx.cursors feed index }

/-- Apply the queued advances of a tag, in order (R235). -/
def State.cursorDrain (s : State) (tag : Byte) : State :=
  let mine := s.brx.cursorQueue.filter fun q => q.1 == tag
  mine.foldl (fun t q => t.cursorPut q.2.1 q.2.2)
    { s with brx.cursorQueue := s.brx.cursorQueue.filter fun q => q.1 != tag }

/-- Open a tag in the first free position, with its snapshot where it can be taken (R223, R235). -/
def State.openTag (s : State) (step : W64) : State :=
  match s.brx.older with
  | none => { s with brx.older := some (BrxTag.opened step (some s.brx.cursors)) }
  | some o => { s with brx.newer := some (BrxTag.opened step (if o.done then some o.doneCursors else none)) }

/-! ### Closing tags (R225) -/

/-- Discard the outbound items of the tags that have not entered a replay buffer (R225 step 3). -/
def State.brxPurge (s : State) (tags : List Byte) : State :=
  let keep := fun (k : Packet) => !(k.hdr.flags.getLsbD 2 && tags.contains k.hdr.tag)
  let q := fun (p : Port) => { p with txq := p.txq.filter fun t => t.done != 0 || keep t.pkt }
  let s := (s.setPort 15 (q (s.port 15)))
  let s := s.setPort 16 (q (s.port 16))
  { s with brx.outbound := s.brx.outbound.filter fun x => keep x.2
           brx.taps := s.brx.taps.filter fun t => !tags.contains t.desc.tag
           brx.captures := s.brx.captures.filter fun c => !tags.contains c.desc.tag
           brx.slices := s.brx.slices.filter fun c => !tags.contains c.desc.tag }

/-- Invalidate the ring entries of the steps and every later one, and rewind the allocation (R225 step 4). -/
def State.ringInvalidate (s : State) (steps : List W64) : State :=
  let keep := s.brx.ring.takeWhile fun e => !steps.contains e.step
  match s.brx.ring.drop keep.length with
  | [] => s
  | e :: _ => { s with brx.ring := keep, brx.ringNext := e.offset }

/-- Restore the feed cursors of a closed tag and drop its queued advances (R225 step 5, R235). -/
def State.cursorRestore (s : State) (t : BrxTag) : State :=
  let s := { s with brx.cursorQueue := s.brx.cursorQueue.filter fun q => q.1 != t.step.setWidth 8 }
  match t.snapshot with
  | some c => { s with brx.cursors := c }
  | none => s

/-- Send an abort marker of the block's own for the tags closed (R231, R232). -/
def State.injectMarker (s : State) (reason : Nat) (older newer : Option BrxTag) : State :=
  let tags : Byte := match older, newer with
    | some o, _ => o.step.setWidth 8
    | none, some n => n.step.setWidth 8 - 1
    | none, none => 0
  let m : Marker := ⟨BitVec.ofNat 8 reason, tags,
    BitVec.ofNat 8 ((if older.isSome then 2 else 0) + (if newer.isSome then 4 else 0)), s.brx.logical, s.brx.abortSeq,
    s.brx.job, 0⟩
  let s := { s with brx.abortSeq := s.brx.abortSeq + 1
                    brx.markersSeen := ((m.origin, m.abortSeq) :: s.brx.markersSeen).take 32 }
  ((s.bump .brxMarkersInjected).emit (.accel (.markerIn m))).emit (.accel (.markerOut m none))

/-- Close open tags under steps 1 to 5 of R225: `older` closes both (R223), otherwise the newer alone. `reason` is that
of the block's own marker, or none where a received marker serves (R232). The closure then awaits step 6. -/
def State.closeTags (s : State) (older : Bool) (reason : Option Nat) (acks : List (Fin 2 × W64)) : State :=
  let o := if older then s.brx.older else none
  let n := s.brx.newer
  let steps := (o.toList ++ n.toList).map BrxTag.step
  if steps = [] then s
  else
    let t := if older then { s with brx.older := none, brx.newer := none } else { s with brx.newer := none }
    let t := match reason with
      | some r => t.injectMarker r o n
      | none => t
    let t := t.brxPurge (steps.map fun k => k.setWidth 8)
    let t := t.ringInvalidate steps
    let t := (n.toList ++ o.toList).foldl State.cursorRestore t
    let t := t.raise .brxIntStatus 1
    let t := { t with brx.closing := t.brx.closing ++ [⟨steps, o.isSome, n.isSome, false, acks⟩] }
    State.rearm s t

/-- Take LEAVE's effect (R218): close both tags without markers, disable the watchdogs and clear the job. -/
def State.leaveNow (s : State) : State :=
  let t := s.closeTags true none []
  let t := (List.range 16).foldl (fun u k => u.wrFld .brxWdog 31 1 0 k) t
  let t := { t with brx.job := 0, brx.logical := 0, brx.hang := false, brx.hangMask := 0
                    brx.closing := t.brx.closing.filter fun c => c.acks != [] }
  t.raise .brxIntStatus 0

/-- Complete every closure whose waits have ended (R225 step 7), and then a LEAVE that waited (R218). -/
def State.closeDone (s : State) : State :=
  let fin := fun (c : BrxClose) => !c.waitOlder && !c.waitNewer && c.lifetime && c.acks != []
  let t := (s.brx.closing.filter fin).foldl (fun u c =>
    c.acks.foldl (fun v a => v.brxAck a.1 0x12 a.2 v.brx.job ackDone) u) s
  let t := { t with brx.closing := t.brx.closing.filter fun c => !fin c }
  if t.brx.leaveWait != [] ∧ !(t.brx.closing.any fun c => c.acks != []) then
    let u := t.leaveNow
    let u := u.brx.leaveWait.foldl (fun v a => (v.brxRecord a.2 0x1B ackDone).brxAck a.1 0x1B a.2 0 ackDone) u
    { u with brx.leaveWait := [] }
  else t

/-! ### Freeze frames and hangs (R230, R242) -/

/-- A freeze trigger (R242): ignored and counted while a frame is held or being captured. -/
def State.freezeTrigger (s : State) (forHang : Bool) (p : Fin 2) (ident : W64) : State :=
  if s.brx.freezeHeld.isSome ∨ s.brx.freezing.isSome then s.bump .brxFreezeLost
  else ({ s with brx.freezing := some ⟨s.brx.gen, (s.now - s.brx.porAt) / 100000, ident, p, forHang, []⟩ }).emit (.accel .freeze)

/-- A priority alarm on a port: 8 headers in all, every second one (R270). -/
def Port.startAlarm (p : Port) (reason : Fin 16) (tag : Byte) : Port := { p with alarm := some (reason, tag, 8, false) }

/-- Raise an alarm on a port that is up, counting it (R270, R274). -/
def State.sendAlarm (s : State) (p : Nat) (reason : Fin 16) (tag : Byte) : State :=
  if (s.port p).up then
    let t := s.setPort p ((s.port p).startAlarm reason tag)
    if p ≤ 8 then t.bump .spkAlarmsTx p else t
  else s

/-- Declare a hang (R230): `why` is the marker reason, `step` the step of HANG's ident while no tag is open. -/
def State.declareHang (s : State) (mask : W16) (why : Nat) (step : W64) : State :=
  if s.brx.hang then { s with brx.hangMask := s.brx.hangMask ||| mask }
  else
    let ident := match s.brx.older with | some o => o.step | none => step
    let t := { s with brx.hang := true, brx.hangMask := mask }
    let t := (t.bump .brxHangs).raise .brxIntStatus 5
    let t := (t.sendAlarm 15 1 (ident.setWidth 8)).sendAlarm 16 1 (ident.setWidth 8)
    let t := t.closeTags true (some why) []
    let t := t.brxTell 0x23 ident (leBytes 2 mask.toNat ++ [s.brx.gen, 0, 0, 0, 0, 0] ++
      ((List.range 16).flatMap fun k => leBytes 4 (if k < s.capFld 6 1 then s.brx.pulses.getD k 0 else 0)))
    if t.fld .brxCtrl 1 2 = 3 then t.freezeTrigger true 0 0 else t

/-! ### Control messages -/

/-- The received-through message (R214, R217). -/
def State.tellReceived (s : State) : State :=
  let rt := fun (t : Option BrxTag) => match t with
    | some t => leBytes 4 (t.got + 0xFFFFFFFF)
    | none => leBytes 4 0
  let tag := fun (t : Option BrxTag) => match t with | some t => t.step.setWidth 8 | none => (0 : Byte)
  s.brxTell 0x25 0 ([tag s.brx.older, tag s.brx.newer,
    BitVec.ofNat 8 ((if s.brx.older.isSome then 1 else 0) + (if s.brx.newer.isSome then 2 else 0)), 0] ++
    rt s.brx.older ++ rt s.brx.newer)

/-- The steps that an ADMIT lists (R217). -/
def CtlMsg.openSteps (m : CtlMsg) : List W64 := (List.range (m.get 2 1)).map fun i => BitVec.ofNat 64 (m.get (0x10 + 8 * i) 8)

/-- An ADMIT's fields are in range (R217, R218). -/
def State.admitFormOk (s : State) (m : CtlMsg) : Bool :=
  m.formOk 64 && m.jobId != 0 && m.get 0 2 < 0x8000 && m.get 4 2 != 0 && m.get 2 1 ≤ 2 && zeroBytes m.bytes 6 2 &&
  zeroBytes m.bytes 0xC 4 && (List.range 2).all (fun i => i < m.get 2 1 || m.get (0x10 + 8 * i) 8 == 0) &&
  (m.get 2 1 != 2 || m.get 0x18 8 == (m.get 0x10 8 + 1) % 2 ^ 64) && formatValid (m.get 3 1) &&
  (s.capFld 0xC 4).testBit (m.get 3 1) &&
  (List.range 4).all fun f => f < s.capFld 0x1E 1 || m.get (0x20 + 8 * f) 8 == 2 ^ 64 - 1

/-- Enable the watchdogs that the domain entries name (R218); the hang interval goes into every enabled one (R217). -/
def State.enableWdogs (s : State) (ticks : Nat) : State :=
  let mask := (List.range (s.capFld 5 1)).foldl (fun m d => m ||| (capDomain s.capBytes d).2.2.2.2) 0
  (List.range 16).foldl (fun t k =>
    if mask.testBit k || (t.rd .brxWdog k).getLsbD 31 then t.wr .brxWdog (BitVec.ofNat 32 (2 ^ 31 + ticks)) k else t) s

/-- Take ADMIT's effect (R218). -/
def State.admitNow (s : State) (m : CtlMsg) : State :=
  let same := s.brx.job == m.jobId
  let t := { s with
    brx.job := m.jobId
    brx.seed := BitVec.ofNat 32 (m.get 8 4)
    brx.logical := BitVec.ofNat 16 (m.get 0 2)
    brx.gradFmt := Fin.ofNat 32 (m.get 3 1)
    brx.cursors := (List.range 4).map fun f => BitVec.ofNat 64 (m.get (0x20 + 8 * f) 8)
    brx.older := none
    brx.newer := none
    brx.retired := none
    brx.ring := []
    brx.ringNext := 0
    brx.cursorQueue := []
    brx.taps := []
    brx.captures := []
    brx.slices := []
    brx.directives := if same then s.brx.directives else []
    brx.expired := 0
    brx.hang := false
    brx.hangMask := 0 }
  let t := t.enableWdogs (m.get 4 2)
  let t := m.openSteps.foldl State.openTag t
  State.rearm { s with brx.job := 0 } (t.raise .brxIntStatus 0)

/-- ADMIT (R217, R218): the table of an accepted ADMIT goes to both controllers (R212; log entry 24). -/
def State.brxAdmit (s : State) (p : Fin 2) (m : CtlMsg) : State :=
  s.brxOnce p m <|
    if !s.capValid || !s.admitFormOk m then s.brxDone p 0x10 m ackMalformed
    else if (s.brx.job != 0 && s.brx.job != m.jobId) || s.brx.reset.isSome || s.brx.closing.any (fun c => c.acks != []) ||
        m.openSteps.any (fun k => s.brx.heldBack.contains (k.setWidth 8)) then s.brxDone p 0x10 m ackState
    else
      let t := s.admitNow m
      let t := (t.brxRecord m.ident 0x10 ackDone).brxAck p 0x10 m.ident m.jobId ackDone 0 true
      (t.brxAck (if p = 0 then 1 else 0) 0x10 m.ident m.jobId ackDone 0 true).tellReceived

/-- A tag message names the admitted job (R215). -/
def State.brxJobOk (s : State) (m : CtlMsg) : Bool := s.brx.job != 0 && s.brx.job == m.jobId

/-- TAG_OPEN (R223). -/
def State.brxTagOpen (s : State) (p : Fin 2) (m : CtlMsg) : State :=
  let tag := m.ident.setWidth 8
  let ack := fun (t : State) (st : Byte) => t.brxAck p 0x11 m.ident m.jobId st
  if !m.formOk 0 then ack s ackMalformed
  else if !s.brxJobOk m then ack s ackState
  else if (s.brx.find tag).isSome then
    if s.brx.openWait.any (fun a => a.2 == m.ident) then { s with brx.openWait := s.brx.openWait ++ [(p, m.ident)] }
    else ack s ackDone
  else if s.brx.closing.any (fun c => c.acks != [] && c.steps.any fun k => k.setWidth 8 == tag) ||
      s.brx.heldBack.contains tag then ack s ackState
  else if (s.brx.older.isNone && s.brx.newer.isNone) ||
      (s.brx.newer.isNone && (s.brx.older.any fun o => o.step.setWidth 8 == tag - 1)) then
    let t := State.rearm s (s.openTag m.ident)
    let t := { t with brx.closing := t.brx.closing.filter fun c => c.acks != [] || !c.steps.contains m.ident }
    if t.brx.swapTag = some tag then
      { t with brx.swapTag := none, brx.swapNow := true, brx.openWait := t.brx.openWait ++ [(p, m.ident)] }
    else ack t ackDone
  else ack s ackState

/-- TAG_CLOSE (R225): the tags named that are open are closed; a copy, or a closure that an alarm, a marker or a hang
began, is completed by steps 6 and 7. -/
def State.brxTagClose (s : State) (p : Fin 2) (m : CtlMsg) : State :=
  if !m.formOk 8 || m.get 0 1 > 3 || !zeroBytes m.bytes 2 6 then
    s.brxAck p 0x12 m.ident m.jobId ackMalformed
  else if !s.brxJobOk m then s.brxAck p 0x12 m.ident m.jobId ackState
  else
    let both := (m.get 0 1).testBit 0
    let named := if both && (m.get 0 1).testBit 1 then [m.ident, m.ident + 1] else if m.get 0 1 = 0 then [] else [m.ident]
    let isNamed := fun (k : W64) => named.any fun x => x.setWidth 8 == k.setWidth 8
    let old := match s.brx.older with | some o => isNamed o.step | none => false
    let new := match s.brx.newer with | some n => isNamed n.step | none => false
    if old then s.closeTags true (some 2) [(p, m.ident)]
    else if new then s.closeTags false (some 2) [(p, m.ident)]
    else if s.brx.closing.any (fun c => c.steps.any isNamed) then
      let copy := fun (c : BrxClose) => if c.steps.any isNamed then { c with acks := c.acks ++ [(p, m.ident)] } else c
      State.closeDone { s with brx.closing := s.brx.closing.map copy }
    else s.brxAck p 0x12 m.ident m.jobId
      (if s.brx.heldBack.any fun t => named.any fun x => x.setWidth 8 == t then ackIncomplete else ackDone)

/-- TAG_COMMIT (R223). -/
def State.brxTagCommit (s : State) (p : Fin 2) (m : CtlMsg) : State :=
  let ack := fun (t : State) (st : Byte) => t.brxAck p 0x13 m.ident m.jobId st
  if !m.formOk 0 then ack s ackMalformed
  else if !s.brxJobOk m then ack s ackState
  else if s.brx.older.any fun o => o.step.setWidth 8 == m.ident.setWidth 8 then
    ack (State.rearm s { s with brx.older := s.brx.newer, brx.newer := none, brx.retired := some m.ident }) ackDone
  else if s.brx.retired = some m.ident then ack s ackDone
  else ack s ackState

/-- A directive is in form (R178). -/
def directiveOk (m : CtlMsg) : Bool :=
  m.formOk 64 && m.get 0 2 == 0x33 && m.get 8 8 == m.ident.toNat && 1 ≤ m.get 0x11 1 && m.get 0x11 1 ≤ 16 &&
  m.get 0x12 1 ≤ 5 && zeroBytes m.bytes 2 2 && zeroBytes m.bytes 0x13 5 &&
  (List.range 5).all fun r =>
    if r < m.get 0x12 1 then m.get (0x18 + 8 * r) 2 ≤ m.get (0x1A + 8 * r) 2 else zeroBytes m.bytes (0x18 + 8 * r) 8

/-- DIRECTIVE (R178): the first copy for each step is kept. -/
def State.brxDirective (s : State) (p : Fin 2) (m : CtlMsg) : State :=
  let ack := fun (t : State) (st : Byte) => t.brxAck p 0x14 m.ident m.jobId st
  if !directiveOk m then ack s ackMalformed
  else if !s.brxJobOk m then ack s ackState
  else if s.brx.directives.any fun d => d.1 == m.ident then ack s ackDone
  else ack { s with brx.directives := (m.ident, sliceBytes m.bytes 0 64) :: s.brx.directives } ackDone

/-- RESET_DOMAIN (R228), steps 1 and 2. -/
def State.brxResetDomain (s : State) (p : Fin 2) (m : CtlMsg) : State :=
  match s.brx.reset with
  | some r =>
    if r.ident == m.ident then { s with brx.reset := some { r with acks := r.acks ++ [p] } }
    else s.brxOnce p m <|
      if !m.formOk 8 || !zeroBytes m.bytes 2 6 || m.get 0 2 == 0 || 2 ^ s.capFld 5 1 ≤ m.get 0 2 then
        s.brxDone p 0x15 m ackMalformed
      else s.brxDone p 0x15 m ackState
  | none =>
    s.brxOnce p m <|
      if !m.formOk 8 || !zeroBytes m.bytes 2 6 || m.get 0 2 == 0 || 2 ^ s.capFld 5 1 ≤ m.get 0 2 then
        s.brxDone p 0x15 m ackMalformed
      else if s.brx.older.isSome || s.brx.newer.isSome then s.brxDone p 0x15 m ackState
      else
        let mask := BitVec.ofNat 16 (m.get 0 2)
        let t := { s with brx.gen := s.brx.gen + 1, brx.reset := some ⟨mask, false, 0, m.ident, [p]⟩ }
        ((t.bump .brxResets).emit (.accel (.genOut t.brx.gen))).emit (.accel (.domReset mask true))

/-- End a RESET_DOMAIN with its acknowledgements (R228 steps 5 and 6). -/
def State.resetEnd (s : State) (r : BrxReset) (st : Byte) (result : W32) : State :=
  let bearing := (List.range 16).any fun d => r.mask.getLsbD d && ((capDomain s.capBytes d).2.1).testBit 0
  let t := if bearing then { s with brx.ring := [], brx.ringNext := 0 } else s
  let t := { t with brx.reset := none, brx.heldBack := if st = ackDone then [] else t.brx.heldBack }
  let t := (t.raise .brxIntStatus 4).brxRecord r.ident 0x15 st result
  r.acks.foldl (fun u p => u.brxAck p 0x15 r.ident u.brx.job st result) t

/-- The staged bank is the one that is not active (R243). -/
def Brx.staged (b : Brx) : Tbl W64 := if b.activeBank then b.bank0 else b.bank1

/-- Replace the staged bank. -/
def State.setStaged (s : State) (t : Tbl W64) : State :=
  if s.brx.activeBank then { s with brx.bank0 := t } else { s with brx.bank1 := t }

/-- ROUTE_STAGE (R243, R244). -/
def State.brxRouteStage (s : State) (p : Fin 2) (m : CtlMsg) : State :=
  s.brxOnce p m <|
    let off := m.get 0 4
    let n := m.get 4 4
    if !m.formOk (8 + n) || off % 8 != 0 || n % 8 != 0 || n < 8 || n > 1024 then s.brxDone p 0x16 m ackMalformed
    else if off + n > 8 * s.capFld 0x2A 2 then s.brxDone p 0x16 m ackCapacity
    else
      let bank := (List.range (n / 8)).foldl (fun t i => Tbl.set t (off / 8 + i) (BitVec.ofNat 64 (m.get (8 + 8 * i) 8)))
        s.brx.staged
      -- a swap that was due is cancelled (R244): the TAG_OPEN that waited for it is done, and its ROUTE_COMMIT is not (log entry 51)
      let t := s.brx.openWait.foldl (fun u a => u.brxAck a.1 0x11 a.2 u.brx.job ackDone) (s.setStaged bank)
      let t := s.brx.swapAcks.foldl (fun u a => (u.brxRecord a.2 0x17 ackState).brxAck a.1 0x17 a.2 u.brx.job ackState) t
      ({ t with brx.swapTag := none, brx.swapNow := false, brx.swapAcks := [], brx.openWait := [] }).brxDone p 0x16 m ackDone

/-- ROUTE_COMMIT (R243). -/
def State.brxRouteCommit (s : State) (p : Fin 2) (m : CtlMsg) : State :=
  if s.brx.swapAcks.any (fun a => a.2 == m.ident) then { s with brx.swapAcks := s.brx.swapAcks ++ [(p, m.ident)] }
  else s.brxOnce p m <|
    let count := m.get 0 4
    let imm := (m.get 4 1).testBit 0
    if !m.formOk 40 || m.get 4 1 > 1 || !zeroBytes m.bytes 6 2 || (imm && m.get 5 1 != 0) then
      s.brxDone p 0x17 m ackMalformed
    else if count > s.capFld 0x2A 2 then s.brxDone p 0x17 m ackCapacity
    else if (shake256 ((List.range count).flatMap fun i => leBytes 8 (Tbl.get s.brx.staged 0 i).toNat)).toNat !=
        m.get 8 32 then s.brxDone p 0x17 m ackDigest
    else if !imm then
      -- a swap that is due already is made all the same (log entry 51)
      ({ s with brx.swapTag := some (BitVec.ofNat 8 (m.get 5 1)) }).brxDone p 0x17 m ackDone
    else if s.brx.older.isSome || s.brx.newer.isSome then s.brxDone p 0x17 m ackState
    else { s with brx.swapTag := none, brx.swapNow := true, brx.swapAcks := s.brx.swapAcks ++ [(p, m.ident)] }

/-- FREEZE (R242): refused while capture is off or a frame is held. -/
def State.brxFreezeCmd (s : State) (p : Fin 2) (m : CtlMsg) : State :=
  s.brxOnce p m <|
    if !m.formOk 0 then s.brxDone p 0x18 m ackMalformed
    else if s.fld .brxCtrl 1 1 = 0 then s.brxDone p 0x18 m ackState
    else
      let busy := s.brx.freezeHeld.isSome || s.brx.freezing.isSome
      (s.freezeTrigger false p m.ident).brxDone p 0x18 m (if busy then ackState else ackDone)

/-- LEAVE (R218). -/
def State.brxLeave (s : State) (p : Fin 2) (m : CtlMsg) : State :=
  s.brxOnce p m <|
    if !m.formOk 0 then s.brxDone p 0x1B m ackMalformed
    else if s.brx.closing.any (fun c => c.acks != []) then { s with brx.leaveWait := s.brx.leaveWait ++ [(p, m.ident)] }
    else (s.leaveNow).brxDone p 0x1B m ackDone

/-! ### Registers of the block (R245 to R250) -/

/-- The value of a register of the Bruix block. -/
def State.brxReg (s : State) (r : Reg) (i : Nat) : W32 :=
  let b := s.brx
  match r with
  | .brxInfo => BitVec.ofNat 32 (2 ^ 24 + b.revision.val)
  | .brxStatus => BitVec.ofNat 32 (b.gen.toNat * 2 ^ 24 + (if b.hang then 2 ^ 14 else 0) +
      (if b.reset.isSome then 2 ^ 13 else 0) + (if b.activeBank then 2 ^ 12 else 0) +
      (if b.swapTag.isSome || b.swapNow then 2 ^ 11 else 0) + (if b.freezeHeld.isSome then 2 ^ 10 else 0) +
      (if b.job != 0 then 2 ^ 9 else 0) + (if s.brxUp 1 then 2 ^ 8 else 0) + (if s.brxUp 0 then 2 ^ 7 else 0))
  | .brxTags =>
    let tag := fun (t : Option BrxTag) => match t with | some t => t.step.toNat % 256 | none => 0
    BitVec.ofNat 32 (tag b.newer * 2 ^ 24 + tag b.older * 2 ^ 16 + (if b.newer.isSome then 2 else 0) +
      (if b.older.isSome then 1 else 0))
  | .brxSite => BitVec.ofNat 32 (b.logical.toNat * 2 ^ 16 + b.physical.toNat)
  | .brxWdog =>
    if i < s.capFld 6 1 then
      s.rd .brxWdog i ||| BitVec.ofNat 32 ((if s.wdogArmed i then 2 ^ 30 else 0) + (if b.expired.getLsbD i then 2 ^ 29 else 0))
    else 0
  | .brxJobId => b.job
  | .brxHangMask => b.hangMask.setWidth 32
  | .brxCursorLo => (b.cursors.getD i 0).setWidth 32
  | .brxCursorHi => ((b.cursors.getD i 0) >>> 32).setWidth 32
  | .brxFreeze => BitVec.ofNat 32 (fieldLE ((b.freezeHeld.map BrxFreeze.data).getD []) (4 * i) 4)
  | _ => s.rd r i

/-- Read a 32-bit register at an offset of the block's window, with the effects of R11 and R12. Pairs lie apart from
the BAR0 pairs in the shadow table. -/
def State.brxRead (s : State) (off : Nat) : W32 × State :=
  if off % 4 ≠ 0 then (0, s)
  else match findReg Reg.ofBrx off with
  | none => (0, s)
  | some (r, i) =>
    let v := s.brxReg r i
    let key := 2 ^ 25 + off
    match r.hi?, r.lo? with
    | some h, _ => (v, { s with shadow := Tbl.set s.shadow key (s.brxReg h i) })
    | _, some _ =>
      if Tbl.has s.shadow (key - 4) then (Tbl.get s.shadow 0 (key - 4), { s with shadow := Tbl.erase s.shadow (key - 4) })
      else (v, s)
    | none, none => (v, if r.row.maskOf .rc = 0 then s else s.wr r (readWord r (s.rd r i)) i)

/-- Release the held freeze frame (R242). -/
def State.freezeRelease (s : State) : State := { s with brx.freezeHeld := none }

/-- Write a 32-bit register of the block's window (R12, R13, R245): cap_lock never clears, freeze_release acts. -/
def State.brxWrite (s : State) (off : Nat) (v : W32) (localSide : Bool) : State :=
  if off % 4 ≠ 0 then s
  else match findReg Reg.ofBrx off with
  | none => s
  | some (r, i) =>
    let lock := (s.rd .brxCtrl).getLsbD 0
    if localSide && !(r == .brxCap || r == .brxCtrl || r == .brxIntStatus || r == .brxIntEnable) then s
    else if r = .brxCtrl then
      let old := s.rd .brxCtrl
      let v := if localSide then (old &&& ~~~1#32) ||| (v &&& 1#32) else v
      let t := s.wr .brxCtrl (writeWord r false old v ||| (old &&& 1#32))
      if v.getLsbD 3 && !localSide then t.freezeRelease else t
    else s.wr r (writeWord r lock (s.rd r i) v) i

/-- REG_READ (R214, R217). -/
def State.brxRegRead (s : State) (p : Fin 2) (m : CtlMsg) : State :=
  let off := m.get 0 4
  let n := m.get 4 1
  if !m.formOk 8 || off % 4 != 0 || n == 0 || n > 64 || !zeroBytes m.bytes 5 3 then
    s.brxAck p 0x19 m.ident m.jobId ackMalformed
  else
    let (ws, t) := (List.range n).foldl (fun (a : List W32 × State) i =>
      let (w, u) := a.2.brxRead (off + 4 * i)
      (a.1 ++ [w], u)) ([], s)
    t.brxAnswer p 0x26 0 m.jobId (leBytes 4 off ++ leBytes 1 n ++ [0, 0, 0] ++ ws.flatMap fun w => leBytes 4 w.toNat)

/-- REG_WRITE (R214, R217): the result is what the register then holds. -/
def State.brxRegWrite (s : State) (p : Fin 2) (m : CtlMsg) : State :=
  s.brxOnce p m <|
    if !m.formOk 8 then s.brxDone p 0x1A m ackMalformed
    else
      let off := m.get 0 4
      let t := s.brxWrite off (BitVec.ofNat 32 (m.get 4 4)) false
      let after : W32 := match findReg Reg.ofBrx off with
        | some (r, i) => if off % 4 = 0 then t.brxReg r i else 0
        | none => 0
      (State.rearm s t).brxDone p 0x1A m ackDone after

/-! ### The stream window (R219 to R222) -/

/-- Fix the directive of a tag at its first stream packet or tile select (R178): the step's own, else the newest held
(stale), else the reset directive (stale). -/
def State.fixDirective (s : State) (t : BrxTag) : BrxTag :=
  match t.directive with
  | some _ => t
  | none =>
    match s.brx.directives.find? (fun d => d.1 == t.step), s.brx.directives with
    | some d, _ => { t with directive := some (d.2, false) }
    | none, d :: _ => { t with directive := some (d.2, true) }
    | none, [] =>
      { t with directive := some (sliceBytes (leBytes 2 0x33 ++ [0, 0] ++ leBytes 4 8589935 ++ leBytes 8 t.step.toNat ++
          [55, 5, 0]) 0 64, true) }

/-- Advance rt over every leading set bit (R219). -/
def advanceRt (fuel got : Nat) (bm : BitVec 1024) : Nat × BitVec 1024 :=
  match fuel with
  | 0 => (got, bm)
  | n + 1 => if bm.getLsbD 0 then advanceRt n (got + 1) (bm >>> 1) else (got, bm)

/-- The stream header is in form for an open tag (R156, R219). -/
def streamHdrOk (c : List Byte) (step : W64) : Bool :=
  fieldLE c 0 1 == 1 && fieldLE c 0x12 2 < 16 && streamFormat (frFormat (fieldLE c 1 1)) && frValid (fieldLE c 1 1) &&
  1 ≤ fieldLE c 0x10 2 && fieldLE c 0x10 2 ≤ 4096 && fieldLE c 0x18 8 == step.toNat

/-- The ring writes of a packet at an offset, split where it passes the end of the ring (R221). -/
def ringWrites (window off : Nat) (c : List Byte) : List OutMsg :=
  let off := off % window
  if off + c.length ≤ window then [.accel (.ringWrite off c)]
  else [.accel (.ringWrite off (c.take (window - off))), .accel (.ringWrite 0 (c.drop (window - off)))]

/-- Post the oldest complete entry that has not been announced on the arrival queue, which holds 64: an entry's place is free again with its
consume (R210, R221, log entry 50). -/
def State.announce (s : State) : State :=
  if 64 ≤ (s.brx.ring.filter BrxEntry.announced).length then s
  else match s.brx.ring.find? fun e => !e.announced && e.accepted == e.bytes with
    | none => s
    | some e => { s with brx.ring := s.brx.ring.map fun x => if x == e then { x with announced := true } else x }.emit
        (.accel (.entryReady e.index (e.step.setWidth 8) e.offset e.bytes))

/-- Accept a stream packet into the ring (R221). -/
def State.ringAccept (s : State) (k : Packet) (step : W64) : State :=
  let c := k.content
  let window := max (s.capFld 0x18 4) 1
  let idx := BitVec.ofNat 32 (fieldLE c 4 4)
  let bytes := fieldLE c 0x14 4
  let here := fun (e : BrxEntry) => e.step == step && e.index == idx
  let s := if s.brx.ring.any here then s
    else { s with brx.ring := s.brx.ring ++ [⟨step, idx, s.brx.ringNext, bytes, 0, false⟩]
                  brx.ringNext := (s.brx.ringNext + bytes) % window }
  let full := unitBytes (frFormat (fieldLE c 1 1)) 4096 ((fieldLE c 0x12 2).testBit 3)
  let off := ((s.brx.ring.find? here).map BrxEntry.offset).getD 0
  let s := s.emitAll (ringWrites window (off + k.hdr.unit.toNat * full) c)
  let take := fun (e : BrxEntry) => if here e then { e with accepted := e.accepted + c.length } else e
  State.announce { s with brx.ring := s.brx.ring.map take }

/-- A stream packet arrives (R219, R224, R227). -/
def State.brxStream (s : State) (k : Packet) : State :=
  match s.brx.find k.hdr.tag with
  | none => s.bump .brxTagDiscards
  | some (pos, t) =>
    if k.hdr.gen ≠ s.brx.gen then s.bump .brxGenDiscards
    else if !streamHdrOk k.content t.step then s.brxSeqErr
    else
      let t := s.fixDirective t
      let s := s.setTag pos t
      let q := k.hdr.seq.toNat
      if q < t.got ∨ (q < t.got + 1024 ∧ t.bitmap.getLsbD (q - t.got)) then s.bump .brxDupDiscards
      else if t.got + 1024 ≤ q then s.brxSeqErr
      else
        let (g, bm) := advanceRt 1024 t.got (t.bitmap ||| BitVec.ofNat 1024 (2 ^ (q - t.got)))
        ((s.setTag pos { t with got := g, bitmap := bm }).bump .brxStreamPkts).ringAccept k t.step

/-- The accelerator returns a consume (R222); it stalls while the release cannot be held (R220). -/
def State.brxConsume (s : State) (entry : W32) (tag : Byte) : State :=
  match s.brx.find tag, s.brx.ring with
  | some (_, t), e :: rest =>
    if e.step == t.step && e.index == entry && e.announced then
      if !s.brxRoom 32 then s
      else (({ s with brx.ring := rest }).brxTell 0x20 t.step (leBytes 4 entry.toNat ++ [tag, 0, 0, 0])).announce
    else (s.brxSeqErr).emit (.accel (.refused 0x222))
  | _, _ => (s.brxSeqErr).emit (.accel (.refused 0x222))

/-! ### The gradient path (R236, R237) -/

/-- A gradient slice descriptor keeps the rules of R236. -/
def State.sliceOk (s : State) (d : GradSlice) : Bool :=
  let off := d.first.toNat - d.layerFirst.toNat
  d.layerFirst.toNat ≤ d.first.toNat && off % 16384 == 0 && 1 ≤ d.count.toNat && off + d.count.toNat ≤ d.layerCount.toNat &&
  (d.count.toNat % 16384 == 0 || off + d.count.toNat == d.layerCount.toNat) && d.fmt == s.brx.gradFmt

/-- The gate on an item of a tag and a generation (R224, R227): the state to continue with where it passes. -/
def State.brxGate (s : State) (tag gen : Byte) (run : Bool → BrxTag → State) : State :=
  match s.brx.find tag with
  | none => s.bump .brxTagDiscards
  | some (pos, t) => if gen = s.brx.gen then run pos t else s.bump .brxGenDiscards

/-- A gradient slice descriptor is submitted (R236); a full queue, of 256, takes none (R210, log entry 50). -/
def State.brxSlice (s : State) (d : GradSlice) : State :=
  s.brxGate d.tag d.gen fun _ _ =>
    if s.sliceOk d then (if 256 ≤ s.brx.slices.length then s else { s with brx.slices := s.brx.slices ++ [⟨d, 0, 0⟩] })
    else (s.brxSeqErr).emit (.accel (.refused 0x236))

/-- The gradient packet header (R236). -/
def gradHdr (ty : Nat) (d : GradSlice) (last first count flags : Nat) (step : W64) : List Byte :=
  leBytes 1 ty ++ leBytes 1 d.fmt.val ++ leBytes 2 d.layer.toNat ++ leBytes 4 last ++ leBytes 8 first ++ leBytes 4 count ++
    leBytes 2 flags ++ [0, 0] ++ leBytes 8 step.toNat

/-- The oldest slice with elements left sends its next packet, of at most 4,096 elements that the DMA read gives
(R236); the packet's finite values enter the layer's signature (R192). None goes while the outbound buffer has no space (R220). -/
def State.brxGradTx (s : State) (scales : List Byte) (elems : List Nat) : State :=
  match s.brx.slices.find? (fun c => c.sentElems < c.desc.count.toNat) with
  | none => s
  | some c =>
    match s.brx.find c.desc.tag with
    | none => s
    | some (pos, t) =>
      let n := min 4096 (c.desc.count.toNat - c.sentElems)
      let fmt := c.desc.fmt.val
      let es := (elems ++ List.replicate n 0).take n
      let nPad := if formatMx fmt then (n + 31) / 32 * 32 else n
      let nb := if formatMx fmt then (n + 31) / 32 else 0
      let body := padTo 32 (sliceBytes scales 0 nb) ++
        padTo 32 (packBits (fmtBits (formatCode fmt)) (es ++ List.replicate (nPad - n) 0))
      let content := gradHdr 2 c.desc 0 (c.desc.first.toNat + c.sentElems) n 0 t.step ++ body
      if !s.brxRoom content.length then s else
      let vals := (es.zipIdx.map fun p => elemVal fmt scales p.2 p.1).filter fun v => !valNonfinite v
      let sig := vals.foldl (fun a v => welfordAdd a (val64 v)) (Tbl.get t.sigs (0, 0, 0) c.desc.layer.toNat)
      let u := s.emit (.accel (.gradRead c.desc.addr (BitVec.ofNat 64 (c.desc.first.toNat + c.sentElems)) n))
      let u := u.brxSend 1 (s.brxPkt 2 (some t.step) c.desc.gen t.gradSeq content)
      let u := u.setTag pos { t with gradSeq := t.gradSeq + 1, gradPkts := t.gradPkts + 1
                                     sigs := Tbl.set t.sigs c.desc.layer.toNat sig }
      let u := { u with brx.slices := u.brx.slices.map fun x =>
        if x == c then { x with sentElems := x.sentElems + n, lastSeq := t.gradSeq } else x }
      u.bump .brxGradPkts

/-- The record header that a tap report and a signature share (R188). -/
def tapHdr (ty site pass layer matmul step k n bFirst bStride flags cFr profile rows mean s2 : Nat) : List Byte :=
  leBytes 2 ty ++ leBytes 1 site ++ leBytes 1 pass ++ leBytes 2 layer ++ leBytes 2 matmul ++ leBytes 8 step ++ leBytes 4 k ++
    leBytes 4 n ++ leBytes 8 bFirst ++ leBytes 4 bStride ++ leBytes 1 flags ++ leBytes 1 cFr ++ leBytes 2 profile ++
    leBytes 8 rows ++ leBytes 8 mean ++ leBytes 8 s2

/-- Send a sample-channel item of a tag to both ports, numbered in the tag's records (R261). -/
def State.brxSampleAll (s : State) (pos : Bool) (t : BrxTag) (gen : Byte) (content : List Byte) : State :=
  (s.brxSend 3 (s.brxPkt 3 (some t.step) gen t.sampleSeq (padTo 32 content))).setTag pos
    { t with sampleSeq := t.sampleSeq + 1 }

/-- The end-of-slice marker of the oldest slice once all its packets are queued, for a layer's last slice only after the taps opened for
the layer have closed, and then the layer's signature (R237, R192). A port sends the reports before the marker and the signature
after it (`Packet.leads`). None goes while the outbound buffer has no space (R220). -/
def State.brxEndOfSlice (s : State) : State :=
  match s.brx.slices with
  | [] => s
  | c :: rest =>
    let d := c.desc
    match s.brx.find d.tag with
    | none => s
    | some (pos, t) =>
      if c.sentElems < d.count.toNat || !s.brxRoom 192 ||
        (d.lastOfLayer && s.brx.taps.any fun x => x.desc.tag == d.tag && x.desc.layer == d.layer) then s
      else
        let content := gradHdr 3 d c.lastSeq d.first.toNat d.count.toNat (if d.lastOfLayer then 1 else 0) t.step
        let u := s.brxSend 1 (s.brxPkt 2 (some t.step) d.gen t.gradSeq content)
        let t := { t with gradSeq := t.gradSeq + 1 }
        let u := ({ u with brx.slices := rest }).setTag pos t
        if d.lastOfLayer then
          let g := Tbl.get t.sigs (0, 0, 0) d.layer.toNat
          u.brxSampleAll pos t d.gen (tapHdr 0x32 (siteNo s.brx.logical) 2 d.layer.toNat 0 t.step.toNat 0 0 0 0 0 0 0 g.1
            g.2.1 g.2.2)
        else u

/-! ### Taps (R188, R238) -/

/-- Accumulate a row of elements into sums and sums of magnitudes, in binary64 with RNE (R188). -/
def tapRow (fmt : Nat) (scales : List Byte) (elems sums mags : List Nat) (n : Nat) : List Nat × List Nat :=
  let vs := (List.range n).map fun j => elemVal fmt scales j (elems.getD j 0)
  ((List.range n).map fun j => add64 (sums.getD j 0) (val64 (vs.getD j .nan)),
   (List.range n).map fun j => add64 (mags.getD j 0) (val64 (valAbs (vs.getD j .nan))))

/-- A tap with one more row of A or C. -/
def BrxTap.row (x : BrxTap) (cRow : Bool) (scales : List Byte) (elems : List Nat) : BrxTap :=
  if cRow then
    let r := tapRow (frFormat x.desc.cFr.toNat) scales elems x.sc x.uc x.desc.n.toNat
    { x with cRows := x.cRows + 1, sc := r.1, uc := r.2 }
  else
    let r := tapRow x.desc.aFmt.val scales elems x.sa x.ta x.desc.k.toNat
    { x with aRows := x.aRows + 1, sa := r.1, ta := r.2 }

/-- The tap report of a closed tap (R188). -/
def BrxTap.report (x : BrxTap) (site : Nat) (step : W64) : List Byte :=
  tapHdr 0x31 site x.desc.pass.val x.desc.layer.toNat x.desc.matmul.toNat step.toNat x.desc.k.toNat x.desc.n.toNat
    x.desc.bFirst.toNat x.desc.bStride.toNat (if x.desc.bTranspose then 1 else 0) x.desc.cFr.toNat x.desc.profileId.toNat
    x.desc.rows.toNat 0 0 ++ (x.sa ++ x.ta ++ x.sc ++ x.uc).flatMap (leBytes 8)

/-- Close a tap whose last C row has passed. -/
def State.tapClose (s : State) (pos : Bool) (t : BrxTag) (x : BrxTap) : State :=
  if x.cRows < x.desc.rows.toNat then s
  else
    let u : State := { s with brx.taps := s.brx.taps.filter fun y => y != x }
    (u.brxSampleAll pos { t with taps := t.taps + 1 } x.desc.gen (x.report (siteNo s.brx.logical) t.step)).bump .brxTapsSent

/-- The row would close the tap, and the outbound buffer has no space for the report (R220). -/
def State.tapStalls (s : State) (x : BrxTap) : Bool :=
  x.desc.rows.toNat ≤ x.cRows && !s.brxRoom (64 + 8 * (x.sa.length + x.ta.length + x.sc.length + x.uc.length))

/-- A row of a matmul passes the tap port (R238): the first opens a tap, of at most 16; the last C row closes it and
sends its report. A row that cannot be taken stalls the accelerator (R210, R220, log entry 50). -/
def State.brxTap (s : State) (d : TapData) (cRow : Bool) (scales : List Byte) (elems : List Nat) : State :=
  s.brxGate d.tag d.gen fun pos t =>
    let isIt := fun (x : BrxTap) => x.desc.tag == d.tag && x.desc.layer == d.layer && x.desc.pass == d.pass &&
      x.desc.matmul == d.matmul
    match s.brx.taps.find? isIt with
    | none =>
      let x := (⟨d, 0, 0, [], [], [], []⟩ : BrxTap).row cRow scales elems
      if 16 ≤ s.brx.taps.length || s.tapStalls x then s
      else ({ s with brx.taps := s.brx.taps ++ [x] }).tapClose pos t x
    | some x0 =>
      let x := x0.row cRow scales elems
      if s.tapStalls x then s
      else ({ s with brx.taps := s.brx.taps.map fun y => if isIt y then x else y }).tapClose pos t x
end Sys2Proof.Machine
end

