-- ==== Sys2Proof/Machine/BruixStep.lean ====
section
/-! DEFINITION. The Bruix block, second part: tile samples, leases and cursors, the end of a step, watchdogs, abort
markers, closures, resets, route swaps, freeze frames and the power-on reset (08_bruix_block.md). -/
namespace Sys2Proof.Machine

/-! ### Tile selection and samples (R178 to R181, R239, R240) -/

/-- The temperature bin of T under a directive (R178). -/
def tempBin (dir : List Byte) (t : Int) : Nat :=
  let base : Int := (BitVec.ofNat 8 (fieldLE dir 0x10 1)).toInt
  let w : Int := fieldLE dir 0x11 1
  (min (max ((t - base) / w + 1) 0) 7).toNat

/-- The selection threshold of a tile under a directive: the highest-numbered matching rule, else base_thresh (R179). -/
def sampleThreshold (dir : List Byte) (layer bin cls : Nat) : Nat :=
  (List.range (fieldLE dir 0x12 1)).foldl (fun th r =>
    let o := 0x18 + 8 * r
    if fieldLE dir o 2 ≤ layer ∧ layer ≤ fieldLE dir (o + 2) 2 ∧ (fieldLE dir (o + 4) 1).testBit bin ∧
        (fieldLE dir (o + 5) 1 = 0xFF ∨ fieldLE dir (o + 5) 1 = cls) then fieldLE dir (o + 6) 2 * 65536 else th)
    (fieldLE dir 4 4)

/-- The selection word of a tile (R179). -/
def selectionWord (job step site layer pass matmul tile : Nat) : Nat :=
  nth (philox job (step % 2 ^ 32) tile (layer * 65536 + pass * 16384 + matmul) (step / 2 ^ 32)
    (3 * 2 ^ 24 + site * 2 ^ 16)) 0

/-- Bytes of `lines` lines of `n` elements, padded once to 32 (R180). -/
def itemBytes (fmt lines n : Nat) : Nat :=
  up32 (lines * ((if formatMx fmt then (n + 31) / 32 else 0) + (fmtBits (formatCode fmt) * n + 7) / 8))

/-- payload_bytes of a tile's record (R180). -/
def TileDesc.payload (d : TileDesc) (bRef : Bool) : Nat :=
  itemBytes d.aFmt.val d.m.toNat d.k.toNat + (if bRef then 0 else itemBytes d.bFmt.val d.n.toNat d.k.toNat) +
    (if d.cIn then 2 else 1) * itemBytes (frFormat d.cFr.toNat) d.m.toNat d.n.toNat

/-- Whether the block sets b_ref (R239). -/
def TileDesc.bRef (d : TileDesc) : Bool :=
  d.bFromStream && d.pass != 2 && (!formatMx d.bFmt.val ||
    (d.bTranspose && d.k.toNat % 32 == 0 && d.bFirst.toNat % 32 == 0 && d.bStride.toNat % 32 == 0))

/-- A tile descriptor is in form (R239). -/
def State.tileOk (s : State) (d : TileDesc) : Bool :=
  d.cls != 0xFF && d.profileId != 0 && (List.range 4).any (fun i => s.capFld (0x20 + 2 * i) 2 == d.profileId.toNat) &&
    d.gsLog2.toNat ≤ 12 && formatValid d.bFmt.val

/-- A tile descriptor at the sample select port (R239, R179), with BRX_TEMP as it reads when the descriptor arrives. -/
def State.tileSelect (s : State) (temp : Byte) (d : TileDesc) : State :=
  let s := { s with brx.temp := temp.toInt }
  let no := fun (t : State) => t.emit (.accel (.tileSelect false false))
  match s.brx.find d.tag with
  | none => no (s.bump .brxTagDiscards)
  | some (pos, t) =>
    if d.gen ≠ s.brx.gen then no (s.bump .brxGenDiscards)
    else if !s.tileOk d then no s.brxSeqErr
    else
      let t := s.fixDirective t
      let dir := (t.directive.map Prod.fst).getD []
      let stale := (t.directive.map Prod.snd).getD false
      let bin := tempBin dir s.brx.temp
      let word := selectionWord s.brx.job.toNat t.step.toNat (siteNo s.brx.logical) d.layer.toNat d.pass.val d.matmul.toNat
        d.tile.toNat
      if sampleThreshold dir d.layer.toNat bin d.cls.toNat ≤ word then no (s.setTag pos t)
      else
        let t := { t with selected := t.selected + 1 }
        let s := s.bump .brxSamplesSelected
        if d.k.toNat % 2 ^ d.gsLog2.toNat ≠ 0 ∨ 8 * 2 ^ 20 < d.payload d.bRef then
          no (s.setTag pos { t with unsampled := t.unsampled + 1 })
        else
          let s := s.setTag pos t
          ({ s with brx.captures := s.brx.captures ++ [(⟨d, Fin.ofNat 8 bin, stale, d.bRef⟩ : BrxCapture)] }).emit
            (.accel (.tileSelect true d.bRef))

/-- The 64-byte header of a sample record (R180). -/
def sampleHdr (c : BrxCapture) (site step seqNo payload : Nat) : List Byte :=
  let d := c.desc
  sliceBytes (leBytes 2 0x30 ++ leBytes 2 d.profileId.toNat ++ leBytes 1 site ++ leBytes 1 c.tempBin.val ++ [d.engine, d.cls] ++
    leBytes 8 step ++ leBytes 2 d.layer.toNat ++ leBytes 1 d.pass.val ++
    leBytes 1 ((if c.stale then 8 else 0) + (if d.bTranspose then 4 else 0) + (if c.bRef then 2 else 0) +
      (if d.cIn then 1 else 0)) ++
    leBytes 4 d.tile.toNat ++ leBytes 2 d.m.toNat ++ leBytes 2 d.n.toNat ++ leBytes 4 d.k.toNat ++ leBytes 2 d.matmul.toNat ++
    leBytes 2 seqNo ++ leBytes 4 d.bStride.toNat ++ leBytes 8 d.bFirst.toNat ++ leBytes 4 payload) 0 64

/-- Bytes of sample records that the sample buffer holds: those queued on a port, a record on both counted once. -/
def State.sampleBuffered (s : State) : Nat :=
  let isRec := fun (t : TxPkt) => t.pkt.hdr.kind == 3
  let a := (s.port 15).txq.filter isRec
  let b := (s.port 16).txq.filter fun t => isRec t && !(a.any fun u => u.pkt.hdr.tag == t.pkt.hdr.tag &&
    u.pkt.hdr.seq == t.pkt.hdr.seq)
  ((a ++ b).map fun t => t.pkt.content.length).sum

/-- Count a sample dropped at source (R240). -/
def State.sampleDrop (s : State) (pos : Bool) (t : BrxTag) : State :=
  (s.setTag pos { t with dropped := t.dropped + 1 }).bump .brxSamplesDropped

/-- The capture of the `i`-th selected tile is complete: send its record on every up port with a sample credit (R240). -/
def State.captureDone (s : State) (i : Nat) (payload : List Byte) : State :=
  match s.brx.captures[i]? with
  | none => s
  | some c =>
    let s := { s with brx.captures := s.brx.captures.eraseIdx i }
    s.brxGate c.desc.tag c.desc.gen fun pos t =>
      let n := c.desc.payload c.bRef
      let can := fun (p : Fin 2) => s.brxUp p && 1 ≤ (s.port (15 + p.val)).credit 3
      if s.sampleBuffer < s.sampleBuffered + 64 + n || !(can 0 || can 1) then s.sampleDrop pos t
      else
        let content := sampleHdr c (siteNo s.brx.logical) t.step.toNat t.sent n ++ sliceBytes payload 0 n
        let mk := s.brxPkt 3 (some t.step) c.desc.gen t.sampleSeq content
        let s := if can 0 then s.queuePkt 15 3 (mk 0) false (!can 1) else s
        let s := if can 1 then s.queuePkt 16 3 (mk 1) false (!can 0) else s
        s.setTag pos { t with sent := t.sent + 1, sampleSeq := t.sampleSeq + 1 }

/-- The capture of the `i`-th selected tile is not complete within the hang interval (R240). -/
def State.captureLate (s : State) (i : Nat) : State :=
  match s.brx.captures[i]? with
  | none => s
  | some c =>
    let s := { s with brx.captures := s.brx.captures.eraseIdx i }
    match s.brx.find c.desc.tag with
    | none => s
    | some (pos, t) => s.sampleDrop pos t

/-! ### Leases and cursors (R233 to R235) -/

/-- A lease request (R234). -/
def State.lease (s : State) (tag : Byte) (stream : W16) (count : W32) : State :=
  let refuse := fun (t : State) => (t.bump .brxLeaseRefused).emit (.accel .leaseRefused)
  match s.brx.find tag with
  | none => refuse (s.bump .brxTagDiscards)
  | some (pos, t) =>
    let c := Tbl.get t.draws 0 stream.toNat
    if s.capFld 0x28 2 ≤ stream.toNat ∨ count.toNat = 0 ∨ 65536 < count.toNat ∨ 2 ^ 32 ≤ c + count.toNat then refuse s
    else
      (s.setTag pos { t with draws := Tbl.set t.draws stream.toNat (c + count.toNat) }).emit (.accel (.grant
        [s.brx.job, s.brx.seed]
        [BitVec.ofNat 32 c, (s.brx.logical.setWidth 32 <<< 16) ||| stream.setWidth 32, t.step.setWidth 32,
          (t.step >>> 32).setWidth 32]))

/-- A feed cursor advance (R235). -/
def State.cursorAdvance (s : State) (tag : Byte) (feed : Fin 4) (index : W64) : State :=
  let refuse := fun (t : State) => (t.bump .brxCursorRefused).emit (.accel .advanceRefused)
  match s.brx.find tag with
  | none => refuse (s.bump .brxTagDiscards)
  | some (_, t) =>
    if t.done then refuse s
    else if t.snapshot.isSome then s.cursorPut feed.val index
    else if s.brx.cursorQueue.length < 64 then { s with brx.cursorQueue := s.brx.cursorQueue ++ [(tag, feed.val, index)] }
    else s

/-! ### The end of a step (R241) -/

/-- STEP_DONE (R241, R235): the newer tag's snapshot, where still due, is taken now. -/
def State.stepDone (s : State) (tag : Byte) : State :=
  match s.brx.find tag with
  | none => s.bump .brxTagDiscards
  | some (pos, t) =>
    if t.done then s
    else
      let u := s.setTag pos { t with done := true, doneCursors := s.brx.cursors }
      match pos, u.brx.newer with
      | false, some n =>
        if n.snapshot.isSome then u
        else ({ u with brx.newer := some { n with snapshot := some u.brx.cursors } }).cursorDrain (n.step.setWidth 8)
      | _, _ => u

/-- Items of a tag that have not entered the replay buffer of each port that is up (R241). -/
def State.tagPending (s : State) (tag : Byte) : Bool :=
  let mine := fun (k : Packet) => k.hdr.flags.getLsbD 2 && k.hdr.tag == tag
  let queued := fun (p : Fin 2) => s.brxUp p && (s.port (15 + p.val)).txq.any fun t => mine t.pkt
  queued 0 || queued 1 || (s.brx.outbound.any fun x => mine x.2) || (s.brx.taps.any fun x => x.desc.tag == tag) ||
    (s.brx.captures.any fun x => x.desc.tag == tag) || s.brx.slices.any fun x => x.desc.tag == tag

/-- The step report of a tag (R241). -/
def State.reportBody (s : State) (t : BrxTag) : List Byte :=
  let n := s.capFld 0x28 2
  let feeds := s.capFld 0x1E 1
  leBytes 8 t.step.toNat ++ leBytes 2 s.brx.logical.toNat ++ leBytes 2 n ++ leBytes 1 feeds ++ [s.brx.gen, 0, 0] ++
    ((List.range 4).flatMap fun f => leBytes 8 (if f < feeds then (t.doneCursors.getD f 0).toNat else 0)) ++
    leBytes 4 t.selected ++ leBytes 4 t.sent ++ leBytes 4 t.dropped ++ leBytes 4 t.unsampled ++ leBytes 4 t.gradPkts ++
    leBytes 4 t.taps ++ leBytes 4 s.brx.seqErrSince ++ [0, 0, 0, 0] ++
    (List.range n).flatMap fun i => leBytes 4 (Tbl.get t.draws 0 i)

/-- Send the step report of a tag that is done, once (R241). -/
def State.stepReportTx (s : State) (tag : Byte) : State :=
  match s.brx.find tag with
  | none => s
  | some (pos, t) =>
    if !t.done || t.reported || s.tagPending tag then s
    else
      let u := (s.setTag pos { t with reported := true }).brxTell 0x22 t.step (s.reportBody t)
      { u with brx.seqErrSince := 0 }

/-! ### Watchdogs (R229, R230) -/

/-- A progress pulse: counted since the watchdog was last armed (R217, R229). -/
def State.progressPulse (s : State) (k : Fin 16) : State :=
  { s with brx.pulses := setAt s.brx.pulses k.val ((s.brx.pulses.getD k.val 0 + 1) % 2 ^ 32) }

/-- An armed watchdog has seen no pulse for its interval (R229, R230). -/
def State.watchdogExpiry (s : State) (k : Fin 16) : State :=
  if s.wdogArmed k.val && k.val < s.capFld 6 1 then
    ({ s with brx.expired := s.brx.expired ||| BitVec.ofNat 16 (2 ^ k.val) }).declareHang (BitVec.ofNat 16 (2 ^ k.val)) 1 0
  else s

/-! ### Abort markers and closures (R225, R226, R232) -/

/-- The bytes of a marker (R231). -/
def Marker.bytes (m : Marker) : List Byte :=
  [0xA1, m.reason, m.tags, m.flags] ++ leBytes 2 m.origin.toNat ++ leBytes 2 m.abortSeq.toNat ++ leBytes 4 m.jobId.toNat ++
    [m.hops, 0, 0, 0]

/-- The step of ABORT_SEEN: that of the marked tag (R214). -/
def Brx.markedStep (b : Brx) (tag : Byte) : W64 :=
  let known := (b.older.toList ++ b.newer.toList).map BrxTag.step ++ b.closing.flatMap BrxClose.steps
  (known.find? fun k => k.setWidth 8 == tag).getD (tag.setWidth 64)

/-- An abort marker arrives at a fabric port (R232). -/
def State.markerRx (s : State) (fabricPort : Fin 16) (m : Marker) : State :=
  if s.brx.job = 0 ∨ m.jobId ≠ s.brx.job ∨ 64 ≤ m.hops.toNat then s.bump .brxMarkersForeign
  else if s.brx.markersSeen.contains (m.origin, m.abortSeq) then s
  else
    let s := { s with brx.markersSeen := ((m.origin, m.abortSeq) :: s.brx.markersSeen).take 32 }
    let named := (if m.flags.getLsbD 1 then [m.tags] else []) ++ (if m.flags.getLsbD 2 then [m.tags + 1] else [])
    let hit := fun (t : Option BrxTag) => match t with
      | some t => named.contains (t.step.setWidth 8)
      | none => false
    let ident := s.brx.markedStep (if m.flags.getLsbD 1 then m.tags else m.tags + 1)
    let t := if hit s.brx.older then (s.closeTags true none []).raise .brxIntStatus 6
      else if hit s.brx.newer then (s.closeTags false none []).raise .brxIntStatus 6 else s
    let t := (t.emit (.accel (.markerIn m))).emit (.accel (.markerOut { m with hops := m.hops + 1 } (some fabricPort.val)))
    (t.bump .brxMarkersRelayed).brxTell 0x24 ident m.bytes

/-- BRX_ABORT_DONE at a position (R225 step 6). -/
def State.abortDone (s : State) (newer : Bool) : State :=
  let clear := fun (c : BrxClose) => if newer then { c with waitNewer := false } else { c with waitOlder := false }
  State.closeDone { s with brx.closing := s.brx.closing.map clear }

/-- BRX.FABRIC_LIFETIME has elapsed since the oldest closure that still waits for it (R225 step 6, R226). -/
def State.lifetimeElapsed (s : State) : State :=
  let n := (s.brx.closing.takeWhile fun c => c.lifetime).length
  State.closeDone { s with brx.closing := s.brx.closing.modify n fun c => { c with lifetime := true } }

/-- BRX_ABORT_DONE has not come within the hang interval of a TAG_CLOSE (R225): answer ABORT_INCOMPLETE, hold the tags
back and declare a hang. -/
def State.abortIncomplete (s : State) : State :=
  match s.brx.closing.find? fun c => c.acks != [] && (c.waitOlder || c.waitNewer) with
  | none => s
  | some c =>
    let t := c.acks.foldl (fun u a => u.brxAck a.1 0x12 a.2 u.brx.job ackIncomplete) s
    let t := { t with brx.closing := t.brx.closing.erase c
                      brx.heldBack := (t.brx.heldBack ++ c.steps.map fun k => BitVec.setWidth 8 k).eraseDups }
    (t.declareHang 0 3 (c.steps.headD 0)).closeDone

/-- A transfer arrives at the fabric gate (R224). -/
def State.fabricGate (s : State) (tag : Byte) : State :=
  if (s.brx.find tag).isSome then s.emit (.accel (.fabric true))
  else (s.bump .brxFabricDiscards).emit (.accel (.fabric false))

/-! ### Domain resets (R228) -/

/-- The reset has been held long enough: the domains are released together (R228 steps 3 and 4). -/
def State.resetHoldEnd (s : State) : State :=
  match s.brx.reset with
  | none => s
  | some r =>
    if r.released then s
    else State.rearm s (({ s with brx.reset := some { r with released := true } }).emit (.accel (.domReset r.mask false)))

/-- BRX_DOM_READY of a domain (R228 step 4). -/
def State.domReady (s : State) (d : Fin 16) : State :=
  match s.brx.reset with
  | none => s
  | some r =>
    if !r.released || !r.mask.getLsbD d.val then s
    else
      let r := { r with ready := r.ready ||| BitVec.ofNat 16 (2 ^ d.val) }
      if r.ready = r.mask then s.resetEnd r ackDone 0 else { s with brx.reset := some r }

/-- A domain is not ready within its ready_timeout_ms (R228 step 6). -/
def State.domTimeout (s : State) : State :=
  match s.brx.reset with
  | none => s
  | some r => if r.released then s.resetEnd r ackTimeout ((r.mask &&& ~~~r.ready).setWidth 32) else s

/-! ### Route swaps (R243) -/

/-- No lookup is outstanding: a swap that is due changes the active bank and is acknowledged (R243, R223). -/
def State.routeSwap (s : State) : State :=
  if !s.brx.swapNow then s
  else
    let t := { s with brx.activeBank := !s.brx.activeBank, brx.swapNow := false, brx.swapAcks := [], brx.openWait := [] }
    let t := (t.bump .brxRouteSwaps).raise .brxIntStatus 3
    let t := s.brx.swapAcks.foldl (fun u a => (u.brxRecord a.2 0x17 ackDone).brxAck a.1 0x17 a.2 u.brx.job ackDone) t
    s.brx.openWait.foldl (fun u a => u.brxAck a.1 0x11 a.2 u.brx.job ackDone) t

/-- A route lookup (R243): the entry of the active bank; beyond route_entries the spec states none (log entry 3). -/
def State.routeLookup (s : State) (index : W16) : State :=
  if index.toNat < s.capFld 0x2A 2 then
    s.emit (.accel (.route (Tbl.get (if s.brx.activeBank then s.brx.bank1 else s.brx.bank0) 0 index.toNat)))
  else
    let (v, t) := s.free 64
    t.emit (.accel (.route v))

/-! ### Freeze frames (R242, R490) -/

/-- Pieces of 1,024 bytes: offset and bytes. -/
def framePieces (l : List Byte) : List (Nat × List Byte) :=
  (List.range ((l.length + 1023) / 1024)).map fun i => (1024 * i, (l.drop (1024 * i)).take 1024)

/-- The frame's 32-byte header and points (R490). -/
def BrxFreeze.frame (f : BrxFreeze) (mask : W16) (points : Nat) : List Byte :=
  leBytes 1 (if f.forHang then 2 else 1) ++ [f.gen] ++ leBytes 2 points ++ leBytes 2 mask.toNat ++ [0, 0] ++
    leBytes 8 f.time ++ List.replicate 16 0 ++ f.data

/-- Send the held frame on a port, the last piece releasing it (R242, R490). -/
def State.sendFrame (s : State) (f : BrxFreeze) (p : Fin 2) (frees : Bool) : State :=
  let fr := f.frame s.brx.hangMask (s.capFld 0x2C 2)
  let ps := framePieces fr
  ps.foldl (fun t x => t.brxAnswer p 0x27 f.ident t.brx.job (leBytes 4 x.1 ++ leBytes 4 fr.length ++ x.2)
    (frees && x.1 + x.2.length == fr.length)) s

/-- The freeze points have been collected (R242): the frame is held and sent, to the port of FREEZE or, after a hang, on
both. -/
def State.freezeCaptured (s : State) (points : List Byte) : State :=
  match s.brx.freezing with
  | none => s
  | some f =>
    let f := { f with data := sliceBytes points 0 (64 * s.capFld 0x2C 2) }
    let t := { s with brx.freezing := none, brx.freezeHeld := some f }
    let t := t.raise .brxIntStatus 2
    if f.forHang then
      if t.brxUp 0 then (t.sendFrame f 1 false).sendFrame f 0 true else t.sendFrame f 1 true
    else t.sendFrame f f.port true

/-! ### Local side and reset -/

/-- The local side locks the capability table (R213, R245). -/
def State.capLock (s : State) : State := s.brxWrite 4 1 true

/-- BRX_POR_N (R227): every register, table and port of the block returns to its reset state. -/
def State.brxPor (s : State) : State :=
  let mine := fun (k : Nat) => Reg.ofBrx.any fun r => r.key 0 / 65536 == k / 65536
  { s with
    brx := Brx.por s.brx.physical s.brx.place s.brx.revision s.now
    regs := s.regs.filter fun p => !mine p.1
    shadow := s.shadow.filter fun p => p.1 < 2 ^ 25
    heldLo := s.heldLo.filter fun p => p.1 < 2 ^ 25
    ports := Tbl.erase (Tbl.erase s.ports 15) 16 }

/-- The site's PRESENCE frame (R497). -/
def State.presenceTx (s : State) : State :=
  s.sbFrame (0x10 + s.brx.place.val) 2 (leBytes 2 s.brx.physical.toNat ++ leBytes 1 s.brx.revision.val ++
    leBytes 1 ((if s.brx.hang then 8 else 0) + (if s.brx.job != 0 then 4 else 0) + (if s.brxUp 1 then 2 else 0) +
      (if s.brxUp 0 then 1 else 0)))

end Sys2Proof.Machine
end

