-- ==== Sys2Proof/Machine/Jobs.lean ====
section
/-! DEFINITION. What every control-plane family shares: jobs and their descriptors, peloton tables and positions, messages
to sites, to the partner and over the torus, and commands that continue. -/
namespace Sys2Proof.Machine

/-! ### Jobs and descriptors (R414, R415) -/

/-- The job with an ID on this side. -/
def State.job? (s : State) (id : W32) : Option Job := s.jobs.vals.find? fun j => j.id == id

/-- Replace a job in its slot. -/
def State.setJob (s : State) (j : Job) : State := { s with jobs := Tbl.set s.jobs j.slot j }

/-- Change a job, if it is held. -/
def State.modJob (s : State) (id : W32) (f : Job → Job) : State :=
  match s.job? id with
  | some j => s.setJob (f j)
  | none => s

/-- Run on a job, if it is held. -/
def State.onJob (s : State) (id : W32) (f : Job → State) : State :=
  match s.job? id with
  | some j => f j
  | none => s

/-- A field of the shape header. -/
def Job.shape (j : Job) (lo n : Nat) : Nat := fieldLE j.desc lo n

/-- A field of the run section, the descriptor's last 128 bytes. -/
def Job.run (j : Job) (lo n : Nat) : Nat := fieldLE j.desc (j.desc.length - 128 + lo) n

/-- A field of the run section whose all-ones value stands for a default (R415). -/
def Job.runDef (j : Job) (lo n d : Nat) : Nat := if j.run lo n = 256 ^ n - 1 then d else j.run lo n

def Job.retryLimit (j : Job) : Nat := j.runDef 2 1 0
def Job.window (j : Job) : Nat := j.runDef 3 1 4
def Job.lag (j : Job) : Nat := j.runDef 4 1 (j.window + 1)
def Job.headroom (j : Job) : Nat := j.runDef 5 1 4
def Job.holdGib (j : Job) : Nat := j.runDef 6 1 8
def Job.flag (j : Job) (b : Nat) : Bool := (j.run 7 1).testBit b
def Job.clipEn (j : Job) : Bool := j.flag 1
def Job.dynScale (j : Job) : Bool := j.flag 2
def Job.repairAuto (j : Job) : Bool := j.flag 3
def Job.bedrocks (j : Job) : Bool := j.flag 4
def Job.restoring (j : Job) : Bool := j.flag 5
def Job.pelSlot (j : Job) : Nat := j.run 0x2E 1
def Job.coverSlot (j : Job) : Option Nat := if j.run 0x2F 1 = 0xFF then none else some (j.run 0x2F 1)
def Job.gradFormat (j : Job) : Nat := j.shape 0xE 1
def Job.siltFormat (j : Job) : Nat := j.shape 0xF 1
def Job.nLayers (j : Job) : Nat := j.shape 0xA 2
def Job.nKernels (j : Job) : Nat := j.shape 0xD 1
def Job.nPlanes (j : Job) : Nat := j.shape 0xC 1
def Job.elements (j : Job) : Nat := j.shape 0x18 8
def Job.nAux (j : Job) : Nat := j.shape 0x20 1
def Job.auxElements (j : Job) : Nat := j.shape 0x28 8

/-- Element width in bytes of format code 0 to 3 (R414). -/
def planeWidth (code : Nat) : Nat := if code = 0 then 8 else if code = 1 then 4 else 2

/-- First element, element count and kernel index of a layer (R414). -/
def Job.layer (j : Job) (l : Nat) : Nat × Nat × Nat :=
  (j.shape (128 + 16 * l) 8, j.shape (128 + 16 * l + 8) 4, j.shape (128 + 16 * l + 12) 1)

/-- Digest of the image of kernel `i`. -/
def Job.kernelDigest (j : Job) (i : Nat) : Nat := j.shape (128 + 16 * j.nLayers + 32 * i) 32

/-- Offset of the site table. -/
def Job.siteTable (j : Job) : Nat := 128 + 16 * j.nLayers + 32 * j.nKernels + 48 * j.shape 0x21 1

/-- Element groups of the shard (R67). -/
def Job.groups (j : Job) : Nat := (j.elements + 2 ^ 19 - 1) / 2 ^ 19

/-- Pages of a plane: one for each group, two for binary64 (R67). -/
def Job.planePages (j : Job) (p : Nat) : Nat := if j.shape (0x10 + p) 1 = 0 then 2 * j.groups else j.groups

/-- Pages of an auxiliary plane (R67). -/
def Job.auxPages (j : Job) (a : Nat) : Nat :=
  (j.auxElements * planeWidth (j.shape (0x30 + a) 1) + 2 ^ 21 - 1) / 2 ^ 21

/-- Logical pages before plane `p`, auxiliary planes following the element planes (R68). -/
def Job.pageBase (j : Job) (p : Nat) : Nat :=
  ((List.range p).map fun q => if q < j.nPlanes then j.planePages q else j.auxPages (q - j.nPlanes)).sum

/-- leaves (R68). -/
def Job.leaves (j : Job) : Nat := j.pageBase (j.nPlanes + j.nAux)

/-- Entries of a site's list in a layer schedule table (R150). -/
def schedCount (t : List Byte) (site : Nat) : Nat := fieldLE t (4 * site) 4

/-- Sites of the tray that the job uses: those whose list has entries (log entry 13). -/
def Job.sites (j : Job) : List Nat := (List.range 8).filter fun k => schedCount j.sched k != 0

/-- Sites as a mask. -/
def Job.siteMask (j : Job) : BitVec 8 := BitVec.ofNat 8 (j.sites.map fun k => 2 ^ k).sum

/-- The open step with a number. -/
def Job.step? (j : Job) (n : W64) : Option OpenStep := j.open_.find? fun o => o.step == n

/-- The open step with an epoch tag. -/
def Job.tag? (j : Job) (t : Byte) : Option OpenStep := j.open_.find? fun o => o.step.setWidth 8 == t

/-- Replace an open step. -/
def Job.setStep (j : Job) (o : OpenStep) : Job :=
  { j with open_ := j.open_.map fun x => if x.step == o.step then o else x }

/-- Committed and assayed step. -/
def Job.committed (j : Job) : W64 := j.strata.committed.step
def Job.assayed (j : Job) : W64 := j.strata.assayed.step

/-- The job may stream: it runs, and its start time has come (R313, R338 step 5). -/
def Job.mayStream (j : Job) : Bool := j.phase == .running && !(j.start.any fun r => r.timeWait)

/-- A step that has just opened (R55). -/
def OpenStep.opened (step : W64) (phase : StepPhase) (lossScale : W32) (retries : Nat) : OpenStep where
  step := step
  phase := phase
  retries := retries
  clipRerun := false
  skip := false
  replay := false
  clipFactor := 0x3F800000
  lossScaleIn := lossScale
  lossFlag := false
  linkFail := false
  abftFail := false
  scalarFail := false
  replicaFail := false
  pairDiffer := false
  kernelFault := false
  missing := false
  scalarLate := false
  abftChecked := 0
  scalar := none
  ownRoot := none
  partnerRoot := none
  replicaDone := false
  replicaRoot := none
  voted := none
  voteBack := false
  commit := .none
  lagTold := false
  advanceTo := 0
  landings := []
  escrowMissing := false
  record := none
  partnerRecord := none
  recordAcked := false
  reports := []
  ready := []
  closedLayers := []
  slot0 := []
  silt := none
  confirmTime := []

/-! ### Positions, sides and peloton tables (R23, R291, R298 to R300) -/

/-- This side: 0 A, 1 B. -/
def State.sideB (s : State) : Bool := s.pwr.strapsAt.side
def State.sideNat (s : State) : Nat := if s.sideB then 1 else 0

/-- The controller's position, 0 where it holds none. -/
def State.position (s : State) : W16 := s.tor.position.getD 0

/-- The position entries of a plane of a peloton, in table order (R300). -/
def PelTable.plane (t : PelTable) (side : Bool) : List W16 :=
  (t.members.filter fun m => m.getLsbD 15 == side).map fun m => m &&& 0xFFF

/-- The table in a peloton slot. -/
def State.pel (s : State) (slot : Nat) : Option PelTable :=
  (s.tor.peloton.find? fun p => p.1 == slot).map Prod.snd

/-- This side's plane, and its index in it. -/
def State.planeOf (s : State) (slot : Nat) : List W16 := ((s.pel slot).map fun t => t.plane s.sideB).getD []
def State.planeIdx (s : State) (slot : Nat) : Nat := (s.planeOf slot).findIdx fun m => m == s.position

/-- Children of a member in the tree (R301). -/
def treeKids (n i : Nat) : List Nat := ((List.range 8).map fun k => 8 * i + 1 + k).filter fun k => k < n

/-- The kind of the table that covers a job: 1 replica, 2 buddy, 0 none. A replica table whose plane has one member covers nothing: no
other tray holds the job's steps (R31, R336). -/
def State.coverKind (s : State) (j : Job) : Nat :=
  match j.coverSlot.bind s.pel with
  | some t => if t.kind = 1 ∧ (t.plane false).length < 2 then 0 else t.kind
  | none => 0

/-- The job's buddy, on the same side (R306). -/
def State.buddyOf (s : State) (j : Job) : Option W16 :=
  j.coverSlot.bind fun c => (s.planeOf c)[if s.planeIdx c % 2 = 0 then s.planeIdx c + 1 else s.planeIdx c - 1]?

/-- The member's escrow peer (R336). -/
def State.escrowPeer (s : State) (j : Job) : Option W16 :=
  if s.coverKind j = 1 then
    j.coverSlot.bind fun c => let p := s.planeOf c; p[(s.planeIdx c + 1) % max p.length 1]?
  else if s.coverKind j = 2 then s.buddyOf j else none

/-! ### Neighbours and routes (R290 to R295) -/

/-- Coordinate of a position on an axis: 0 X, 1 Y, 2 Z. -/
def posCoord (p : W16) (axis : Nat) : Nat := p.toNat / 16 ^ (2 - axis) % 16

/-- A dimension. -/
def State.dim (s : State) (axis : Nat) : Nat := if axis = 0 then s.tor.dimX else if axis = 1 then s.tor.dimY else s.tor.dimZ

/-- The position with one coordinate replaced. -/
def posWith (p : W16) (axis v : Nat) : W16 :=
  BitVec.ofNat 16 (p.toNat - posCoord p axis * 16 ^ (2 - axis) + v * 16 ^ (2 - axis))

/-- The position one step from `p` through a port (R292). -/
def State.stepFrom (s : State) (p : W16) (port : Nat) : W16 :=
  let d := max (s.dim (port / 2)) 1
  posWith p (port / 2) ((posCoord p (port / 2) + (if port % 2 = 0 then 1 else d - 1)) % d)

/-- What is known of a port's neighbour. -/
def State.neigh (s : State) (p : Nat) : Neigh := Tbl.get s.tor.neigh Neigh.init p

/-- The neighbour state of a port (R292): 0 NONE, 1 EXPECTED, 2 PENDING, 3 MISWIRED, 4 FOREIGN. -/
def State.neighState (s : State) (p : Nat) : Nat :=
  let n := s.neigh p
  if !(s.port (9 + p)).up then 0
  else if !s.tor.stable then 2
  else if !n.heard then 0
  else if n.podId != s.rd .torPodId then 4
  else if n.side != s.sideB || n.port.val != (if p % 2 = 0 then p + 1 else p - 1) then 3
  else if !n.posValid then 2
  else if s.tor.position.isSome && n.position == s.stepFrom s.position p then 1 else 3

/-- The next port toward a position by dimension order, the shorter way, ties to + (R294); none at the position. -/
def State.routePort (s : State) (dest : W16) : Option Nat :=
  (List.range 3).findSome? fun a =>
    let d := max (s.dim a) 1
    let k := (posCoord dest a + d - posCoord s.position a) % d
    if k = 0 then none else some (if 2 * k ≤ d then 2 * a else 2 * a + 1)

/-- The dateline class after a hop through a port (R294): class 0 on entering a dimension, 1 from its dateline on. -/
def State.hopClass (s : State) (port : Nat) (cls : Nat) : Nat :=
  let c := posCoord s.position (port / 2)
  let d := max (s.dim (port / 2)) 1
  if (port % 2 = 0 ∧ c = d - 1) ∨ (port % 2 = 1 ∧ c = 0) then 1 else cls

/-- Put a packet on the port toward its destination, or discard it (R294); at its destination it is handed over. -/
def State.torRoute (s : State) (k : Packet) (pair cls : Nat) : State :=
  match s.routePort k.hdr.dst with
  | none => s.emit (.delivered 17 k)
  | some p =>
    if s.neighState p = 1 then s.queuePkt (9 + p) (Fin.ofNat 4 (2 * pair + s.hopClass p cls)) k else s.bump .torRouteDiscards

/-- Inject a torus packet of a kind (R281): control kinds on VCs 2 and 3, XFER on 0 and 1. -/
def State.torSend (s : State) (kind : Nat) (dest : W16) (job : W32) (tag : Option Byte) (content : List Byte) : State :=
  let k := mkPacket (BitVec.ofNat 8 kind) (tag.getD 0) 0 ((if tag.isSome then 4 else 0) + s.sideNat) 0 job s.position dest 0
    (padTo 32 content)
  let s := if kind = 7 then s.bump .torXferPktsTx else s
  s.torRoute k (if kind = 7 then 0 else 1) 0

/-! ### Messages to the partner (R358) -/

/-- Logical site ID of the tray's site `k` (R24). -/
def State.siteLogical (s : State) (k : Nat) : W16 := siteId (if s.tor.position.isSome then s.position else s.pwr.strapsAt.id) k

/-- A control message on the pair link, once; the packet's dst names the site of a DIRECTIVE (DESIGN CHOICE, log entry 48). -/
def State.pairQueue (s : State) (ty : Nat) (again : Bool) (ident : W64) (job : W32) (body : List Byte)
    (site : Option Nat := none) : State :=
  if (s.port 8).up && !s.pair.fenced then
    s.queuePkt 8 2 (mkPacket 4 0 0 s.sideNat 0 job s.pwr.strapsAt.id ((site.map s.siteLogical).getD (s.port 8).peerId) 0
      (ctlContent ty again ident job body))
  else s

/-- Messages that are answered with PAIR_ACK (R358). -/
def pairAcked (ty : Nat) : Bool := ty != 0x40 && ty != 0x42 && ty != 0x4B && ty != 0x4F

/-- Send a message to the partner, and keep it until it is acknowledged; none while the partner is declared failed, but for the journal once a
rejoin has copied the system area (R374). -/
def State.pairSend (s : State) (ty : Nat) (ident : W64) (job : W32) (body : List Byte) (site : Option Nat := none) : State :=
  if (s.pair.partnerFailed && !(ty == 0x41 && s.pair.rejoin.isSome)) || s.pair.role == .withdrawn then s
  else
    let t := if pairAcked ty then { s with pair.sent := s.pair.sent ++ [⟨ty, ident, job, body, site⟩] } else s
    t.pairQueue ty false ident job body site

/-- A PAIR_ACK (R358). -/
def State.pairAck (s : State) (ty : Nat) (ident : W64) (job : W32) (status : Nat) (value : Nat := 0) : State :=
  s.pairSend 0x4F ident job (leBytes 1 ty ++ leBytes 1 status ++ List.replicate 6 0 ++ leBytes 8 value)

/-- Whether this side still waits for the acknowledgement of a message. -/
def State.pairWaits (s : State) (ty : Nat) (ident : W64) : Bool := s.pair.sent.any fun m => m.ty == ty && m.ident == ident

/-! ### Messages to sites (R214, R272) -/

/-- The partner's port at site `k`, as the site's PRESENCE frames last reported it (R272, log entry 14). -/
def State.partnerSpoke (s : State) (k : Nat) : Bool :=
  s.side.presence.getLsbD (3 + k) && ((Tbl.get s.side.siteFlags 0 k).getLsbD (if s.sideB then 0 else 1))

/-- Whether a control message can reach a site: on the own spoke, or forwarded (R272). -/
def State.siteReach (s : State) (k : Nat) : Bool := (s.port k).up || ((s.port 8).up && s.partnerSpoke k)

/-- Put a control message for a site on its spoke, or on the pair link with the forwarded flag (R272). -/
def State.siteQueue (s : State) (k : Nat) (ty : Nat) (again : Bool) (ident : W64) (job : W32) (body : List Byte) : State :=
  let pkt := fun (fwd : Bool) => mkPacket 4 0 0 (s.sideNat + if fwd then 2 else 0) 0 job s.pwr.strapsAt.id (s.siteLogical k) 0
    (ctlContent ty again ident job body)
  if (s.port k).up then s.queuePkt k 2 (pkt false)
  else if (s.port 8).up && s.partnerSpoke k then (s.queuePkt 8 2 (pkt true)).bump .spkForwarded k
  else s

/-- Send a control message to a site and keep it until its answer (R217); `cmd` is the command that it serves. -/
def State.siteSend (s : State) (k : Nat) (ty : Nat) (ident : W64) (job : W32) (body : List Byte) (cmd : W64 := 0) : State :=
  ({ s with host.siteSent := s.host.siteSent ++ [(⟨k, ty, ident, job, body, cmd⟩ : SiteSent)] }).siteQueue k ty false ident job body

/-- An identifier for a command of this side's own (R215): bit 63 set, the side in bit 62 (log entry 15). -/
def State.ownIdent (s : State) : W64 × State :=
  (BitVec.ofNat 64 (2 ^ 63 + s.sideNat * 2 ^ 62 + s.host.nextIdent % 2 ^ 62),
    { s with host.nextIdent := s.host.nextIdent + 1 })

/-- Send a message to every site of a list. -/
def State.sitesSend (s : State) (ks : List Nat) (ty : Nat) (ident : W64) (job : W32) (body : List Byte) (cmd : W64 := 0) :
    State :=
  ks.foldl (fun t k => t.siteSend k ty ident job body cmd) s

/-! ### Events of jobs -/

/-- The oldest open step of a job, else its committed step: what an event's ident names. -/
def Job.eventIdent (j : Job) : W64 := (j.open_.head?.map OpenStep.step).getD j.committed

/-- Whether this side runs the pair (R357). -/
def State.leads (s : State) : Bool := s.pair.role == .active || s.pair.role == .sole

/-- Whether this side streams, updates and votes (R356); a joining side from its join step on (R374). -/
def State.works (s : State) : Bool :=
  s.leads || s.pair.role == .standby || (s.pair.role == .joining && s.pair.rejoin.any fun r => r.2 == 3)

end Sys2Proof.Machine
end

