-- ==== Sys2Proof/Machine/Stall.lean ====
section
/-! DEFINITION. What gradient credits are withheld for: staging SRAM that is full, and a hold area that is full (R35, R49). -/
namespace Sys2Proof.Machine

/-- The slice that serves an element: that of its group (R139). -/
def sliceOf (first : Nat) : Nat := first / 2 ^ 19 % 16

/-- Bytes that a staged group takes. -/
def Staged.bytes (x : Staged) : Nat := elemBytes x.fmt x.elems.length + x.scales.length

/-- Staging SRAM in use on a slice. -/
def State.stagingUsed (s : State) (slice : Nat) : Nat :=
  ((s.acc.staged.filter fun x => sliceOf x.first == slice).map Staged.bytes).sum

/-- A site's stream of a step, as far as it has arrived. -/
def State.gradIn (s : State) (job : W32) (step : W64) (site : Nat) : GradIn :=
  (s.acc.grads.find? fun g => g.job == job && g.step == step && g.site == site).getD ⟨job, step, site, [], [], []⟩

/-- A site has contributed all of an element range of a layer. -/
def GradIn.covers (g : GradIn) (layer first count : Nat) : Bool :=
  g.done.any fun d => d.1 == layer && d.2.1 ≤ first && first + count ≤ d.2.1 + d.2.2

/-- A site has sent all that it owes to the oldest open step of a job, so that what it sends next is of the next step. -/
def State.gradDone (s : State) (j : Job) (site : Nat) : Bool :=
  j.open_.head?.all fun o => (List.range j.nLayers).all fun l => (s.gradIn j.id o.step site).covers l (j.layer l).1 (j.layer l).2.1

/-- Gradient credits of a spoke are due to be withheld: by a slice whose staging is full, or because the hold area of its job is full and the
spoke's next contributions are of the tag that the area holds (R35, R49; log entry 42). -/
def State.gradHeld (s : State) (k : Nat) : Bool :=
  (s.acc.withheld.any fun e => e.2.getLsbD k) ||
    s.jobs.vals.any fun j => j.holdFull && j.sites.contains k && ((j.hold.any fun e => e.1 == k) || s.gradDone j k)

/-- Return the credits that a VC of a port withheld. -/
def Port.creditsBack (p : Port) (vc : Nat) : Port :=
  { p with withhold := p.withhold.set vc false, held := p.held.set vc 0
           freed := p.freed.set vc ((p.freed.getD vc 0 + p.held.getD vc 0) % 4096) }

/-- Withhold the credits of a VC of a port. -/
def Port.creditsHold (p : Port) (vc : Nat) : Port := { p with withhold := p.withhold.set vc true }

/-- Withhold and return the gradient credits of each spoke as is due: a slice whose staging has room again withholds none (R35, R49). -/
def State.gradCredits (s : State) : State :=
  let s := { s with acc.withheld := s.acc.withheld.filter fun e => 2 ^ 23 < s.stagingUsed e.1 }
  (List.range 8).foldl (fun t k =>
    let q := t.port k
    match t.gradHeld k, q.withhold.getD 1 false with
    | true, false => t.setPort k (q.creditsHold 1)
    | false, true => t.setPort k (q.creditsBack 1)
    | _, _ => t) s

end Sys2Proof.Machine
end

