-- ==== Sys2Proof/Machine/Frames.lean ====
section
/-! DEFINITION. The state store (03_state_store.md): planes and pages, digests and roots, frames and quotas, the system area in its two
copies, set records and flips. Map area, record ring and hold area are held as the structures they store (log entry 18). -/
namespace Sys2Proof.Machine

/-! ### Planes and pages (R67, R68, R69) -/

/-- Home stack of each logical page of a job, in page order (R67). -/
def Job.homes (j : Job) : List Nat :=
  ((List.range j.nPlanes).flatMap fun p =>
    let n := j.planePages p
    (List.range n).map fun i => (if j.shape (0x10 + p) 1 = 0 then i / 2 else i) % 16) ++
  ((List.range j.nAux).flatMap fun a => (List.range (j.auxPages a)).map fun i => i % 16)

/-- The home stack of a logical page. -/
def Job.home (j : Job) (page : Nat) : Nat := j.homes.getD page 0

/-- Payload pages of a silt entry: one for each group, then the auxiliary pages (R78). -/
def Job.siltPages (j : Job) : Nat :=
  j.groups + ((List.range j.nAux).map j.auxPages).sum

/-- The home stack of a payload page. -/
def Job.siltHome (j : Job) (page : Nat) : Nat := if page < j.groups then page % 16 else j.home (j.pageBase j.nPlanes + (page - j.groups))

/-- Byte address of a frame. -/
def frameAddr (f : Nat) : Nat := f * 2 ^ 21

/-- The 2 MiB of a page: its frame's bytes, or zeros where no frame is named. -/
def State.frameBytes (s : State) : Option Nat → List Byte
  | some f => memReadBytes s.mem (frameAddr f) (2 ^ 21)
  | none => List.replicate (2 ^ 21) 0

/-- The frame of a key in a page map. -/
def mapFrame (m : Tbl Nat) (k : Nat) : Option Nat := if Tbl.has m k then some (Tbl.get m 0 k) else none

/-- A word of the scalar block (R69). -/
def Stratum.scalar (t : Stratum) (i : Nat) : W64 := Tbl.get t.scalars 0 i

/-- The scalar block's 4 KiB. -/
def Stratum.scalarBytes (t : Stratum) : List Byte := (List.range 512).flatMap fun i => leBytes 8 (t.scalar i).toNat

/-! ### Digests (R73) -/

/-- A leaf digest: lead byte 0x4C for a state page, 0x47 for a payload page (R73, R78). -/
def leafDigest (lead : Byte) (job : W32) (page : Nat) (bytes : List Byte) : Digest :=
  shake256 ([lead] ++ leBytes 4 job.toNat ++ leBytes 4 page ++ bytes)

/-- A node over two children; two zero children give a zero node. -/
def nodeDigest (a b : Digest) : Digest :=
  if a = 0 ∧ b = 0 then 0 else shake256 ([0x4E] ++ digestBytes a ++ digestBytes b)

/-- One level of the tree. -/
def treeLevel : List Digest → List Digest
  | a :: b :: r => nodeDigest a b :: treeLevel r
  | [a] => [nodeDigest a 0]
  | [] => []

/-- The top node over leaves padded with zero leaves to the next power of two. -/
def treeTopGo : Nat → List Digest → Digest
  | 0, l => l.headD 0
  | n + 1, l => treeTopGo n (treeLevel l)
def treeTop (l : List Digest) : Digest := treeTopGo (bitLength (l.length - 1)) l

/-- The nodes of a level of the tree, level 0 the leaves. -/
def treeNodes : Nat → List Digest → List Digest
  | 0, l => l
  | n + 1, l => treeNodes n (treeLevel l)

/-- The leaf digests of a stratum in page order; a page whose digest is not held yet is hashed from its bytes. -/
def State.leaves (s : State) (j : Job) (t : Stratum) : List Digest :=
  (List.range j.leaves).map fun p =>
    if Tbl.has t.leaf p then Tbl.get t.leaf 0 p else leafDigest 0x4C j.id p (s.frameBytes (mapFrame t.map p))

/-- The root of a stratum (R73). -/
def State.rootOf (s : State) (j : Job) (t : Stratum) : Digest :=
  shake256 ([0x52] ++ leBytes 4 j.id.toNat ++ leBytes 4 j.leaves ++
    digestBytes (shake256 ([0x53] ++ t.scalarBytes)) ++ digestBytes (treeTop (s.leaves j t)))

/-- The payload root of a silt entry (R78). -/
def State.payloadRoot (s : State) (j : Job) (e : SiltEntry) : Digest :=
  if e.skip then 0
  else treeTop ((List.range j.siltPages).map fun p => leafDigest 0x47 j.id p (s.frameBytes (mapFrame e.pages p)))

/-- The session key K_s of a draw: KMAC256(K_dev, E ‖ physical_id, 256, "RX-SESSION") (R451). -/
def sessionKey (physical : W16) (n : Nat) : Digest :=
  kmac256 (digestBytes Config.macSeed) (digestBytes (Config.entropy n) ++ leBytes 2 physical.toNat) "RX-SESSION"

/-- The session key that tags are made with; zero bytes while none is loaded (R451, R452). -/
def State.keyBytes (s : State) : List Byte := digestBytes ((s.sec.keyNo.map (sessionKey s.pwr.strapsAt.id)).getD 0)

/-! ### Frames and quotas (R63 to R66, R72) -/

/-- Frames that the strata of a job name. -/
def Strata.frames (t : Strata) : List Nat :=
  let m := fun (x : Stratum) => x.map.vals
  let o := fun (x : Option Stratum) => (x.map m).getD []
  o t.working ++ m t.committed ++ m t.assayed ++ t.retained.flatMap m ++ o t.pin ++ o t.pinCopy

/-- Frames that a job's maps, silt entries, buddy shadow and restore name. -/
def Job.frames (j : Job) : List Nat :=
  let e := fun (x : SiltEntry) => x.pages.vals
  j.strata.frames ++ j.silt.flatMap e ++ j.open_.flatMap (fun o => (o.silt.map e).getD []) ++
    ((j.inVote.bind OpenStep.silt).map e).getD [] ++ ((j.buddy.shadow.map fun x => x.map.vals).getD []) ++
    ((j.buddy.work.map fun x => x.map.vals).getD []) ++ j.buddy.mirrored.flatMap e ++ ((j.restore.bind Restore.loaded).map fun x => x.map.vals).getD []

/-- Frames of the bulk windows of a job ID. -/
def State.windowFrames (s : State) (id : W32) : List Nat :=
  (s.host.windows.vals.filter fun w => w.job == id).flatMap Window.frames

/-- Every frame named (R72): the census. -/
def State.usedFrames (s : State) : List Nat :=
  s.jobs.vals.flatMap Job.frames ++ s.host.windows.vals.flatMap Window.frames ++ s.store.refs.flatMap ReadRef.frames

/-- Frames of a stack among a list. -/
def onStack (k : Nat) (l : List Nat) : List Nat := l.filter fun f => f / 65536 == k

/-- Frames counted whole from job start: map area, record ring and hold area (R64). -/
def Job.fixedFrames (j : Job) : Nat := if j.phase = .staged then 0 else 33 + j.holdGib * 512 / 16

/-- A job's usage on a stack (R64). -/
def State.usage (s : State) (j : Job) (k : Nat) : Nat :=
  j.fixedFrames + (onStack k (j.frames ++ s.windowFrames j.id)).eraseDups.length

/-- A job slot's quota (R63). -/
def State.quota (s : State) (slot : Nat) : Nat := Tbl.get s.store.quota 0 slot

/-- Sum of the quotas. -/
def State.quotaSum (s : State) : Nat := s.store.quota.vals.sum

/-- A frame index lies in the frames that a job allocated whole at its start. -/
def Job.areaHas (j : Job) (i : Nat) : Bool := j.base ≤ i && i < j.base + j.fixedFrames

/-- The lowest free frame of a stack's job area. -/
def State.freeFrame (s : State) (k : Nat) : Option Nat :=
  let used := onStack k s.usedFrames
  ((List.range 36800).map fun i => k * 65536 + 64 + i).find? fun f => !used.contains f && !(s.jobs.vals.any fun j => j.areaHas (f % 65536))

/-- Where `n` frames that a job takes whole begin: as high in the job area as they lie free on every stack (R64; log entry 18). -/
def State.areaFor (s : State) (n : Nat) : Nat :=
  let used := s.usedFrames.map fun f => f % 65536
  let js := s.jobs.vals.filter fun j => j.fixedFrames != 0
  let free := fun (b : Nat) => 64 ≤ b && b + n ≤ 36864 && (js.all fun j => b + n ≤ j.base || j.base + j.fixedFrames ≤ b) &&
    used.all fun f => f < b || b + n ≤ f
  ((36864 - n) :: (js.map fun j => j.base - n) ++ used.map fun f => f - n).foldl (fun best b => if free b && best < b then b else best) 0

/-- Allocate a frame for a job on a stack (R63, R65): none where usage is not below quota. -/
def State.allocFrame (s : State) (j : Job) (k : Nat) : Option Nat :=
  if s.usage j k < s.quota j.slot then s.freeFrame k else none

/-- The allocation that a job waited for has succeeded (R95). -/
def State.allocTaken (s : State) (id : W32) : State :=
  s.onJob id fun j => if j.allocStall then s.setJob { j with allocStall := false } else s

/-- An allocation is refused: counted, and the job stalls (R65). -/
def State.allocRefused (s : State) (j : Job) : State :=
  let t := s.bump .strJobAllocRefused j.slot
  if j.allocStall then t
  else (t.modJob j.id fun j => { j with allocStall := true }).evInt 1 .strIntStatus 1 j.id j.eventIdent [j.slot]

/-- State frames of one stratum on a stack. -/
def Job.stratumFrames (j : Job) (k : Nat) : Nat := (j.homes.filter (· == k)).length
/-- Payload frames of one silt entry on a stack. -/
def Job.siltFrames (j : Job) (k : Nat) : Nat := ((List.range j.siltPages).filter fun p => j.siltHome p == k).length

/-- The working minimum on a stack (R66, R307). -/
def State.workingMin (s : State) (j : Job) (k : Nat) : Nat :=
  (j.lag + 2) * j.stratumFrames k + (j.lag + 1) * j.siltFrames k + (if j.bedrocks then j.stratumFrames k else 0) +
    j.holdGib * 512 / 16 + 33 + (if s.coverKind j = 2 then j.stratumFrames k + (j.lag + 1) * j.siltFrames k else 0)

/-- The quota holds the working minimum on every stack. -/
def State.quotaHolds (s : State) (j : Job) : Bool := (List.range 16).all fun k => s.workingMin j k ≤ s.quota j.slot

/-- A job that is over quota falls back under it (R65). -/
def State.quotaCheck (s : State) : State :=
  s.jobs.vals.foldl (fun t j =>
    if j.overQuota && (List.range 16).all fun k => t.usage j k ≤ t.quota j.slot then
      (t.modJob j.id fun j => { j with overQuota := false }).evReason 0 .str 1 j.id j.eventIdent [j.slot]
    else t) s

/-! ### The system area (R61, R62, R75, R82) -/

/-- Write an update to the system area: copy 0 on stack 0 first, then copy 1 on stack 8; it is done once both are written (R62). -/
def State.sysWrite (s : State) (f : SysCopy → SysCopy) : State :=
  let t := { s with store.sys0 := f s.store.sys0 }
  { t with store.sys1 := f t.store.sys1 }

/-- The system area copies are initialised at a cold start (R61, R461). -/
def State.sysInit (s : State) : State :=
  s.sysWrite fun _ => { SysCopy.blank with version := Config.layoutVersion, controller := s.pwr.strapsAt.id, side := s.pwr.strapsAt.side }

/-- Put a quota table, and write it into the system header. -/
def State.quotaPut (s : State) (q : Tbl Nat) : State := ({ s with store.quota := q }).sysWrite fun c => { c with quota := q }

/-- Entries of the journal in the system area: 64 MiB of 512 bytes. -/
def journalEntries : Nat := 131072

/-- The 512 bytes of a journal entry (R82). -/
def State.entryBytes (s : State) (e : JEntry) : List Byte :=
  let b := sliceBytes (leBytes 8 e.seqNo ++ leBytes 8 e.id.toNat ++ leBytes 4 e.job.toNat ++ leBytes 1 e.state ++
    leBytes 1 (if e.partnerSeen then 1 else 0) ++ List.replicate 42 0 ++ sliceBytes e.packet 0 256 ++ sliceBytes e.status 0 32) 0 0x1E0
  b ++ digestBytes (kmac256 s.keyBytes b "RX-JE")

/-- A journal entry is written at a transition of its state: tagged, to both copies (R62, R82). -/
def State.entryWrite (s : State) (e : JEntry) : State :=
  let b := s.entryBytes e
  s.sysWrite fun c => { c with journal := Tbl.set c.journal (e.seqNo % journalEntries) b }

/-- The entry of a command. -/
def State.entry? (s : State) (id : W64) : Option JEntry := s.host.journal.find? fun e => e.id == id

/-- Change the entry of a command, and write it. -/
def State.modEntry (s : State) (id : W64) (f : JEntry → JEntry) : State :=
  match s.entry? id with
  | none => s
  | some e => { s with host.journal := s.host.journal.map fun (x : JEntry) => if x.id == id then f e else x }.entryWrite (f e)

/-- A stratum descriptor (R75): the map of the stratum at place `i` begins in frame 16·⌊i ÷ 8⌋ of the map area of stack i mod 8, its second
copy on the stack 8 above (R74; log entry 18). -/
def Job.descriptor (j : Job) (t : Stratum) : List Byte :=
  leBytes 8 t.step.toNat ++ leBytes 4 (t.area % 8 * 65536 + j.base + 16 * (t.area / 8)) ++ List.replicate 20 0 ++ digestBytes t.root

/-- The 1,024 bytes of a job's set record (R75). -/
def Job.setRecord (j : Job) : List Byte :=
  let x := j.strata
  let none_ := List.replicate 64 (0 : Byte)
  let d := fun (t : Option Stratum) => (t.map j.descriptor).getD none_
  let b := leBytes 4 j.id.toNat ++ leBytes 2 1 ++ leBytes 1 x.retained.length ++
    leBytes 1 ((if x.working.isSome then 1 else 0) + if x.pin.isSome then 2 else 0) ++ leBytes 8 x.flipSeq.toNat ++ leBytes 4 j.leaves ++
    List.replicate 12 0 ++ d x.working ++ j.descriptor x.committed ++ j.descriptor x.assayed ++ d x.pin ++
    sliceBytes (x.retained.flatMap j.descriptor) 0 576 ++ List.replicate 128 0
  b ++ digestBytes (shake256 b)

/-- Write a job's strata as the next set record: to the inactive slot of both copies, then the selectors (R62, R75, R77). -/
def State.setRecordWrite (s : State) (id : W32) : State :=
  s.onJob id fun j0 =>
    let j := { j0 with strata := { j0.strata with flipSeq := j0.strata.flipSeq + 1 } }
    let b := j.setRecord
    let put := fun (c : SysCopy) =>
      let e := Tbl.get c.strata ⟨0, []⟩ j.slot
      let slot := 1 - (e.selector.toNat % 2)
      { c with strata := Tbl.set c.strata j.slot ⟨BitVec.ofNat 64 (2 * j.strata.flipSeq.toNat + slot), Tbl.set e.slots slot b⟩ }
    (s.setJob j).sysWrite put

/-- Whether the selected slot of a copy's entry passes its self_digest (R75, R89). -/
def SetEntry.selfOk (e : SetEntry) : Bool :=
  let b := Tbl.get e.slots [] (e.selector.toNat % 2)
  b.length == 0x400 && b.drop 0x3E0 == digestBytes (shake256 (b.take 0x3E0))

/-- The set record that a restart selects for a slot: of the copies that pass their self_digest, the one with the higher flip_seq, copy 0 at
equal ones; its number too (R89). -/
def State.setSelect (s : State) (slot : Nat) : Option (Nat × SetEntry) :=
  let e0 := Tbl.get s.store.sys0.strata ⟨0, []⟩ slot
  let e1 := Tbl.get s.store.sys1.strata ⟨0, []⟩ slot
  match e0.selfOk, e1.selfOk with
  | true, true => if e0.selector.toNat / 2 < e1.selector.toNat / 2 then some (1, e1) else some (0, e0)
  | true, false => some (0, e0)
  | false, true => some (1, e1)
  | false, false => none

/-- A copy of the system area has returned an uncorrectable error: it is rewritten from the other (R62, R84). -/
def State.sysRepair (s : State) (copy : Nat) : State :=
  if copy = 0 then { s with store.sys0 := s.store.sys1 } else { s with store.sys1 := s.store.sys0 }

/-! ### The map area (R68, R74) -/

/-- A page map entry (R68). -/
def Stratum.entry (t : Stratum) (p : Nat) : Nat :=
  match mapFrame t.map p with
  | some f => 2 ^ 31 + (if t.poisoned.contains p then 2 ^ 30 else 0) + f
  | none => 0

/-- What the map area holds of a stratum, in either copy: page map, scalar block, leaf digests, node digests level by level. -/
def State.mapBytes (s : State) (j : Job) (t : Stratum) : List Byte :=
  let l := s.leaves j t
  ((List.range j.leaves).flatMap fun p => leBytes 4 (t.entry p)) ++ t.scalarBytes ++
    (List.range (bitLength (j.leaves - 1) + 1)).flatMap fun n => (treeNodes n l).flatMap digestBytes

/-- The lowest place of the map area that no stratum takes. -/
def Strata.place (t : Strata) : Nat :=
  let used := (t.committed :: t.assayed :: t.retained ++ t.working.toList ++ t.pin.toList ++ t.pinCopy.toList).map Stratum.area
  ((List.range 16).find? fun i => !used.contains i).getD 0

/-! ### Flips (R70, R75 to R77) -/

/-- Make a flip: the set record that it names, in both copies; counted (R75, R76, R90). -/
def State.flipped (s : State) (id : W32) (f : Strata → Strata) : State :=
  (((s.modJob id fun j => { j with strata := f j.strata }).setRecordWrite id).bump .strFlipCount).quotaCheck

/-- COMMIT(n) (R76). -/
def Strata.commit (t : Strata) (w : Stratum) : Strata :=
  { t with
    retained := if t.assayed.step.toNat < t.committed.step.toNat then t.retained ++ [t.committed] else t.retained
    committed := w, working := none, held := true }

/-- The stratum of a step among committed, retained and assayed. -/
def Strata.find (t : Strata) (n : W64) : Option Stratum :=
  if t.committed.step = n then some t.committed
  else if t.assayed.step = n then some t.assayed
  else t.retained.find? fun x => x.step == n

/-- ADVANCE(s) (R76). -/
def Strata.advance (t : Strata) (n : W64) : Strata :=
  match t.find n with
  | some x => { t with assayed := x, retained := t.retained.filter fun y => n.toNat < y.step.toNat }
  | none => t

/-- REVERT (R76). -/
def Strata.revert (t : Strata) : Strata := { t with working := none }

/-- A REVERT flip, where a working stratum is open (R50, R76). -/
def State.revert (s : State) (id : W32) : State :=
  s.onJob id fun j => if j.strata.working.isSome then s.flipped id Strata.revert else s

/-- ROLLBACK(t) (R76). -/
def Strata.rollbackTo (t : Strata) (n : W64) : Strata :=
  match t.find n with
  | some x => { t with committed := x, retained := t.retained.filter fun y => y.step.toNat < n.toNat, working := none }
  | none => t

/-- Silt entries that an advance to `n` frees: not those that a buddy has still to acknowledge (R80). -/
def freeSilt (buddy : Bool) (n : W64) (l : List SiltEntry) : List SiltEntry :=
  l.filter fun e => n.toNat < e.step.toNat || (buddy && !e.mirrored)

/-- Open the working stratum of a step as a copy of the committed one (R71). -/
def Strata.openWorking (t : Strata) (n : W64) : Strata :=
  { t with working := some { t.committed with step := n, area := { t with working := none }.place } }

/-- The same, in a job: the set record shows it, which is no flip of R76 (log entry 18). -/
def State.openWorking (s : State) (id : W32) (n : W64) : State :=
  (s.modJob id fun j => { j with strata := j.strata.openWorking n }).setRecordWrite id

/-- The PIN copy begins: a copy of the assayed map under a place of its own (R77). -/
def Strata.pinBegin (t : Strata) : Strata :=
  { t with pinCopy := some { t.assayed with area := { t with pinCopy := none }.place } }

/-- The stratum that a new job starts from: no page written, the loss scale in word 448 (R69). -/
def State.firstStratum (s : State) (j : Job) (first : W64) : Stratum :=
  let t : Stratum := { Stratum.empty with step := first - 1, scalars := [(448, BitVec.ofNat 64 (j.run 0x14 4))] }
  { t with root := s.rootOf j t }

end Sys2Proof.Machine
end

