-- ==== Sys2Proof/Machine/Contain.lean ====
section
/-! DEFINITION. Status replies and the completion ring (R407, R408), alarms (R285), rollback of tags (R50 to R54), and the
containment of Site-abort, Job-abort and Tray-halt (R323 to R335, R368 to R371). -/
namespace Sys2Proof.Machine

/-! ### Replies and completions (R407, R408) -/

/-- The 32 bytes of a status reply (R407). `flags` holds bits [3:0]; the side goes into bit 4. -/
def State.replyBytes (s : State) (id : W64) (op st flags code detail seqNo : Nat) (result : W64) : List Byte :=
  leBytes 8 id.toNat ++ leBytes 2 op ++ leBytes 1 st ++ leBytes 1 (flags + 16 * s.sideNat) ++ leBytes 2 code ++
    leBytes 2 detail ++ leBytes 8 seqNo ++ leBytes 8 result.toNat

/-- Entries of the completion ring: the next lower power of two, from 64 to 65,536 (R420). -/
def State.cqSize (s : State) : Nat := min 65536 (max 64 (2 ^ (s.rd .hstCqEntries).toNat.log2))

/-- The ring has room: head and tail are free-running counts (log entry 16). -/
def State.cqRoom (s : State) : Bool :=
  ((s.rd .hstCqTail).toNat + 2 ^ 32 - (s.rd .hstCqHead).toNat) % 2 ^ 32 < s.cqSize

/-- Write one entry at CQ_TAIL and advance the tail; vector 0 where the command carried irq_on_done (R408). -/
def State.cqWrite (s : State) (e : List Byte × Bool) : State :=
  let base := (s.rd .hstCqBaseHi).toNat * 2 ^ 32 + (s.rd .hstCqBaseLo).toNat / 64 * 64
  let t := s.emit (.hostWrite (base + 32 * ((s.rd .hstCqTail).toNat % s.cqSize)) e.1)
  let t := t.wr .hstCqTail (s.rd .hstCqTail + 1)
  if e.2 then t.raise .hstIntStatus 1 else t

/-- Write queued entries while the ring has room (R408). -/
def State.cqDrainGo : Nat → State → State
  | 0, s => s
  | n + 1, s =>
    match s.host.cqQueue with
    | e :: r =>
      if s.cqRoom && s.host.busMaster && s.fld .hstCtrl 0 1 == 1 then
        State.cqDrainGo n ({ s with host.cqQueue := r }.cqWrite e)
      else s
    | [] => s
def State.cqDrain (s : State) : State := State.cqDrainGo s.host.cqQueue.length s

/-- Post a completion (R408): at the tail, in the queue of 4,096, or lost. -/
def State.cqPut (s : State) (e : List Byte) (irq : Bool) : State :=
  if s.fld .hstCtrl 0 1 = 0 then s
  else if s.host.cqQueue.isEmpty && s.cqRoom && s.host.busMaster then s.cqWrite (e, irq)
  else if s.host.cqQueue.length < 4096 then
    let t := if s.cqRoom then s else s.raise .hstIntStatus 3
    { t with host.cqQueue := t.host.cqQueue ++ [(e, irq)] }
  else s.bump .hstCqLost

/-- Return to HOST the pages that a command held DEVICE (R412). -/
def State.pagesBack (s : State) (l : List (Nat × Nat × Nat)) : State :=
  { s with host.windows := s.host.windows.map fun p => (p.1, { p.2 with
      device := p.2.device.filter fun q => !(l.any fun r => r.1 == p.1 && decide (r.2.1 ≤ q ∧ q < r.2.1 + r.2.2)) }) }

/-- The interrupt bit of a unit whose load command has been refused (R148, R175, R206, R458). -/
def State.refusedBit (s : State) (op : Nat) : State :=
  match op with
  | 0x0103 => s.raise .updIntStatus 1
  | 0x0105 => s.raise .asyIntStatus 6
  | 0x0110 => s.raise .secIntStatus 1
  | 0x0206 => s.raise .stmIntStatus 2
  | _ => s

/-- A command that continued ends (R408): its journal entry reads DONE, and its final reply goes to the ring of the side
that took it. A check that failed on either side refuses the command (R163, R291). -/
def State.finish (s : State) (id : W64) (code : Nat) (detail : Nat := 0) (result : W64 := 0) : State :=
  match s.host.runs.find? (fun r => r.id == id), s.host.journal.find? (fun e => e.id == id) with
  | some r, some e =>
    let b := s.replyBytes id r.opcode 3 1 code detail e.seqNo result
    let t := { s with host.runs := s.host.runs.filter fun (x : CmdRun) => x.id != id }.modEntry id fun x => { x with state := 3, status := b }
    let t := if code = 0x010D then t.refusedBit r.opcode else t
    let t := t.pagesBack r.pages
    if r.own then t.cqPut b (r.flags % 2 == 1) else t
  | _, _ => s

/-- Change the record of a running command. -/
def State.modRun (s : State) (id : W64) (f : CmdRun → CmdRun) : State :=
  { s with host.runs := s.host.runs.map fun r => if r.id == id then f r else r }

/-- The running command with an ID. -/
def State.run? (s : State) (id : W64) : Option CmdRun := s.host.runs.find? fun r => r.id == id

/-! ### Alarms (R270, R284, R285) -/

/-- An alarm slot of R284, its CRC over bits [127:32] from the most significant bit. -/
def alarmSlot (reason hops : Nat) (side : Bool) (origin : W16) (tag seqNo : Byte) (job : W32) : BitVec 128 :=
  let top : BitVec 96 := 0xA1A1#16 ++ BitVec.ofNat 4 reason ++ BitVec.ofNat 6 hops ++ BitVec.ofBool side ++ 0#5 ++ origin ++
    tag ++ seqNo ++ job
  top ++ BitVec.ofNat 32 (crc32Bits ((List.range 96).map fun i => top.getLsbD (95 - i)))

/-- The origin of the side's alarms: its position, or the physical ID of an unplaced spare. -/
def State.originId (s : State) : W16 := s.tor.position.getD s.pwr.strapsAt.id

/-- Send an alarm slot on every alarm lane that is up, but the one given (R285, R286). -/
def State.slotOut (s : State) (slot : BitVec 128) (except : Option Nat) : State :=
  ((List.range 6).filter fun p => (s.neigh p).alarmUp && except != some p).foldl (fun t p => t.emit (.alarmSlot p slot)) s

/-- Originate JOB_ABORT (2) or TRAY_HALT (3) on the own plane, the spokes of the job's sites and, unless the partner asked
for it, the pair link (R271, R285). -/
def State.originate (s : State) (reason : Nat) (job : W32) (tag : Byte) (sites : List Nat) (fromPartner : Bool) : State :=
  let q := s.tor.alarmSeq + 1
  let slot := alarmSlot reason 0 s.sideB s.originId (if reason = 2 then tag else 0) q (if reason = 2 then job else 0)
  let t := ({ s with tor.alarmSeq := q }.bump .torAlarmsOrig).slotOut slot none
  let t := sites.foldl (fun t k => t.sendAlarm k (Fin.ofNat 16 reason) tag) t
  if fromPartner then t
  else (t.sendAlarm 8 (Fin.ofNat 16 reason) tag).pairSend 0x4B 0 job (leBytes 1 reason ++ [tag] ++ List.replicate 6 0)

/-! ### Rollback (R50, R51) -/

/-- Whether a 64-bit step number lies in a list. -/
def inSteps (l : List W64) (n : W64) : Bool := l.any (· == n)

/-- Discard packets of a spoke's stream buffer, counted in PKTS_DROPPED; their number too (R162). A packet that has begun to leave is a
flit in transit (R161) and goes on. -/
def State.bufferDrop (s : State) (k : Nat) (hit : Packet → Bool) : Nat × State :=
  let q := s.port k
  let begun := (q.txq.filter fun (x : TxPkt) => x.pkt.hdr.kind == 1 && x.done != 0).length
  let buf := Tbl.get s.stm.buffers [] k
  let rest := (buf.drop begun).filter fun p => !hit p
  let n := buf.length - begun - rest.length
  if n = 0 then (0, s)
  else
    let t := s.setPort k { q with txq := q.txq.filter fun (x : TxPkt) => x.pkt.hdr.kind != 1 || x.done != 0 || !hit x.pkt }
    (n, { t with stm.buffers := Tbl.set t.stm.buffers k (buf.take begun ++ rest) }.bumpBy .stmPktsDropped n k)

/-- Drop the packets of tags from the stream buffers, and end their site engines (R50, R162). -/
def State.streamDrop (s : State) (job : W32) (steps : List W64) : State :=
  let hit := fun (p : Packet) => p.hdr.jobId == job && steps.any fun n => n.setWidth 8 == p.hdr.tag
  let t := (List.range 8).foldl (fun t k => (t.bufferDrop k hit).2) s
  { t with stm.engines := t.stm.engines.map fun e => (e.1, e.2.filter fun g => !(g.job == job && inSteps steps g.step)) }

/-- Zero the tiles of steps and free their staging (R50, R109). -/
def State.accDrop (s : State) (job : W32) (steps : List W64) : State :=
  { s with acc.tiles := s.acc.tiles.filter fun e => !(e.2.job == job && inSteps steps e.2.step)
           acc.staged := s.acc.staged.filter fun e => !(e.job == job && inSteps steps e.step)
           acc.grads := s.acc.grads.filter fun e => !(e.job == job && inSteps steps e.step) }

/-- End the update of steps: every slice stops at its next instruction and forgets its invocation (R140). -/
def State.updDrop (s : State) (job : W32) (steps : List W64) : State :=
  match s.upd.run with
  | some d =>
    if d.job == job && inSteps steps d.step then
      { s with upd := { slices := s.upd.slices.map fun e => (e.1, { Slice.init with v := e.2.v, m := e.2.m, s := e.2.s })
                        run := none, faulted := none } }
    else s
  | none => s

/-- The step of a sample record, tap report or signature (R180, R188, R192). -/
def Sample.step (x : Sample) : W64 := BitVec.ofNat 64 (fieldLE x.bytes 8 8)

/-- The strata that steps of a job have written are reverted: what was to be checked against them has no source any more (R198). -/
def State.sourceRevert (s : State) (job : W32) (steps : List W64) : State :=
  let mark := fun (x : Sample) => if x.job == job && inSteps steps (x.step - 1) then { x with gone := true } else x
  { s with asy.samples := s.asy.samples.map mark, asy.taps := s.asy.taps.map mark }

/-- Samples and tap reports of the steps stay, marked as a discarded attempt; the mismatches that the attempt has shown leave
Wilost records; signatures and verdicts of the attempt go, and reports held for the attempt's non-finite count, which will not come
(R50, R177, R189, R198). -/
def State.asyDrop (s : State) (job : W32) (steps : List W64) : State :=
  let s := s.sourceRevert job steps
  let mark := fun (x : Sample) => if x.job == job && inSteps steps x.step then { x with discarded := true } else x
  let mine := fun (v : Verdict) => v.job == job && inSteps steps v.step
  let s := (s.asy.verdicts.filter fun v => mine v && !v.wil.isEmpty).foldl (fun t v =>
    t.evReason 1 .asy 0xFFFF job v.step [v.site, v.seqNo] (some v.wil)) s
  { s with asy.samples := s.asy.samples.map mark
           asy.taps := s.asy.taps.map mark
           asy.heldTaps := s.asy.heldTaps.filter fun x => !(x.job == job && inSteps steps x.step)
           asy.verdicts := s.asy.verdicts.filter fun v => !mine v
           asy.reported := s.asy.reported.filter fun v => !(v.job == job && inSteps steps v.step)
           asy.partnerDone := s.asy.partnerDone.filter fun v => !(v.1 == job && inSteps steps v.2)
           asy.lastSent := s.asy.lastSent.filter fun v => !(v.1 == job && inSteps steps v.2)
           asy.sigs := s.asy.sigs.filter fun v => !(v.job == job && inSteps steps v.step) }

/-- Landings, transfers and collectives of the steps end (R50, R296, R303). -/
def State.torDrop (s : State) (job : W32) (steps : List W64) : State :=
  let hit := fun (j : W32) (t : Option Byte) => j == job && match t with
    | some g => steps.any fun n => n.setWidth 8 == g
    | none => false
  { s with tor.landings := s.tor.landings.filter fun l => !hit l.job l.tag
           tor.transfers := s.tor.transfers.filter fun l => !hit l.job l.tag
           tor.colls := s.tor.colls.filter fun c =>
             !(c.key.job == job && c.key.op != .barrier && c.key.op != .advance && inSteps steps c.key.ident) }

/-- The buddy's open mirrored entries of the steps go with their tags (R308). -/
def Buddy.drop (b : Buddy) (steps : List W64) : Buddy :=
  { b with mirrored := b.mirrored.filter fun e => e.closed || !inSteps steps e.step }

/-- Roll back the named open steps of a job (R50, R51), older first. With `keep` the older one goes to IN_VOTE and keeps its
working stratum and silt entry (R335). `reason` is the reason byte of TAG_CLOSE (R217). -/
def State.rollback (s : State) (id : W32) (steps : List W64) (reason : Nat) (keep : Bool := false) : State :=
  s.onJob id fun j =>
    match steps.head? with
    | none => s
    | some first =>
      let older := j.open_.head?.any fun o => inSteps steps o.step
      let newer := (j.open_.drop 1).any fun o => inSteps steps o.step
      let body := leBytes 1 ((if older then 1 else 0) + (if newer then 2 else 0)) ++ leBytes 1 reason ++ List.replicate 6 0
      let kept := if keep then j.step? first else none
      let undo := older && !keep
      let sites := j.sites.filter s.siteReach
      let partner := !s.pair.partnerFailed && s.works
      let j' := { j with
        open_ := j.open_.filter fun o => !inSteps steps o.step
        inVote := if keep then kept else j.inVote
        hold := if newer || older then [] else j.hold
        holdFull := j.holdFull && !newer && !older
        buddy := if keep then j.buddy else j.buddy.drop steps
        gates := j.gates ++ [⟨steps, BitVec.ofNat 8 (sites.map fun k => 2 ^ k).sum, partner⟩] }
      let t := if undo then (s.setJob j').revert id else s.setJob j'
      let t := t.streamDrop id steps
      let t := t.sitesSend sites 0x12 first id body
      let t := if partner then t.pairSend 0x48 first id body else t
      let t := ((((t.accDrop id steps).updDrop id steps).asyDrop id steps).torDrop id steps)
      t.gradCredits

/-- Drop the satisfied parts of a job's rollbacks: site `k` has acknowledged the close of `first`, or counts as closed. -/
def Job.gateSite (j : Job) (first : Option W64) (k : Nat) : Job :=
  let hit := fun (g : GateWait) => first.all fun f => g.steps.head? == some f
  let l := j.gates.map fun (g : GateWait) => if hit g then { g with sites := g.sites &&& ~~~(1#8 <<< k) } else g
  { j with gates := l.filter fun (g : GateWait) => g.sites != 0 || g.partner }

/-- The partner has acknowledged the close of `first`, or counts as gone. -/
def Job.gatePartner (j : Job) (first : Option W64) : Job :=
  let hit := fun (g : GateWait) => first.all fun f => g.steps.head? == some f
  let l := j.gates.map fun (g : GateWait) => if hit g then { g with partner := false } else g
  { j with gates := l.filter fun (g : GateWait) => g.sites != 0 || g.partner }

/-- A rollback that waits for nothing is over at once. -/
def Job.gatesTrim (j : Job) : Job := { j with gates := j.gates.filter fun g => g.sites != 0 || g.partner }

/-! ### Holding and aborting jobs (R326, R329, R334) -/

/-- The hold reasons of R332. -/
def holdSiteHang : Nat := 0
def holdSiteDown : Nat := 1
def holdConfirmTimeout : Nat := 2
def holdRetryExhausted : Nat := 3
def holdKernelFault : Nat := 4
def holdRemoteAbort : Nat := 5
def holdTrayHalt : Nat := 6
def holdReplayMismatch : Nat := 7
def holdInconsistent : Nat := 8
def holdLost : Nat := 9

/-- Add a hold reason. -/
def Job.addReason (j : Job) (r : Nat) : Job :=
  { j with recov.reasons := j.recov.reasons ||| BitVec.ofNat 32 (2 ^ r) }

/-- The job's oldest open step has begun its commit sequence (R39). -/
def Job.committing (j : Job) : Bool := j.open_.head?.any fun o => o.commit != .none

/-- The state byte of a job in the recovery status (R331). -/
def JobPhase.code : JobPhase → Nat
  | .held => 1 | .recovering => 2 | .tearingDown => 3 | .inDoubt => 4
  | .staged | .preparing | .prepared | .running => 0

/-- A job has changed state or hold reasons (R334, R481): its recovery status is posted. -/
def State.jobEvent (s : State) (id : W32) (sev : Nat) : State :=
  s.onJob id fun j => s.detect sev .str 0x21 id j.eventIdent
    (detailWords (leBytes 1 j.phase.code ++ leBytes 4 j.recov.reasons.toNat ++ [j.recov.outcome]) [])

/-- Steps 3 to 5 of R334. -/
def State.abortNow (s : State) (id : W32) : State :=
  s.onJob id fun j =>
    let steps := j.open_.map OpenStep.step
    let keep := j.open_.head?.any fun o => o.voted == some true && !o.voteBack
    ((s.rollback id steps 3 keep).modJob id fun j => { j.gatesTrim with phase := .held, after := .nothing }).jobEvent id 1

/-- The job is being aborted already: it is to be HELD once its commit sequence has completed (R326, R334). -/
def Job.aborting (j : Job) : Bool := j.committing && (match j.after with
  | .hold _ => true
  | _ => false)

/-- A Job-abort of a job (R334), whose reason is added, and which has no further effect where the job is not running or being aborted already
(R326): `origin` says who raised it: none for the controller itself, some true for the partner, some
false for an alarm on this plane. -/
def State.jobAbort (s : State) (id : W32) (reason : Nat) (origin : Option Bool := none) : State :=
  s.onJob id fun j =>
    let s1 := s.modJob id fun j => j.addReason reason
    if j.phase != .running || j.aborting then s1.jobEvent id 3
    else
      let tag := (j.open_.head?.map fun o => o.step.setWidth 8).getD 0
      let s2 := match origin with
        | none => s1.originate 2 id tag j.sites false
        | some true => s1.originate 2 id tag j.sites true
        | some false => j.sites.foldl (fun t k => t.sendAlarm k 2 tag) s1
      if j.committing then s2.modJob id fun j => { j with after := .hold (j.recov.reasons) }
      else s2.abortNow id

/-- The first site-level and the first tray-level cause of what holds a job (R331). -/
def Job.causeSite (j : Job) (site : W16) : Job := if j.recov.failedSite = 0xFFFF then { j with recov.failedSite := site } else j
def Job.causePosition (j : Job) (p : W16) : Job := if j.recov.failedPosition = 0xFFFF then { j with recov.failedPosition := p } else j

/-- Containment of a Site-abort (R323): failed_site, and a Job-abort of the site's job; a job that is HELD or RECOVERING gains the reason
(R326, R354). -/
def State.siteAbort (s : State) (k : Nat) (reason : Nat) : State :=
  s.jobs.vals.foldl (fun t j =>
    if j.sites.contains k && (j.phase == .running || j.phase == .held || j.phase == .recovering) then
      let t := t.modJob j.id fun j => j.causeSite (s.siteLogical k)
      t.jobAbort j.id reason
    else t) s

/-! ### Sides (R325, R368 to R371) -/

/-- A port is taken out of service: what it queued and held is gone. -/
def State.portStop (s : State) (p : Nat) (st : LinkState) : State :=
  let q := s.port p
  s.setPort p { Port.init st with malSecond := q.malSecond, malCount := q.malCount, isolated := q.isolated }

/-- The fence of R368: every port of the controller DISABLED, no heartbeats, role WITHDRAWN. -/
def State.fence (s : State) : State :=
  if s.pair.fenced then s
  else
    let t := (List.range 15).foldl (fun t p => t.portStop p .disabled) s
    let t := t.raise .pairIntStatus 2
    { t with pair.fenced := true, pair.role := .withdrawn, pair.sent := [], stm.buffers := [], side.frame := none }
      |>.emit (.pin 2 true)

/-- The 12 bytes of a heartbeat (R358). -/
def State.heartbeatBody (s : State) (halting : Bool) : List Byte :=
  leBytes 1 s.pair.role.code ++ leBytes 1 (if halting then 1 else 0) ++ [0, 0] ++ leBytes 8 (s.host.nextSeq - 1)

/-- The halt notice on both paths (R367). -/
def State.haltNotice (s : State) : State :=
  (({ s with pair.halting := true }).emit (.halt (s.heartbeatBody true))).sbFrame
    (if s.sideB then 2 else 1) 1 (s.heartbeatBody true)

/-- Drop a job's open steps on a side that leaves them: nothing is sent, since the side is fenced. -/
def State.leaveJob (s : State) (j : Job) : State :=
  let steps := j.open_.map OpenStep.step
  let t := (((s.streamDrop j.id steps).accDrop j.id steps).updDrop j.id steps).torDrop j.id steps
  (t.setJob ({ j with open_ := [], gates := [], hold := [], holdFull := false, after := .nothing, start := none
                      phase := .held }.addReason holdTrayHalt |>.causePosition s.position)).revert j.id

/-- The side withdraws from every job and is fenced (R325, R326, R368, R373). -/
def State.withdraw (s : State) : State :=
  let t := s.haltNotice
  let t := t.fence
  let t := t.jobs.vals.foldl (fun t j => t.leaveJob j) t
  { t with host.siteSent := [], tor.colls := [], tor.landings := [], tor.transfers := [] }

/-- Tray-halt of the side (R323, R325): with a partner that works and is not halting no job is aborted; otherwise TRAY_HALT
is originated and every job aborted. -/
def State.trayHalt (s : State) : State :=
  if s.pair.fenced then s
  else
    let helped := !s.pair.partnerFailed && !s.pair.partnerHalting &&
      (s.pair.partnerRole == .active || s.pair.partnerRole == .standby)
    let s := if helped then s
      else
        let t := s.originate 3 0 0 ((List.range 8).filter fun k => s.jobs.vals.any fun j => j.sites.contains k) false
        t.jobs.vals.foldl (fun t j => t.jobAbort j.id holdTrayHalt (some false)) t
    s.withdraw

/-! ### Survey changes (R292, R293) -/

/-- Report every change of a torus port's neighbour state or identity: an event once dims are stable (R293). -/
def State.surveyPort (s : State) (p : Nat) (changed : Bool) : State :=
  let n := s.neigh p
  let st := s.neighState p
  if st = n.state && !changed then s
  else
    let t := { s with tor.neigh := Tbl.set s.tor.neigh p { n with state := st } }
    if !s.tor.stable then t
    else
      let t := if st = 3 || st = 4 then t.raise .torIntStatus 3 else t
      (t.bump .torSurveyChanges).evInt (if st = 1 then 0 else 1) .torIntStatus 4 0 0 [p, st, n.physical.toNat]

def State.surveyAll (s : State) : State := (List.range 6).foldl (fun t p => t.surveyPort p false) s

end Sys2Proof.Machine
end

