-- ==== Sys2Proof/Machine/Link.lean ====
section
/-! DEFINITION. Miopra ports (09_miopra_links.md, R279, R280): frames, replay, credits, training, alarms, forwarding. -/
namespace Sys2Proof.Machine

/-! ### Sending (R253 to R256, R264, R266, R268, R270) -/

/-- The flits of a packet: its header, then its content in groups of 32 bytes (R261). -/
def Packet.flit (p : Packet) (i : Nat) : BitVec 256 :=
  if i = 0 then BitVec.ofNat 256 (leNat p.hdr.bytes) else BitVec.ofNat 256 (fieldLE p.content (32 * (i - 1)) 32)

/-- Even parity of each of a flit's four data words (R255). -/
def flitParity (d : BitVec 256) : BitVec 4 :=
  BitVec.ofNat 4 (((List.range 4).filter fun w =>
    (List.range 64).foldl (fun b i => b != d.getLsbD (64 * w + i)) false).map fun w => 2 ^ w).sum

/-- The slot that carries a flit, and an idle slot (R255). -/
def Flit.slot (f : Flit) : FlitSlot := ⟨true, f.vc, f.sop, f.eop, 0, flitParity f.data, f.data⟩
def FlitSlot.idle : FlitSlot := ⟨false, 0, false, false, 0, 0, 0⟩

/-- The 36 bits of a frame header (R254) and the 268 bits of a flit slot (R255). -/
def FrameHdr.word (h : FrameHdr) : Nat :=
  h.kind.val * 2 ^ 34 + h.firstSeq.toNat * 2 ^ 24 + h.ackSeq.toNat * 2 ^ 14 + h.creditVc.val * 2 ^ 12 + h.credits.toNat
def FlitSlot.word (f : FlitSlot) : Nat :=
  f.parity.toNat * 2 ^ 264 + f.vc.val * 2 ^ 262 + (if f.valid then 2 ^ 261 else 0) + (if f.sop then 2 ^ 260 else 0) +
    (if f.eop then 2 ^ 259 else 0) + f.reserved.val * 2 ^ 256 + f.data.toNat

/-- The 6,200 information bits of a frame: its header, then its 23 slots (R253; their order is log entry 39). -/
def frameInfo (h : FrameHdr) (slots : List FlitSlot) : BitVec 6200 :=
  BitVec.ofNat 6200 (h.word + (slots.zipIdx.map fun e => e.1.word * 2 ^ (36 + 268 * e.2)).sum)

/-- Symbol `j` of the codeword: 620 information symbols, then 20 check symbols (R253). -/
def frameSymbol (x : BitVec 6200) (j : Nat) : BitVec 10 :=
  if j < 620 then x.extractLsb' (10 * j) 10 else Config.frameCheck x (Fin.ofNat 20 (j - 620))

/-- Trained lanes of a port, and the lane on which symbol `j` travels (R253, R258). -/
def Port.width (q : Port) : Nat := if q.widthCode.val = 0 then 1 else 2 ^ (q.widthCode.val + 1)
def Port.laneOf (q : Port) (j : Nat) : Nat := q.laneGroup.val * q.width + j % q.width

/-- A frame as it goes out on a port (R253 to R255). -/
def frameMsg (p : Nat) (q : Port) (h : FrameHdr) (flits : List Flit) : OutMsg :=
  let slots := flits.map Flit.slot ++ List.replicate (23 - flits.length) FlitSlot.idle
  let x := frameInfo h slots
  .frame p h slots ((List.range q.width).map fun l => ((List.range 640).filter fun j => j % q.width = l).map (frameSymbol x))

/-- An XFER packet whose background flag is set (R282, R296). -/
def Packet.background (p : Packet) : Bool := p.hdr.kind == 7 && (fieldLE p.content 1 1).testBit 1

/-- The place in the queue of the packet that VC `vc` sends next: the one begun, else the first, and on a torus data VC the
first of the class whose turn it is (R264, R282). -/
def Port.nextOn (q : Port) (torus : Bool) (own : W16) (vc : Nat) : Option Nat :=
  let mine := fun (t : TxPkt) => t.vc.val == vc
  match q.txq.findIdx? (fun t => mine t && t.done != 0) with
  | some i => some i
  | none =>
    if torus && vc < 2 then
      let bg := fun (t : TxPkt) => t.pkt.background
      let fwd := fun (t : TxPkt) => t.pkt.hdr.src != own
      let has := fun (b : Bool) => q.txq.any fun t => mine t && bg t == b
      let wantBg := has true && (!has false || q.share ≥ 15)
      let cls := fun (t : TxPkt) => mine t && bg t == wantBg
      (q.txq.findIdx? fun t => cls t && fwd t != q.lastFwd) <|> q.txq.findIdx? cls
    else q.txq.findIdx? mine

/-- A Bruix port sends a layer's tap reports before the layer's last end-of-slice marker, and the marker before the layer's signature
(R237). -/
def Packet.leads (a b : Packet) : Bool :=
  let item := fun (k : Packet) (ty : Nat) => k.hdr.kind == 3 && fieldLE k.content 0 2 == ty
  let marker := fun (k : Packet) => k.hdr.kind == 2 && fieldLE k.content 0 1 == 3 && (fieldLE k.content 0x14 2).testBit 0
  a.hdr.tag == b.hdr.tag && ((item a 0x31 && marker b && fieldLE a.content 4 2 == fieldLE b.content 2 2) ||
    (marker a && item b 0x32 && fieldLE a.content 2 2 == fieldLE b.content 4 2))

/-- A packet of the queue that one queued before it leads. -/
def Port.awaits (q : Port) (i : Nat) : Bool :=
  (q.txq[i]?).any fun u => (q.txq.take i).any fun t => t.pkt.leads u.pkt

/-- The VCs in the order in which a port's egress tries them (R264, R282). -/
def Port.vcOrder (q : Port) (p : Nat) : List Nat :=
  if p < 8 then [2, 0]
  else if p = 8 then 2 :: (([0, 1, 3].filter fun v => v > q.share) ++ [0, 1, 3].filter fun v => v ≤ q.share)
  else if p < 15 then [2, 3, 0, 1]
  else if q.share ≥ 15 then [2, 3, 1] else [2, 1, 3]

/-- A PAIR packet that carries a repair or rejoin copy (R363; log entry 25). -/
def Packet.pairCopy (p : Packet) : Bool := p.hdr.kind == 5 && (fieldLE p.content 1 1 == 8 || fieldLE p.content 1 1 == 10)

/-- A packet on the pair link that is forwarded: for a site (R272), or a result of this side's plane (R360). -/
def Packet.forwarded (p : Packet) : Bool :=
  if p.hdr.kind == 5 then fieldLE p.content 1 1 == 2
  else p.hdr.flags.getLsbD 1 || (p.hdr.kind == 4 && fieldLE p.content 0 1 == 0x4A)

/-- The place in the queue of the packet that VC 0 of the pair link sends next: while forwarded packets wait, at most 1 packet in 8 is one of
a repair or rejoin copy (R363). -/
def Port.nextPair (q : Port) : Option Nat :=
  let mine := fun (t : TxPkt) => t.vc.val == 0
  (q.txq.findIdx? fun t => mine t && t.done != 0) <|>
    if (q.txq.any fun t => t.pkt.forwarded) && q.copyGap < 7 then q.txq.findIdx? fun t => mine t && !t.pkt.pairCopy
    else q.txq.findIdx? mine

/-- Put the next new flit into the replay buffer, if there is one under credits and buffer space; on a spoke a stream flit takes one of
those that the arbiter's grants move (R164, R264, R266, R268). -/
def Port.sendOne (q : Port) (p : Nat) (own : W16) (stamp : Packet → Packet) : Option (Port × Flit × Bool) :=
  if 512 ≤ q.replay.length then none
  else
    let pick := (q.vcOrder p).findSome? fun v =>
      if q.credit v = 0 || (p < 8 && v = 0 && q.granted = 0) then none
      else ((if p = 8 && v = 0 then q.nextPair else q.nextOn (9 ≤ p && p < 15) own v).filter fun i => p < 15 || !q.awaits i).map fun i => (v, i)
    pick.bind fun (v, i) => (q.txq[i]?).map fun t0 =>
      let t := if t0.done = 0 then { t0 with pkt := stamp t0.pkt } else t0
      let last := t.done + 1 == t.pkt.flitCount
      let f : Flit := ⟨q.nextSeq, t.vc, t.done == 0, last, t.pkt.flit t.done⟩
      let share :=
        if p = 8 then (if v = 2 then q.share else v)
        else if p < 15 then (if v < 2 && last then (if t.pkt.background then 0 else q.share + 1) else q.share)
        else if v = 3 then 0 else if v = 1 then q.share + 1 else q.share
      let txq := if last then q.txq.eraseIdx i else q.txq.set i { t with done := t.done + 1 }
      ({ q with nextSeq := q.nextSeq + 1, replay := q.replay ++ [f], txq := txq
                sent := q.sent.set v ((q.sent.getD v 0 + 1) % 4096), share := share
                granted := if v = 0 then q.granted - 1 else q.granted
                copyGap := if p = 8 && last then (if t.pkt.pairCopy then 0 else q.copyGap + 1) else q.copyGap
                lastFwd := if v < 2 && last then t.pkt.hdr.src != own else q.lastFwd }, f, last && t.frees)

/-- Fill up to `n` slots with new flits; whether a freed freeze frame has gone out with them (R242). -/
def Port.sendNew (p : Nat) (own : W16) (stamp : Packet → Packet) : Nat → Port → List Flit → Bool → Port × List Flit × Bool
  | 0, q, l, b => (q, l, b)
  | n + 1, q, l, b =>
    match q.sendOne p own stamp with
    | some (q', f, fr) => Port.sendNew p own stamp n q' (l ++ [f]) (b || fr)
    | none => (q, l, b)

/-- The calibration entry of a port in units of 2^−16 ns (R430). -/
def State.calEntry (s : State) (r : Reg) (p : Nat) : Int := (s.rd r p).toInt * 256

/-- A TIME message leaves through a torus port (R433, R434): corr takes tx_lat + asym, and of a message that is forwarded the residence, from
whose ticks the ingress has taken its own; a response takes t_c. -/
def State.timeEgress (s : State) (p : Nat) (k : Packet) : Packet :=
  if k.hdr.kind != 0xB || p < 9 || 15 ≤ p then k
  else
    let own := k.hdr.src == s.position
    let corr := (fieldLE k.content 8 8 : Int) + s.calEntry .tmuCalTx (p - 9) + s.calEntry .tmuCalAsym (p - 9) +
      if own then 0 else (s.tmu.count : Int) * 65536
    let c := k.content.take 8 ++ leBytes 8 (corr % 2 ^ 64).toNat ++ k.content.drop 16
    let d := if fieldLE c 1 1 = 0 then s.tmu.dom0 else s.tmu.dom1
    { k with content := if own && fieldLE c 0 1 = 2 then c.take 0x28 ++ timeBytes d.t ++ c.drop 0x36 else c }

/-- The own TIME request of a domain has left: t_a is the domain's time (R434). -/
def Domain.departed (d : Domain) (i : Nat) (own : W16) (l : List TxPkt) : Domain :=
  if d.reqOpen && l.any fun x => x.pkt.hdr.src == own && fieldLE x.pkt.content 0 1 == 1 && fieldLE x.pkt.content 1 1 == i &&
      fieldLE x.pkt.content 2 2 == d.reqSeq then { d with reqTa := some (d.t / 2 ^ 24) } else d

/-- TIME messages that a frame has begun to send. -/
def State.timeDeparted (s : State) (before after : Port) : State :=
  let wait := fun (q : Port) => q.txq.filter fun (x : TxPkt) => x.pkt.hdr.kind == 0xB && x.done == 0
  let gone := (wait before).filter fun x => !(wait after).contains x
  if gone.isEmpty then s
  else { s with tmu.dom0 := s.tmu.dom0.departed 0 s.position gone, tmu.dom1 := s.tmu.dom1.departed 1 s.position gone }

/-- Stream packets that wait in a port's egress or are being sent. -/
def Port.streams (q : Port) : Nat := (q.txq.filter fun (x : TxPkt) => x.pkt.hdr.kind == 1).length

/-- Stream packets whose last flit has entered the replay buffer leave the stream buffer (R161); a grant whose transfer has started can
no longer be withdrawn (R168). -/
def State.streamSent (s : State) (p : Nat) (before after : Port) : State :=
  if 8 ≤ p then s
  else
    let n := before.streams - after.streams
    let t := if n = 0 then s
      else ({ s with stm.buffers := Tbl.set s.stm.buffers p ((Tbl.get s.stm.buffers [] p).drop n) }).bumpBy .stmPktsSent n p
    let a := Tbl.get t.stm.arbs Arb.init (16 + p)
    if after.granted < 8 && a.granted.isSome then { t with stm.arbs := Tbl.set t.stm.arbs (16 + p) { a with granted := none } } else t

/-- Assemble and send the frame of a frame boundary (R254, R266 to R268, R270). -/
def State.frameTx (s : State) (p : Nat) : State :=
  let q := s.port p
  if !q.up then s
  else
    let again := q.resend.take 23
    let q1 := { q with resend := q.resend.drop 23 }
    let (q2, fresh, fr) := if q1.resend.isEmpty then Port.sendNew p s.position (s.timeEgress p) (23 - again.length) q1 [] false else (q1, [], false)
    let flits := again ++ fresh
    let q2 := { q2 with nakSeen := q2.nakSeen.filter fun n => !flits.any fun f => f.seq == n }
    let alarm := match q2.alarm with
      | some (_, _, _, skip) => !skip
      | none => false
    let kind : Fin 4 := if alarm then 1 else if q2.nakDue then 2 else 0
    let first := (flits.head?.map Flit.seq).getD q2.nextSeq
    let word : BitVec 12 := match q2.alarm with
      | some (r, t, _, _) => if alarm then BitVec.ofNat 12 (r.val * 256 + t.toNat) else BitVec.ofNat 12 (q2.freed.getD q2.creditVc.val 0)
      | none => BitVec.ofNat 12 (q2.freed.getD q2.creditVc.val 0)
    let hdr : FrameHdr := ⟨kind, first, q2.rxNext - 1, if alarm then 0 else q2.creditVc, word⟩
    let al := match q2.alarm with
      | some (r, t, n, skip) => if skip then some (r, t, n, false) else if n ≤ 1 then none else some (r, t, n - 1, true)
      | none => none
    let q3 := { q2 with alarm := al, nakDue := if kind = 2 then false else q2.nakDue
                        creditVc := if alarm then q2.creditVc else q2.creditVc + 1 }
    let t := ((s.setPort p q3).timeDeparted q1 q2).streamSent p q1 q2
    let t := if fr then { t with brx.freezeHeld := none } else t
    let t := if p ≤ 8 then
        let t := t.bumpBy .spkFlitsTx flits.length p
        let t := if q2.txq.isEmpty then t
          else if 512 ≤ q2.replay.length then t.bump .spkReplayFull p
          else (List.range 4).foldl (fun t v =>
            if (q2.txq.any fun x => x.vc.val == v) && q2.credit v == 0 then t.bump .spkCreditWait (4 * p + v) else t) t
        t
      else t
    t.emit (frameMsg p q hdr flits)

/-! ### Replay (R267 to R269) -/

/-- Sequence number `a` is at or before `b` within the 512-flit window. -/
def seqLe (a b : BitVec 10) : Bool := (b - a).toNat < 512

/-- Free the replay entries up to an acknowledged number (R267). -/
def Port.ack (q : Port) (a : BitVec 10) : Port :=
  let keep := q.replay.filter fun f => !seqLe f.seq a
  { q with replay := keep, resend := q.resend.filter fun f => !seqLe f.seq a
           resends := if keep.length = q.replay.length then q.resends else 0 }

/-- The replay rate window of a port as it stands now, and its threshold; a torus port has no register for them and takes the reset values
(R269, R276, R279). -/
def State.linkWindow (s : State) (p : Nat) : Nat × Nat × Bool :=
  windowAt s.now (1000 * if p ≤ 8 then max 1 (s.fld .spkParityWin 0 16 p) else 1000) (s.port p).rateWin
def State.linkRate (s : State) (p : Nat) : Nat := if p ≤ 8 then s.fld .spkParityWin 16 16 p else 64

/-- Resend from flit `n` (R268); the replay counts in the port's rate window (R269). -/
def State.resendFrom (s : State) (p : Nat) (n : BitVec 10) : State :=
  let q := s.port p
  let l := q.replay.dropWhile fun f => f.seq != n
  if l.isEmpty then s
  else
    let w := s.linkWindow p
    let t := s.setPort p { q with resend := l, resends := if l.length = q.replay.length then q.resends + 1 else q.resends
                                  rateWin := (w.1, w.2.1 + 1, w.2.2) }
    if p ≤ 8 then t.bump .spkReplays p else t

/-- A NAK that names `n`: only the first since `n` was last sent counts (R268). -/
def State.replayStart (s : State) (p : Nat) (n : BitVec 10) : State :=
  let q := s.port p
  if !q.up || q.nakSeen == some n then s
  else (s.setPort p { q with nakSeen := some n }).resendFrom p n

/-- ack_seq has not advanced within 256 ns (R268). -/
def State.ackTimeout (s : State) (p : Nat) : State :=
  match (s.port p).up, (s.port p).replay.head? with
  | true, some f => s.resendFrom p f.seq
  | _, _ => s

/-- While waiting for a replay, the NAK is repeated (R267). -/
def State.nakRepeat (s : State) (p : Nat) : State :=
  let q := s.port p
  if q.up && q.rxWait then s.setPort p { q with nakDue := true } else s

/-- The receiver asks for a replay from its next flit (R267). -/
def State.nakBegin (s : State) (p : Nat) : State :=
  let q := s.port p
  if q.rxWait then s
  else
    let t := s.setPort p { q with rxWait := true, nakDue := true }
    if p ≤ 8 then t.bump .spkNakTx p else t

/-! ### Leaving ACTIVE (R162, R220, R257, R259, R269) -/

/-- The steps whose tags are open on a port fail the link-integrity check (R36, R269). -/
def State.failLinks (s : State) (p : Nat) : State :=
  let mark := fun (j : Job) =>
    if (p < 8 && j.sites.contains p) || p == 8 || 9 ≤ p then
      { j with open_ := j.open_.map fun (o : OpenStep) => { o with linkFail := true } }
    else j
  if p < 15 then { s with jobs := s.jobs.map fun e => (e.1, mark e.2) } else s

/-- Spoke `k` of this side has left ACTIVE: its stream buffer is discarded and its engine parked; a rollback no longer waits
for a site that nothing reaches; a site that neither side reaches aborts its job (R53, R162, R324). -/
def State.spokeLost (s : State) (k : Nat) : State :=
  let n := (Tbl.get s.stm.buffers [] k).length
  let t := if n = 0 then s else s.bumpBy .stmPktsDropped n k
  let t := if t.stm.parked.getLsbD k then t else t.raise .stmIntStatus 0
  let t := { t with stm.buffers := Tbl.erase t.stm.buffers k, stm.parked := t.stm.parked ||| (1#8 <<< k) }
  if t.siteReach k then t
  else
    let t := { t with
      jobs := t.jobs.map fun (e : Nat × Job) => (e.1, { e.2.gateSite none k with admittedSites := e.2.admittedSites &&& ~~~(1#8 <<< k) })
      host.siteSent := t.host.siteSent.filter fun (m : SiteSent) => m.site != k || m.cmd != 0 }
    if Tbl.has t.side.siteFlags k then (t.evReason 2 .spk 0xFFFF 0 0 [k]).siteAbort k holdSiteDown else t

/-- An outbound item of the Bruix block as a port sends it: the header names that port and its controller (R220, R261). -/
def State.viaPort (s : State) (p : Nat) (k : Packet) : Packet :=
  { k with hdr := { k.hdr with flags := k.hdr.flags &&& ~~~1 ||| BitVec.ofNat 8 (p - 15), dst := (s.port p).peerId } }

/-- A sample record (R180). -/
def Packet.isSample (k : Packet) : Bool := k.hdr.kind == 3 && fieldLE k.content 0 2 == 0x30

/-- A sample record whose only port has left ACTIVE is dropped at source (R240, log entry 40). -/
def State.recordLost (s : State) (k : Packet) : State :=
  match s.brx.find k.hdr.tag with
  | none => s
  | some (pos, t) => s.sampleDrop pos { t with sent := t.sent - 1 }

/-- A port leaves ACTIVE for a state. On the Bruix block, what only this port held goes out on the other, or is held while both are down
(R220); sample records stay with the ports that had a credit for them (R240). -/
def State.leaveActive (s : State) (p : Nat) (st : LinkState) : State :=
  let q := s.port p
  if !q.up then s.setPort p { q with state := st }
  else if 15 ≤ p then
    let other := if p = 15 then 16 else 15
    let answer := fun (t : TxPkt) => t.pkt.hdr.kind == 4 && [0x21, 0x26, 0x27].contains (fieldLE t.pkt.content 0 1)
    let t := s.portStop p st
    let t := if q.txq.any TxPkt.frees then { t with brx.freezeHeld := none } else t
    let up := (s.port other).up
    let t := (q.txq.filter fun x => x.pkt.isSample && (x.sole || !up)).foldl (fun (u : State) x => u.recordLost x.pkt) t
    let keep := q.txq.filter fun x => !answer x && !x.pkt.isSample && (x.sole || !up)
    if up then keep.foldl (fun (u : State) x => u.queuePkt other x.vc (u.viaPort other x.pkt) false true) t
    else { t with brx.outbound := t.brx.outbound ++ keep.map fun (x : TxPkt) => (x.vc, x.pkt) }
  else
    let t := s.portStop p st
    if p ≤ 8 then
      let t := t.evInt 1 .spkIntStatus 1 0 0 [p] p
      if p < 8 then t.spokeLost p else t
    else (t.evInt 1 .torIntStatus 1 0 0 [p - 9]).surveyAll

/-- Resends of one flit before an escalation; the port classes without a register take its reset value. -/
def State.escalateAttempts (s : State) (p : Nat) : Nat := if p ≤ 8 then max 1 (s.fld .spkCtrl 5 3 p) else 3

/-- Escalation (R269). -/
def State.linkEscalate (s : State) (p : Nat) : State :=
  let q := s.port p
  match q.replay.head? with
  | none => s
  | some f =>
    if !q.up || q.resends < s.escalateAttempts p then s
    else
      let t := s.failLinks p
      let w := s.wilostRec 8 0 0 (if p < 8 then (s.siteLogical p).toNat else 0) q.peerId.toNat
        [(31, cborArray [cborNat (if p < 8 then 0 else if p = 8 then 2 else 1), cborNat (if p < 8 then p else if p = 8 then 0 else p - 9),
          cborNat f.seq.toNat])]
      let t := if p ≤ 8 then (t.bump .spkEscalations p).evInt 1 .spkIntStatus 4 0 0 [p, f.seq.toNat] p (some w)
        else if p < 15 then t.evReason 1 .tor 0xFFFF 0 0 [p - 9, f.seq.toNat] (some w) else t
      t.leaveActive p .down

/-- The port's replays within a window exceed the threshold: once per window (R269). -/
def State.linkReplayRate (s : State) (p : Nat) : State :=
  let w := s.linkWindow p
  if w.2.2 || w.2.1 ≤ s.linkRate p then s
  else
    let t := s.setPort p { s.port p with rateWin := (w.1, w.2.1, true) }
    if p ≤ 8 then t.evInt 1 .spkIntStatus 5 0 0 [p] p
    else if p < 15 then t.evReason 1 .tor 0xFFFF 0 0 [p - 9] else t

/-- The second in which a port's heavily corrected frames are counted, as it stands now (R269). -/
def State.heavyWindow (s : State) (p : Nat) : Nat × Nat × Bool := windowAt s.now (10 ^ 9) (s.port p).heavyWin

/-- Heavily corrected frames exceed SPK.HEAVY_THRESH within one second: once in it (R269). -/
def State.heavyOver (s : State) (p : Nat) : Bool := let w := s.heavyWindow p; !w.2.2 && (s.rd .spkHeavyThresh p).toNat < w.2.1

/-! ### Training (R257 to R260, R279, R280) -/

/-- The lanes of a port. -/
def portLanes (p : Nat) : BitVec 16 := if 9 ≤ p && p < 15 then 0xFF else 0xFFFF

/-- Start training: full equalisation of every lane where `full` (R257, R260); an unusable port stays as it is (R468). -/
def State.trainStart (s : State) (p : Nat) (full : Bool) : State :=
  if !s.portUsable p then s else
  let t := if (s.port p).up then (s.failLinks p).leaveActive p .down else s
  let q := t.port p
  t.setPort p { Port.init .detect with eqLanes := if full then portLanes p else 0, trainStart := s.now
                                       peerId := q.peerId, peerProto := q.peerProto, peerRev := q.peerRev }

/-- The training of a port has failed (R257, R259). -/
def State.trainFail (s : State) (p : Nat) : State :=
  let q := s.port p
  let t := s.setPort p { q with state := .down, widthCode := 0 }
  let t := if p ≤ 8 then
      (t.wr .spkTrainTime (BitVec.ofNat 32 ((s.now - q.trainStart) / 1000)) p).evInt 1 .spkIntStatus 2 0 0 [p] p
    else if p < 15 then t.evInt 1 .torIntStatus 1 0 0 [p - 9] else t
  t

/-- DETECT has found the peer: ALIGN measures the lanes on their saved settings (R257). A Bruix port that is DOWN trains when its
controller starts training. -/
def State.peerDetect (s : State) (p : Nat) : State :=
  if (s.port p).state = .detect || (15 ≤ p && (s.port p).state == .down) then s.setPort p { s.port p with state := .align } else s

/-- No peer within 10 ms (R257): DOWN. A Bruix port goes on waiting. -/
def State.detectTimeout (s : State) (p : Nat) : State :=
  if (s.port p).state = .detect && p < 15 then s.trainFail p else s

/-- Lanes that pass: at most 4,000 bit errors in the 4 × 10^8 bits measured (R257); a lane without a count has not been measured. -/
def lanesPassed (errors : List Nat) : BitVec 16 :=
  BitVec.ofNat 16 (((List.range 16).filter fun l => (errors[l]?).any fun n => n ≤ 4000).map fun l => 2 ^ l).sum

/-- The receive buffers of a port, in flits (R265, R281). -/
def rxBuffers (p : Nat) : List Nat :=
  if p < 8 then [0, 2048, 256, 2048] else if p = 8 then [2048, 2048, 256, 2048]
  else if p < 15 then [2048, 2048, 256, 256] else [2048, 0, 256, 0]

/-- A port enters PARAM and sends what it exchanges: version 1, identity, side or revision, receive buffers, lane results (R257). -/
def State.paramSend (s : State) (p : Nat) (q : Port) : State :=
  (s.setPort p q).emit (if 15 ≤ p then .params p 1 s.brx.physical s.brx.revision.val (rxBuffers p) q.lanesGood
    else .params p 1 s.pwr.strapsAt.id s.sideNat (rxBuffers p) q.lanesGood)

/-- The error measurement of ALIGN is over: failed lanes, or every lane under full equalisation, go to EQUALISE (R257). -/
def State.alignDone (s : State) (p : Nat) (errors : List Nat) : State :=
  let q := s.port p
  if q.state != .align then s
  else
    let passed := lanesPassed errors
    let all := portLanes p
    let full := q.eqLanes != 0 || (p ≤ 8 && s.fld .spkCtrl 3 1 p == 1) || (9 ≤ p && p < 15 && s.fld .torCtrl 3 1 == 1)
    let eq := if full then all else all &&& ~~~passed
    let q := { q with state := if eq = 0 then .param else .equalise, eqLanes := eq, lanesGood := passed &&& all, savedUsed := eq == 0 }
    if eq = 0 then s.paramSend p q else s.setPort p q

/-- EQUALISE is over and its lanes have been measured again (R257). -/
def State.equaliseDone (s : State) (p : Nat) (errors : List Nat) : State :=
  let q := s.port p
  if q.state != .equalise then s
  else s.paramSend p { q with state := .param, lanesGood := (q.lanesGood &&& ~~~q.eqLanes) ||| (lanesPassed errors &&& q.eqLanes) }

/-- Lanes `lo` to `lo + n - 1` have all passed. -/
def lanesAll (m : BitVec 16) (lo n : Nat) : Bool := m.toNat / 2 ^ lo % 2 ^ n == 2 ^ n - 1

/-- Width code and lane group that the lanes allow (R258, R279). -/
def chooseWidth (torus : Bool) (m : BitVec 16) : Option (Fin 4 × Fin 4) :=
  if torus then
    if lanesAll m 0 8 then some (2, 0) else if lanesAll m 0 4 then some (1, 0) else if lanesAll m 4 4 then some (1, 1) else none
  else if lanesAll m 0 16 then some (3, 0)
  else if lanesAll m 0 8 then some (2, 0)
  else if lanesAll m 8 8 then some (2, 1)
  else ([0, 1, 2, 3] : List (Fin 4)).findSome? fun g => if lanesAll m (4 * g.val) 4 then some (1, g) else none

/-- PARAM is over: ACTIVE at the width chosen, or DOWN (R257 to R259). -/
def State.paramExchange (s : State) (p : Nat) (r : ParamResult) : State :=
  let q := s.port p
  if q.state != .param then s
  else
    let lanes := q.lanesGood &&& r.lanes
    match (if r.ok && r.proto == 1 then chooseWidth (9 ≤ p && p < 15) lanes else none) with
    | none => (s.setPort p { q with lanesGood := lanes }).trainFail p
    | some (w, g) =>
      let n : Port := { Port.init .active with
        lanesGood := lanes, widthCode := w, laneGroup := g, savedUsed := q.savedUsed, peerId := r.peerId
        peerProto := r.proto, peerRev := r.peerRev, peerBuf := r.buffers, trainStart := q.trainStart }
      let t := s.setPort p n
      let t := if q.savedUsed then t else { t with pwr.fullTrained := Tbl.set t.pwr.fullTrained p (lanes.setWidth 32) }
      let t :=
        if p ≤ 8 then
          let t := t.wr .spkTrainTime (BitVec.ofNat 32 ((s.now - q.trainStart) / 1000)) p
          let t := t.raise .spkIntStatus 0 p
          if w = 3 then t else t.evInt 1 .spkIntStatus 3 0 0 [p, w.val] p
        else if p < 15 then (if w = 2 then t else t.evInt 1 .torIntStatus 2 0 0 [p - 9, w.val])
        else t.brx.outbound.foldl (fun (u : State) (x : Fin 4 × Packet) => u.queuePkt p x.1 (u.viaPort p x.2) false true) { t with brx.outbound := [] }
      t

/-- A port that is DOWN retrains by itself, at most 3 times within 1 s of the first attempt, and stays DOWN after that (R260);
a training that a command starts, or that succeeds, ends the count. -/
def State.retrain (s : State) (p : Nat) : State :=
  let q := s.port p
  let spent := match q.attempts with
    | [] => false
    | a :: _ => decide (3 ≤ q.attempts.length) || decide (a + 10 ^ 9 ≤ s.now)
  if q.state != .down || s.pair.fenced || spent || !s.portUsable p then s
  else
    let t := s.trainStart p false
    t.setPort p { t.port p with attempts := q.attempts ++ [s.now] }

/-- AUTO_RETRAIN (R260): spokes under SPK.CTRL.auto_retrain, the pair link always. -/
def State.autoRetrain (s : State) (p : Nat) : State :=
  if (p < 8 && s.fld .spkCtrl 4 1 p == 1) || p == 8 then s.retrain p else s

/-- Light on lane 0 of a torus port that is DOWN (R280). -/
def State.lightDetect (s : State) (p : Nat) : State :=
  if s.fld .torCtrl 4 1 == 1 && (s.port (9 + p)).state == .down && !s.pair.fenced then s.trainStart (9 + p) false else s

/-- SPK.CTRL.disable (R275): 1 takes the port to DISABLED at once; when it is cleared the pair link trains again. -/
def State.disableWrite (s : State) (p : Nat) (disable : Bool) : State :=
  let t := s.wrFld .spkCtrl 0 1 (if disable then 1 else 0) p
  if disable then
    if (s.port p).up then (t.failLinks p).leaveActive p .disabled else t.portStop p .disabled
  else if p = 8 && (s.port p).state == .disabled && !s.pair.fenced then t.trainStart p false
  else t

/-! ### Receiving (R255, R261 to R263, R266, R267, R270 to R272) -/

/-- The header that a flit spells (R261). -/
def parseHdr (d : BitVec 256) : PktHdr :=
  let b := leBytes 32 d.toNat
  ⟨b.getD 0 0, b.getD 1 0, b.getD 2 0, b.getD 3 0, BitVec.ofNat 32 (fieldLE b 4 4), BitVec.ofNat 32 (fieldLE b 8 4),
    BitVec.ofNat 32 (fieldLE b 12 4), BitVec.ofNat 16 (fieldLE b 16 2), BitVec.ofNat 16 (fieldLE b 18 2),
    BitVec.ofNat 32 (fieldLE b 20 4), BitVec.ofNat 64 (fieldLE b 24 8)⟩

/-- The kinds that may arrive on a VC of a port (R262, R265, R281). -/
def kindOk (p vc kind : Nat) : Bool :=
  if p < 8 then (kind == 2 && vc == 1) || (kind == 4 && vc == 2) || (kind == 3 && vc == 3)
  else if p = 8 then (kind == 5 && vc == 0) || (kind == 2 && vc == 1) || (kind == 4 && vc == 2) || (kind == 3 && vc == 3)
  else if p < 15 then (kind == 7 && vc < 2) || (8 ≤ kind && kind ≤ 0xC && 2 ≤ vc)
  else (kind == 1 && vc == 0) || (kind == 4 && vc == 2)

/-- The form of a received packet of `n` flits (R263). -/
def pktOk (p vc n : Nat) (h : PktHdr) : Bool :=
  h.flags.toNat < 16 && h.reserved == 0 && kindOk p vc h.kind.toNat && h.length.toNat == (n - 1) * 32 &&
    h.length.toNat ≤ 8388672

/-- A packet discarded under R263; more than 4,096 of them within one second isolate an ingress (R328). -/
def State.malformed (s : State) (p : Nat) : State :=
  if 15 ≤ p then s.brxSeqErr
  else
    let q := s.port p
    let same := s.now < q.malSecond + 10 ^ 9
    let n := if same then q.malCount + 1 else 1
    let iso := p != 8 && 4096 < n && !q.isolated
    let t := s.setPort p { q with malSecond := if same then q.malSecond else s.now, malCount := n, isolated := q.isolated || iso }
    let t := if p ≤ 8 then t.evCount 1 .spkMalformed 0 0 [p] p else t.evReason 1 .tor 0xFFFF 0 0 [p - 9]
    if iso then (if p < 8 then t.evReason 1 .spk 0xFFFF 0 0 [p] else t.evReason 1 .tor 0xFFFF 0 0 [p - 9]) else t

/-- Hand a packet to its holder, and forward it where R272 asks for it. -/
def State.deliver (s : State) (p vc : Nat) (k : Packet) : State :=
  if p < 8 then
    let t := s.emit (.delivered p k)
    if (s.port 8).up && Tbl.has s.side.siteFlags p && !s.partnerSpoke p then
      (t.queuePkt 8 (Fin.ofNat 4 vc) { k with hdr.flags := k.hdr.flags ||| 2 }).bump .spkForwarded p
    else t
  else if p = 8 && k.hdr.flags.getLsbD 1 then
    let toSite := k.hdr.kind == 4 && fieldLE k.content 0 1 < 0x20
    if toSite then
      let site := siteNo k.hdr.dst
      if (s.port site).up then s.queuePkt site 2 { k with hdr.flags := k.hdr.flags &&& ~~~2 } else s
    else s.emit (.delivered (siteNo k.hdr.src) k)
  else s.emit (.delivered p k)

/-- A packet is complete on a VC. -/
def State.packetIn (s : State) (p vc : Nat) (flits : List (BitVec 256)) : State :=
  match flits with
  | [] => s
  | h :: rest =>
    if (s.port p).isolated then s
    else if pktOk p vc flits.length (parseHdr h) then
      s.deliver p vc ⟨parseHdr h, rest.flatMap fun d => leBytes 32 d.toNat⟩
    else s.malformed p

/-- A flit accepted in order: it joins its packet and frees its buffer space unless credits are withheld (R266). A packet begins with sop
(R261): flits that begin none are dropped, and are counted as one malformed packet at their eop. So is a packet with a nonzero reserved
field in one of its flits (R10, R255). -/
def State.flitIn (s : State) (p : Nat) (f : FlitSlot) : State :=
  let q := s.port p
  let vc := f.vc.val
  let part := q.rxPart.getD vc []
  let stray := !f.sop && part.isEmpty
  let broken := (f.sop && !part.isEmpty) || (stray && f.eop)
  let cur := if stray then [] else (if f.sop then [] else part) ++ [f.data]
  let bad := f.reserved != 0 || (!f.sop && q.rxBad.getD vc false)
  let hold := q.withhold.getD vc false
  let q' := { q with
    rxNext := q.rxNext + 1, rxWait := false
    rxPart := q.rxPart.set vc (if f.eop then [] else cur)
    rxBad := q.rxBad.set vc (!f.eop && bad)
    held := if hold then q.held.set vc (q.held.getD vc 0 + 1) else q.held
    freed := if hold then q.freed else q.freed.set vc ((q.freed.getD vc 0 + 1) % 4096) }
  let t := s.setPort p q'
  let t := if p ≤ 8 then t.bump .spkFlitsRx p else t
  let t := if broken then t.malformed p else t
  if !f.eop then t else if bad && !cur.isEmpty then t.malformed p else t.packetIn p vc cur

/-- Even parity of the four data words (R255). -/
def FlitSlot.parityOk (f : FlitSlot) : Bool := f.parity == flitParity f.data

/-- The flits of a frame in order (R267): the first parity failure errors the rest. -/
def State.flitsIn (p : Nat) : List (BitVec 10 × FlitSlot) → State → State
  | [], s => s
  | (n, f) :: r, s =>
    if !f.parityOk then
      let t := if p ≤ 8 then s.bump .spkParityErr p else s
      t.nakBegin p
    else if n = (s.port p).rxNext then State.flitsIn p r (s.flitIn p f)
    else State.flitsIn p r s

/-- Act on an alarm (R270, R271, R285). -/
def State.alarmAct (s : State) (p : Nat) (reason : Nat) (tag : Byte) : State :=
  if 15 ≤ p then (if reason = 2 || reason = 3 then s.closeTags true (some 2) [] else s)
  else if p < 8 then
    if reason = 1 then
      let t := s.bump .spkAlarmsRx p
      let ident := match (t.jobs.vals.filter fun j => j.sites.contains p).findSome? fun j => j.tag? tag with
        | some o => o.step
        | none => tag.setWidth 64
      (t.evInt 2 .spkIntStatus 6 0 ident [p] p).siteAbort p holdSiteHang
    else s
  else if p = 8 then
    if reason = 2 then
      let t := (s.bump .spkAlarmsRx 8).raise .spkIntStatus 6 8
      (t.jobs.vals.filter fun j => j.open_.head?.any fun o => o.step.setWidth 8 == tag).foldl
        (fun t j => t.jobAbort j.id holdRemoteAbort (some true)) t
    else if reason = 3 then
      let t := (s.bump .spkAlarmsRx 8).raise .spkIntStatus 6 8
      let t := t.originate 3 0 0 ((List.range 8).filter fun k => t.jobs.vals.any fun j => j.sites.contains k) true
      t.jobs.vals.foldl (fun t j => t.jobAbort j.id holdRemoteAbort (some false)) t
    else s
  else s

/-- An ALARM header: the repeats of one alarm, in every second header, have no effect (R270). -/
def State.alarmHdr (s : State) (p : Nat) (w : BitVec 12) : State :=
  let q := s.port p
  let again := match q.alarmSeen with
    | some (x, n) => x == w && decide (0 < n)
    | none => false
  if again then s
  else (s.setPort p { q with alarmSeen := some (w, 15) }).alarmAct p (w.toNat / 256) (w.setWidth 8)

/-- A frame arrives on a port that is ACTIVE (R267). Up to 10 wrong symbols are corrected, and counted on the lane on which they
travelled; a frame with more is uncorrectable (R253). -/
def State.frameRx (s : State) (p : Nat) (f : Frame) : State :=
  if !(s.port p).up then s
  else
    let n := f.errors.eraseDups.length
    let s := if p ≤ 8 && n != 0 && n ≤ 10 then
        let t := f.errors.eraseDups.foldl (fun (t : State) e => t.bump .spkLaneSerr (16 * p + (t.port p).laneOf e.val)) s
        let t := t.bumpBy .spkFecCorr n p
        if 7 ≤ n then
          let w := t.heavyWindow p
          (t.setPort p { t.port p with heavyWin := (w.1, w.2.1 + 1, w.2.2) }).bump .spkFecHeavy p
        else t
      else s
    if 10 < n || f.hdr.kind = 3 then
      let t := if p ≤ 8 then s.bump .spkFecUncorr p else s
      t.nakBegin p
    else
      let q := s.port p
      let q := { q with alarmSeen := q.alarmSeen.bind fun e => if e.2 ≤ 1 then none else some (e.1, e.2 - 1) }
      let q := q.ack f.hdr.ackSeq
      let q := if f.hdr.kind = 1 then q
        else { q with peerFreed := q.peerFreed.set f.hdr.creditVc.val f.hdr.credits.toNat }
      let t := s.setPort p q
      let t := if f.hdr.kind = 2 then t.replayStart p (f.hdr.ackSeq + 1) else t
      let valid := f.slots.filter FlitSlot.valid
      let t := State.flitsIn p (valid.zipIdx.map fun e => (f.hdr.firstSeq + BitVec.ofNat 10 e.2, e.1)) t
      if f.hdr.kind = 1 then t.alarmHdr p f.hdr.credits else t

end Sys2Proof.Machine
end

