-- ==== Sys2Proof/Machine/Torus.lean ====
section
/-! DEFINITION. The torus (10_torus_control_plane.md): alarm lanes, survey, routes, landings and the fixed-tree
collectives. What a collective's result or a landing's data does is in the families that ask for them. -/
namespace Sys2Proof.Machine

/-! ### Alarm lanes (R284 to R287) -/

/-- A field of an alarm slot. -/
def slotFld (x : BitVec 128) (lo w : Nat) : Nat := x.toNat / 2 ^ lo % 2 ^ w

/-- Lane 0 gains or loses lock (R284). -/
def State.alarmLane (s : State) (p : Nat) (up : Bool) : State :=
  { s with tor.neigh := Tbl.set s.tor.neigh p { s.neigh p with alarmUp := up } }

/-- An alarm acted on by the control island (R287). -/
def State.torusAlarm (s : State) (reason : Nat) (origin : W16) (tag : Byte) (job : W32) : State :=
  let t := s.bump .torAlarmsRx
  if reason = 2 then
    match t.job? job with
    | none => t
    | some j =>
      let ident := ((j.tag? tag).map OpenStep.step).getD j.eventIdent
      (t.evInt 3 .torIntStatus 0 job ident [origin.toNat]).jobAbort job holdRemoteAbort (some false)
  else
    let named := t.jobs.vals.filter fun j => (t.pel j.pelSlot).any fun x => x.members.any fun m => m &&& 0xFFF == origin
    if named.isEmpty then t
    else named.foldl (fun t j => (t.modJob j.id fun j => j.causePosition origin).jobAbort j.id holdRemoteAbort (some false)) (t.evInt 3 .torIntStatus 0 0 0 [origin.toNat])

/-- An alarm slot arrives on a port whose alarm lane is up (R286); one with a nonzero reserved field is malformed (R10). -/
def State.alarmSlotRx (s : State) (p : Nat) (x : BitVec 128) : State :=
  if !(s.neigh p).alarmUp || slotFld x 112 16 != 0xA1A1 then s
  else
    let reason := slotFld x 108 4
    let hops := slotFld x 102 6
    let crc := crc32Bits ((List.range 96).map fun i => x.getLsbD (127 - i))
    if slotFld x 0 32 != crc || (reason != 2 && reason != 3) || slotFld x 96 5 != 0 then s.bump .torAlarmErrors p
    else if s.neighState p = 4 || hops = 63 then s.bump .torAlarmsForeign
    else
      let tr : Triple := ⟨BitVec.ofNat 16 (slotFld x 80 16), x.getLsbD 101, BitVec.ofNat 8 (slotFld x 64 8)⟩
      if s.tor.triples.contains tr then s.bump .torAlarmsDup
      else
        let t := { s with tor.triples := s.tor.triples ++ [tr] }
        let tag := BitVec.ofNat 8 (slotFld x 72 8)
        let job := BitVec.ofNat 32 (slotFld x 32 32)
        let t := t.slotOut (alarmSlot reason (hops + 1) tr.side tr.origin tag tr.seqNo job) (some p)
        t.torusAlarm reason tr.origin tag job

/-- A triple has been held for 100 µs (R286). -/
def State.tripleExpiry (s : State) (tr : Triple) : State :=
  { s with tor.triples := s.tor.triples.filter fun x => x != tr }

/-! ### Survey (R289 to R293) -/

/-- dims as a hello carries them (R289). -/
def State.dimsWord (s : State) : Nat := s.tor.dimX + 32 * s.tor.dimY + 1024 * s.tor.dimZ

/-- A hello on every ACTIVE port (R289). -/
def State.helloTx (s : State) : State :=
  if s.fld .torCtrl 2 1 = 0 then s
  else ((List.range 6).filter fun p => (s.port (9 + p)).up).foldl (fun t p =>
    let n := t.neigh p
    let body := leBytes 2 0x50 ++ leBytes 2 1 ++ leBytes 4 (t.rd .torPodId).toNat ++ leBytes 2 t.pwr.strapsAt.id.toNat ++
      leBytes 2 t.position.toNat ++ leBytes 1 p ++
      leBytes 1 ((if t.tor.stable then 4 else 0) + (if t.tor.position.isSome then 2 else 0) + t.sideNat) ++
      leBytes 2 t.dimsWord ++ leBytes 8 (n.helloSeq + 1).toNat ++ leBytes 1 (t.port (9 + p)).widthCode.val ++ List.replicate 7 0
    let t := { t with tor.neigh := Tbl.set t.tor.neigh p { n with helloSeq := n.helloSeq + 1 } }
    t.queuePkt (9 + p) 2 (mkPacket 9 0 0 t.sideNat 0 0 t.position n.position 0 body)) s

/-- A hello in the form of R289: type, version, port, flags, dims of 1 to 16, reserved fields. -/
def helloOk (b : List Byte) : Bool :=
  let d := fieldLE b 0xE 2
  let dim := fun (n : Nat) => 1 ≤ n && n ≤ 16
  fieldLE b 0 2 == 0x50 && fieldLE b 2 2 == 1 && fieldLE b 0xC 1 < 6 && fieldLE b 0xD 1 < 8 && d < 2 ^ 15 && dim (d % 32) && dim (d / 32 % 32) &&
    dim (d / 1024) && zeroBytes b 0x19 7

/-- A hello arrives (R290, R292); a malformed one is discarded with a Degrade event (R10; log entry 44). -/
def State.helloRx (s : State) (p : Nat) (b : List Byte) : State :=
  if !(s.port (9 + p)).up then s
  else if !helloOk b then s.evReason 1 .tor 0xFFFF 0 0 [p]
  else
    let n := s.neigh p
    let fl := fieldLE b 0xD 1
    let phys := BitVec.ofNat 16 (fieldLE b 8 2)
    let changed := n.heard && n.physical != phys
    let n' := { n with heard := true, podId := BitVec.ofNat 32 (fieldLE b 4 4), physical := phys
                       position := BitVec.ofNat 16 (fieldLE b 0xA 2), posValid := fl.testBit 1
                       port := Fin.ofNat 8 (fieldLE b 0xC 1), side := fl.testBit 0 }
    let d := fieldLE b 0xE 2
    let x := max s.tor.dimX (d % 32)
    let y := max s.tor.dimY (d / 32 % 32)
    let z := max s.tor.dimZ (d / 1024 % 32)
    let grew := x != s.tor.dimX || y != s.tor.dimY || z != s.tor.dimZ
    let t := { s with tor := { s.tor with neigh := Tbl.set s.tor.neigh p n', dimX := x, dimY := y, dimZ := z
                                          stable := s.tor.stable && !grew } }
    let t := if grew && s.tor.stable then t.evInt 1 .torIntStatus 5 0 0 [x, y, z] else t
    (t.surveyPort p changed).surveyAll

/-- 64 hello intervals without a change of dims (R290). -/
def State.dimsStable (s : State) : State := ({ s with tor.stable := true }).surveyAll

/-- No hello for 3 intervals (R292). -/
def State.neighbourTimeout (s : State) (p : Nat) : State :=
  ({ s with tor.neigh := Tbl.set s.tor.neigh p { s.neigh p with heard := false } }).surveyPort p false

/-- The engine reports the lanes with a laser fault: a fault on any takes the port DOWN (R283). -/
def State.laserFault (s : State) (p : Nat) (lanes : Byte) : State :=
  let t := { s with tor.neigh := Tbl.set s.tor.neigh p { s.neigh p with laserFault := lanes } }
  if lanes = 0 then t
  else
    let t := t.evInt 1 .torIntStatus 9 0 0 [p, lanes.toNat]
    if (t.port (9 + p)).state = .disabled then t else t.leaveActive (9 + p) .down

/-- Lanes whose received power, in µW, is below TOR.OPT_THRESH (R283, R317). -/
def State.lanesLow (s : State) (powers : List Nat) : Byte :=
  BitVec.ofNat 8 (((List.range 8).filter fun l => (powers[l]?).any fun w => w < (s.rd .torOptThresh).toNat).map fun l => 2 ^ l).sum

/-- The engine reports received power (R283): the lanes below the threshold, and the interrupt for any; the warning is the caller's. -/
def State.opticalLow (s : State) (p : Nat) (powers : List Nat) : State :=
  let low := s.lanesLow powers
  let t := { s with tor.neigh := Tbl.set s.tor.neigh p { s.neigh p with rxLow := low } }
  if low = 0 then t else t.evInt 1 .torIntStatus 9 0 0 [p, low.toNat]

/-! ### Routes (R294, R295) -/

/-- A TIME message to be forwarded comes in: corr takes rx_lat, less the ticks that the egress adds again (R434). -/
def State.timeIngress (s : State) (p : Nat) (k : Packet) : Packet :=
  if k.hdr.kind != 0xB then k
  else
    let corr := (fieldLE k.content 8 8 : Int) + s.calEntry .tmuCalRx p - (s.tmu.count : Int) * 65536
    { k with content := k.content.take 8 ++ leBytes 8 (corr % 2 ^ 64).toNat ++ k.content.drop 16 }

/-- A torus packet that is not for this controller is forwarded or discarded. -/
def State.packetRoute (s : State) (p vc : Nat) (k : Packet) : State :=
  if k.hdr.kind == 9 then s
  else
    let fl := fieldLE k.content 1 1
    let cls := fun (out : Nat) => s.hopClass out (if out / 2 = p / 2 then vc % 2 else 0)
    let put := fun (t : State) (out : Nat) (k : Packet) =>
      if out < 6 && t.neighState out = 1 then
        (t.queuePkt (9 + out) (Fin.ofNat 4 (vc / 2 * 2 + cls out)) k).bump .torFwdPkts
      else t.bump .torRouteDiscards
    if k.hdr.kind == 7 && fl.testBit 2 then
      let r := fieldLE k.content 4 4
      let i := r / 2 ^ 29
      let code := r / 8 ^ i % 8
      let c' := k.content.take 4 ++ leBytes 4 (r % 2 ^ 29 + (i + 1) % 8 * 2 ^ 29) ++ k.content.drop 8
      if code = 7 then s.emit (.delivered (9 + p) k) else put s code { k with content := c' }
    else
      match s.routePort k.hdr.dst with
      | none => s.emit (.delivered (9 + p) k)
      | some out => put s out (s.timeIngress p k)

/-! ### Landings (R296, R362) -/

/-- A LAND body (R296). -/
def landBody (ty purpose landing gen : Nat) (id : W64) (length status : Nat) : List Byte :=
  leBytes 1 ty ++ leBytes 1 purpose ++ leBytes 2 landing ++ leBytes 4 gen ++ leBytes 8 id.toNat ++ leBytes 8 length ++
    leBytes 1 status ++ List.replicate 7 0

/-- The purposes that are step traffic and carry a tag (R281). -/
def stepPurpose (p : Nat) : Bool := p == 1 || p == 2 || p == 3 || p == 7

/-- Begin a transfer: keep the data and ask for a landing (R296). A request made for the partner carries its side (R362). -/
def State.sendTransfer (s : State) (id : W64) (dest : W16) (purpose : Nat) (job : W32) (tag : Option Byte) (data : List Byte)
    (assist : Bool := false) : State :=
  let k := mkPacket 0xC (tag.getD 0) 0 ((if tag.isSome then 4 else 0) + if assist then 1 - s.sideNat else s.sideNat) 0 job s.position dest 0
    (landBody 1 purpose 0 0 id data.length 0)
  ({ s with tor.transfers := s.tor.transfers ++ [(⟨id, dest, purpose, job, tag, data, false, assist⟩ : Transfer)] }).torRoute k 1 0

/-- The landing, once the receiver has granted it. -/
def State.openLanding (s : State) (k : Packet) : State :=
  let c := k.content
  let purpose := fieldLE c 1 1
  let id := BitVec.ofNat 64 (fieldLE c 8 8)
  let len := fieldLE c 0x10 8
  let tag := if k.hdr.flags.getLsbD 2 then some k.hdr.tag else none
  let n := s.tor.nextLanding
  let l : Landing := ⟨BitVec.ofNat 16 n, BitVec.ofNat 32 s.tor.landingGen, purpose, k.hdr.src, k.hdr.jobId, id,
    BitVec.ofNat 64 len, tag, [], k.hdr.flags.getLsbD 0 != s.sideB⟩
  let t := { s with tor := { s.tor with landings := s.tor.landings ++ [l]
                                        nextLanding := if n = 65535 then 1 else n + 1
                                        landingGen := (s.tor.landingGen + 1) % 2 ^ 32 } }
  t.torSend 0xC k.hdr.src k.hdr.jobId tag (landBody 2 purpose n s.tor.landingGen id len 0)

/-- Answer a LAND REQUEST with REFUSE. -/
def State.refuseLanding (s : State) (k : Packet) (status : Nat) : State :=
  s.torSend 0xC k.hdr.src k.hdr.jobId (if k.hdr.flags.getLsbD 2 then some k.hdr.tag else none)
    (landBody 4 (fieldLE k.content 1 1) 0 0 (BitVec.ofNat 64 (fieldLE k.content 8 8)) (fieldLE k.content 0x10 8) status)

/-- Bytes that an open landing still misses; pieces count padded to 32 bytes. -/
def Landing.missing (l : Landing) : Nat := up32 l.length.toNat - (l.data.map fun d => d.2.length).sum

/-- The data of a landing in offset order, without its padding. -/
def Landing.bytes (l : Landing) : List Byte :=
  let put := fun (acc : List (Nat × List Byte)) (d : Nat × List Byte) => Tbl.set acc d.1 d.2
  ((l.data.foldl put []).flatMap Prod.snd).take l.length.toNat

/-- The reserved fields of an XFER header, a LAND body and a START body are 0 (R10, R296, R311). -/
def xferOk (c : List Byte) : Bool := fieldLE c 1 1 < 8 && fieldLE c 7 1 % 32 == 0 && zeroBytes c 0x18 8
def landOk (c : List Byte) : Bool := zeroBytes c 0x19 7
def startOk (c : List Byte) : Bool := zeroBytes c 0x2D 3

/-- A COLL packet of a type in the form of R302: operation, items and reserved fields. -/
def collOk (ty : Nat) (c : List Byte) : Bool :=
  let n := fieldLE c 2 1
  let op := fieldLE c 1 1
  fieldLE c 0 1 == ty && 1 ≤ op && op ≤ 6 && zeroBytes c 0x13 13 && n ≤ 16 && 32 + 48 * n ≤ c.length &&
    (List.range n).all fun i => zeroBytes c (32 + 48 * i + 2) 6 && 1 ≤ fieldLE c (32 + 48 * i) 1 && fieldLE c (32 + 48 * i) 1 ≤ 5

/-- A body with a nonzero reserved field is rejected: the packet is discarded, with a Degrade event, since the chapter names no counter for it
(R10; log entry 44). -/
def State.formed (s : State) (ok : Bool) (p : Packet) (t : State) : State :=
  if ok then t else s.evReason 1 .tor 0xFFFF p.hdr.jobId 0 []

/-- An XFER packet lands (R296): none where it is discarded; otherwise the state and the landing, closed and acknowledged once
every byte has landed. -/
def State.land (s : State) (k : Packet) : State × Option Landing :=
  let c := k.content
  let id := fieldLE c 2 2
  let off := fieldLE c 8 8
  let n := fieldLE c 0x10 4
  let gen := fieldLE c 0x14 4
  match s.tor.landings.find? fun l => l.id.toNat == id && l.gen.toNat == gen with
  | none => (s.bump .torLandDiscards, none)
  | some l =>
    if up32 l.length.toNat < off + n || n % 32 != 0 || n = 0 || 65536 < n || off % 32 != 0 || fieldLE c 0 1 != 0x70 || !xferOk c then
      (s.bump .torLandDiscards, none)
    else
      let l' := { l with data := (l.data.filter fun d => d.1 != off) ++ [(off, sliceBytes c 0x20 n)] }
      let t := s.bump .torXferPktsRx
      if l'.missing = 0 then
        let t := { t with tor.landings := t.tor.landings.filter fun x => x.id != l.id }
        (t.torSend 0xC l.src l.job l.tag (landBody 3 l.purpose l.id.toNat l.gen.toNat l.transferId l.length.toNat 0), some l')
      else ({ t with tor.landings := t.tor.landings.map fun x => if x.id == l.id then l' else x }, none)

/-- The pieces of up to 65,536 bytes of a transfer, with their offsets. -/
def xferPieces (data : List Byte) : List (Nat × List Byte) :=
  (List.range ((data.length + 65535) / 65536)).map fun i => (65536 * i, (data.drop (65536 * i)).take 65536)

/-- A GRANT: the sender sends its XFER packets (R296). -/
def State.landGrant (s : State) (k : Packet) : State :=
  let c := k.content
  let id := BitVec.ofNat 64 (fieldLE c 8 8)
  match s.tor.transfers.find? fun x => x.id == id && x.dest == k.hdr.src && !x.granted with
  | none => s
  | some x =>
    let ps := xferPieces x.data
    let t := { s with tor.transfers := s.tor.transfers.map fun y => if y.id == id && y.dest == x.dest then { y with granted := true } else y }
    ps.zipIdx.foldl (fun t e =>
      let d := padTo 32 e.1.2
      let fl := (if e.2 + 1 = ps.length then 1 else 0) + if stepPurpose x.purpose then 0 else 2
      t.torSend 7 x.dest x.job x.tag (leBytes 1 0x70 ++ leBytes 1 fl ++ leBytes 2 (fieldLE c 2 2) ++ leBytes 4 0 ++
        leBytes 8 e.1.1 ++ leBytes 4 d.length ++ leBytes 4 (fieldLE c 4 4) ++ List.replicate 8 0 ++ d)) t

/-- Take a transfer off the sender's list: its ACK, its REFUSE, or none. -/
def State.takeTransfer (s : State) (k : Packet) : State × Option Transfer :=
  let id := BitVec.ofNat 64 (fieldLE k.content 8 8)
  match s.tor.transfers.find? fun x => x.id == id && x.dest == k.hdr.src with
  | none => (s, none)
  | some x => ({ s with tor.transfers := s.tor.transfers.filter fun y => !(y.id == id && y.dest == x.dest) }, some x)

/-- A landing whose last packet is 1 s old is refused with TIMEOUT and freed (R296). -/
def State.landingTimeout (s : State) (id : W16) : State :=
  match s.tor.landings.find? fun l => l.id == id with
  | none => s
  | some l =>
    ({ s with tor.landings := s.tor.landings.filter fun x => x.id != id }).torSend 0xC l.src l.job l.tag
      (landBody 4 l.purpose 0 0 l.transferId l.length.toNat 3)

/-- The head of data passed to the partner: as a LAND body, with the epoch tag of step data behind the status (R48; log entry 25). -/
def pairHead (purpose : Nat) (id : W64) (length : Nat) (tag : Option Byte) : List Byte :=
  (landBody 1 purpose 0 0 id length 0).take 0x19 ++ [if tag.isSome then 1 else 0, tag.getD 0] ++ List.replicate 5 0

/-- No answer to a LAND REQUEST within ASSIST_TIMEOUT: the partner sends the transfer on its plane (R362). -/
def State.assist (s : State) (id : W64) : State :=
  match s.tor.transfers.find? fun x => x.id == id && !x.granted with
  | none => s
  | some x =>
    if s.pair.partnerFailed || !(s.port 8).up then s
    else
      let k := mkPacket 5 0 0 s.sideNat 0 x.job s.position x.dest 0 (padTo 32 (pairHead x.purpose x.id x.data.length x.tag ++ x.data))
      (({ s with tor.transfers := s.tor.transfers.filter fun y => y.id != id }).queuePkt 8 0 k).bump .pairAssists

/-! ### Collectives (R301 to R303, R359, R360) -/

/-- The code of an operation (R302). -/
def CollOp.code : CollOp → Nat
  | .scalar => 1 | .roots => 2 | .vote => 3 | .advance => 4 | .layerSlots => 5 | .barrier => 6

def collOpOf : Nat → Option CollOp
  | 1 => some .scalar | 2 => some .roots | 3 => some .vote | 4 => some .advance | 5 => some .layerSlots | 6 => some .barrier
  | _ => none

/-- The 48 bytes of an item (R302). -/
def CollItem.bytes : CollItem → List Byte
  | .slot n a b c d e => sliceBytes (leBytes 1 1 ++ [n] ++ List.replicate 6 0 ++ leBytes 8 a.toNat ++ leBytes 8 b.toNat ++
      leBytes 8 c.toNat ++ leBytes 8 d.toNat ++ leBytes 8 e.toNat) 0 48
  | .or v => sliceBytes (leBytes 8 2 ++ leBytes 8 v.toNat) 0 48
  | .and v => sliceBytes (leBytes 8 3 ++ leBytes 8 v.toNat) 0 48
  | .min v => sliceBytes (leBytes 8 4 ++ leBytes 8 v.toNat) 0 48
  | .root r m => sliceBytes (leBytes 8 5 ++ digestBytes r ++ leBytes 4 m.toNat) 0 48

/-- An item read from its bytes. -/
def itemOf (b : List Byte) : CollItem :=
  let q := fun (lo : Nat) => BitVec.ofNat 64 (fieldLE b lo 8)
  match fieldLE b 0 1 with
  | 1 => .slot (b.getD 1 0) (q 8) (q 16) (q 24) (q 32) (q 40)
  | 2 => .or (q 8)
  | 3 => .and (q 8)
  | 4 => .min (q 8)
  | _ => .root (BitVec.ofNat 256 (fieldLE b 8 32)) (BitVec.ofNat 32 (fieldLE b 40 4))

/-- The items of a body from an offset. -/
def itemsOf (b : List Byte) (off n : Nat) : List CollItem :=
  (List.range n).map fun i => itemOf (sliceBytes b (off + 48 * i) 48)

/-- Saturating sum of two counts. -/
def satAdd64 (a b : W64) : W64 := BitVec.ofNat 64 (min (a.toNat + b.toNat) (2 ^ 64 - 1))

/-- Merge of an item (earlier) with another (R302). -/
def CollItem.merge : CollItem → CollItem → CollItem
  | .slot n a b c d e, .slot _ a' b' c' d' e' =>
    let w := welfordMerge (c.toNat, d.toNat, e.toNat) (c'.toNat, d'.toNat, e'.toNat)
    .slot n (BitVec.ofNat 64 (add64 a.toNat a'.toNat)) (satAdd64 b b') (BitVec.ofNat 64 w.1) (BitVec.ofNat 64 w.2.1)
      (BitVec.ofNat 64 w.2.2)
  | .or a, .or b => .or (a ||| b)
  | .and a, .and b => .and (a &&& b)
  | .min a, .min b => .min (if a.toNat ≤ b.toNat then a else b)
  | .root r m, .root r' m' => .root r (m + m' + if r = r' then 0 else 1)
  | x, _ => x

def mergeItems (a b : List CollItem) : List CollItem := List.zipWith CollItem.merge a b

/-- SLOT and ROOT items of the two sides must be equal (R359). -/
def CollItem.mustEqual : CollItem → Bool
  | .slot .. => true
  | .root .. => true
  | _ => false

/-- The pair value: side A's items merged with side B's, but SLOT and ROOT items are side A's (R359). -/
def pairValue (a b : List CollItem) : List CollItem :=
  List.zipWith (fun (x y : CollItem) => if x.mustEqual then x else x.merge y) a b

def pairDiffers (a b : List CollItem) : Bool :=
  a.length != b.length || (List.zip a b).any fun e => e.1.mustEqual && e.1 != e.2

/-- The phase that names an instance: LAYER_SLOTS has its own; the barriers of one command differ by their items (log entry 27). -/
def CollOp.phaseOf (op : CollOp) (phase : Byte) (items : Nat) : Byte := if op = .barrier then BitVec.ofNat 8 items else phase

/-- The peloton slot that an operation of a job runs over (R303). -/
def Job.collSlot (j : Job) (op : CollOp) : Nat := if op = .roots then j.coverSlot.getD 0 else j.pelSlot

/-- The instance with a key, or a fresh one. -/
def State.coll (s : State) (key : CollKey) (slot : Nat) : Coll :=
  (s.tor.colls.find? fun c => c.key == key).getD
    ⟨key, slot, ((s.pel slot).map fun t => t.gen).getD 0, none, none, false, [], false, none, false⟩

/-- Put an instance into the list, keeping arrival order. -/
def State.setColl (s : State) (c : Coll) : State :=
  if s.tor.colls.any fun x => x.key == c.key then
    { s with tor.colls := s.tor.colls.map fun (x : Coll) => if x.key == c.key then c else x }
  else { s with tor.colls := s.tor.colls ++ [c] }

/-- A COLL packet's content: header and items (R302). -/
def Coll.content (c : Coll) (ty member : Nat) (items : List CollItem) : List Byte :=
  leBytes 1 ty ++ leBytes 1 c.key.op.code ++ leBytes 1 items.length ++ leBytes 1 c.slot ++ leBytes 2 c.gen.toNat ++
    leBytes 2 member ++ leBytes 8 c.key.ident.toNat ++ leBytes 2 c.key.layer.toNat ++
    [if c.key.op = .barrier then 0 else c.key.phase] ++ List.replicate 13 0 ++
    items.flatMap CollItem.bytes

/-- Send a COLL packet to a plane member. -/
def State.collSend (s : State) (c : Coll) (ty : Nat) (dest : Nat) (items : List CollItem) : State :=
  match (s.planeOf c.slot)[dest]? with
  | some d => s.torSend 8 d c.key.job none (c.content ty (s.planeIdx c.slot) items)
  | none => s

/-- A result goes to the children, and to the partner as RESULT (R301, R360). -/
def State.collResult (s : State) (c : Coll) (items : List CollItem) (own : Bool) : State :=
  let t := s.setColl { c with result := some items }
  let kids := treeKids (s.planeOf c.slot).length (s.planeIdx c.slot)
  let t := kids.foldl (fun t k => t.collSend c 0x81 k items) t
  if own then t.pairSend 0x4A c.key.ident c.key.job (c.content 0x81 (s.planeIdx c.slot) items) else t

/-- The value that the tray contributes, once the pair rule lets it (R359), and whether the sides differ. -/
def State.trayValue (s : State) (c : Coll) : Option (List CollItem × Bool) :=
  match c.own, c.partner with
  | some a, some b =>
    if s.sideB then some (pairValue b a, pairDiffers b a)
    else if c.acked || s.pair.partnerFailed then some (pairValue a b, pairDiffers a b)
    else none
  | some a, none => if s.pair.partnerFailed then some (a, false) else none
  | none, _ => none

/-- Contribute when the tray value and every child's UP are there (R301). Member 0 has the result then. -/
def State.collTry (s : State) (key : CollKey) : State :=
  match s.tor.colls.find? fun c => c.key == key with
  | none => s
  | some c =>
    if c.contributed || c.result.isSome then s
    else
      match s.trayValue c with
      | none => s
      | some (v, differ) =>
        let s := if differ then s.modJob key.job fun j =>
            { j with open_ := j.open_.map fun (o : OpenStep) => if o.step == key.ident then { o with pairDiffer := true } else o }
          else s
        let idx := s.planeIdx c.slot
        let kids := treeKids (s.planeOf c.slot).length idx
        if kids.any fun k => !Tbl.has c.ups k then s
        else
          let total := kids.foldl (fun acc k => mergeItems acc (Tbl.get c.ups [] k)) v
          let c' := { c with contributed := true }
          if idx = 0 then s.collResult c' total true
          else (s.setColl c').collSend c' 0x80 ((idx - 1) / 8) total

/-- This side's own items are due: they go to the partner, and the instance may contribute (R303, R359). -/
def State.collStart (s : State) (job : W32) (op : CollOp) (ident : W64) (layer : W16) (phase : Byte) (items : List CollItem) :
    State :=
  s.onJob job fun j =>
    let key : CollKey := ⟨job, op, ident, layer, op.phaseOf phase items.length⟩
    let c := s.coll key (j.collSlot op)
    if c.own.isSome then s
    else
      let t := s.setColl { c with own := some items }
      let t := t.pairSend 0x45 ident job (leBytes 1 op.code ++ leBytes 1 items.length ++ leBytes 1 c.slot ++ [0] ++
        leBytes 2 c.gen.toNat ++ leBytes 2 layer.toNat ++ [phase] ++ List.replicate 7 0 ++ items.flatMap CollItem.bytes)
      t.collTry key

/-- The key of a COLL packet, where its job is held and its peloton generation is the table's (R299, R316). -/
def State.collKeyOf (s : State) (job : W32) (c : List Byte) : Option (CollKey × Nat) :=
  let slot := fieldLE c 3 1
  match collOpOf (fieldLE c 1 1), s.job? job, s.pel slot with
  | some op, some _, some t =>
    if t.gen.toNat == fieldLE c 4 2 then
      some (⟨job, op, BitVec.ofNat 64 (fieldLE c 8 8), BitVec.ofNat 16 (fieldLE c 0x10 2), op.phaseOf (c.getD 0x12 0) (fieldLE c 2 1)⟩, slot)
    else none
  | _, _, _ => none

/-- A child's UP (R301). -/
def State.collUp (s : State) (k : Packet) : State :=
  match s.collKeyOf k.hdr.jobId k.content with
  | none => s.bump .torStaleDiscards
  | some (key, slot) =>
    let c := s.coll key slot
    if c.result.isSome then s
    else
      let items := itemsOf k.content 32 (fieldLE k.content 2 1)
      (s.setColl { c with ups := Tbl.set c.ups (fieldLE k.content 6 2) items }).collTry key

/-- A DOWN, from the own plane or forwarded by the partner. A second copy is compared: one that differs records a Degrade event
and aborts the job (R360). -/
def State.collDown (s : State) (job : W32) (content : List Byte) (own : Bool) : State :=
  match s.collKeyOf job content with
  | none => s.bump .torStaleDiscards
  | some (key, slot) =>
    let c := s.coll key slot
    let items := itemsOf content 32 (fieldLE content 2 1)
    match c.result with
    | some r =>
      if r == items then s
      else (s.evInt 1 .pairIntStatus 5 job key.ident []).jobAbort job holdInconsistent
    | none =>
      let t := if own then s else s.bump .pairResultsFromPartner
      t.collResult c items own

end Sys2Proof.Machine
end

