-- ==== Sys2Proof/Machine/Store.lean ====
section
/-! DEFINITION. The state store (03_state_store.md): silt entries, step records, tags, hop parity and HBM errors, repair. Frames, strata and
flips are in Machine/Frames.lean. -/
namespace Sys2Proof.Machine

/-! ### Silt entries and step records (R57, R58, R78, R79) -/

/-- A silt header without its tag (R78). -/
def SiltEntry.header (e : SiltEntry) (j : Job) : List Byte :=
  sliceBytes (leBytes 2 2 ++ leBytes 2 1 ++ leBytes 4 j.id.toNat ++ leBytes 8 e.step.toNat ++
    leBytes 2 ((if e.skip then 1 else 0) + (if e.clipRerun then 2 else 0) + (if e.damaged then 4 else 0) + if e.mirrored then 8 else 0) ++
    leBytes 1 j.siltFormat ++ leBytes 1 0 ++ leBytes 4 (if e.skip then 0 else j.siltPages) ++ leBytes 4 e.clipFactor.toNat ++
    leBytes 4 e.lossScaleIn.toNat ++ sliceBytes e.params 0 64 ++ digestBytes e.payloadRoot ++ digestBytes e.prevEntry ++
    digestBytes e.rootIn) 0 0xE0

/-- The silt entry that opens with the update of a step (R79). -/
def Job.openSilt (j : Job) (o : OpenStep) : SiltEntry :=
  ⟨o.step, false, false, false, o.clipRerun, o.skip, o.clipFactor, o.lossScaleIn, j.params, [], 0, 0, j.strata.committed.root, 0, []⟩

/-- The digest of the entry before a step's: of the entry, or as it was kept when the entry was freed; 0 for the job's first (R78). -/
def Job.prevEntry (j : Job) (n : W64) : Digest :=
  match j.silt.find? fun x => x.step + 1 == n with
  | some p => shake256 (p.header j)
  | none => ((j.siltDigests.find? fun x => x.1 + 1 == n).map Prod.snd).getD 0

/-- Keep the digest of a closed entry. -/
def Job.keepDigest (j : Job) (e : SiltEntry) : Job :=
  { j with siltDigests := (j.siltDigests.filter fun x => x.1 != e.step) ++ [(e.step, shake256 (e.header j))] }

/-- Close an entry: payload_root, prev_entry and tag (R79). -/
def State.closeSilt (s : State) (j : Job) (e : SiltEntry) : SiltEntry :=
  let prev := j.prevEntry e.step
  let e := { e with closed := true, payloadRoot := s.payloadRoot j e, prevEntry := prev }
  { e with tag := kmac256 s.keyBytes (e.header j) "RX-SI" }

/-- The digest of the record before, all zero for the job's first step (R57). -/
def Job.prevDigest (j : Job) (n : W64) : Digest :=
  match j.chain.find? fun r => fieldLE r 8 8 + 1 == n.toNat with
  | some r => shake256 (r.take 0xE0)
  | none => 0

/-- rng_digest and cursor_digest over the site reports, in site order (R381). -/
def rngDigest (reports : Tbl (List Byte)) : Digest :=
  shake256 ([0x44] ++ reports.flatMap fun e => sliceBytes e.2 0 0x10 ++ e.2.drop 0x50)
def cursorDigest (reports : Tbl (List Byte)) : Digest :=
  shake256 ([0x43] ++ reports.flatMap fun e => sliceBytes e.2 0 0x10 ++ sliceBytes e.2 0x10 0x20)

/-- Bytes 0x00 to 0xDF of a step record (R57, R58). -/
def State.recordBody (s : State) (j : Job) (o : OpenStep) (w : Stratum) (flags : Nat) (normBits nonfinite : W64) (lossOut : W32) :
    List Byte :=
  sliceBytes (leBytes 2 1 ++ leBytes 2 1 ++ leBytes 4 j.id.toNat ++ leBytes 8 o.step.toNat ++
    leBytes 2 (((s.pel j.pelSlot).map fun t => t.gen.toNat).getD 0) ++ leBytes 2 flags ++ leBytes 2 s.position.toNat ++
    leBytes 1 s.sideNat ++ leBytes 1 (o.step.toNat % 256) ++ leBytes 8 o.step.toNat ++ digestBytes w.root ++
    digestBytes (j.prevDigest o.step) ++ digestBytes (rngDigest o.reports) ++ digestBytes (cursorDigest o.reports) ++
    leBytes 8 normBits.toNat ++ leBytes 4 o.clipFactor.toNat ++ leBytes 4 lossOut.toNat ++ leBytes 8 nonfinite.toNat ++
    leBytes 4 o.abftChecked ++ leBytes 4 (min o.retries 0xFFFFFFFF) ++ sliceBytes o.confirmTime 0 14) 0 0xE0

/-- Tag a record (R57, R452). -/
def State.tagRecord (s : State) (b : List Byte) : List Byte := b ++ digestBytes (kmac256 s.keyBytes b "RX-SR")

/-! ### Tags that are read (R453) -/

/-- The tag of a silt header, a step record and a journal entry is this side's own (R452, R453). -/
def State.siltTagOk (s : State) (j : Job) (e : SiltEntry) : Bool := e.tag == kmac256 s.keyBytes (e.header j) "RX-SI"
def State.recordTagOk (s : State) (r : List Byte) : Bool := r.drop 0xE0 == digestBytes (kmac256 s.keyBytes (r.take 0xE0) "RX-SR")
def State.entryTagOk (s : State) (b : List Byte) : Bool := b.drop 0x1E0 == digestBytes (kmac256 s.keyBytes (b.take 0x1E0) "RX-JE")

/-- A tag that hub cores read from HBM fails: counted, with tag_failure and a Degrade event (R453). -/
def State.tagFailed (s : State) (job : W32) (ident : W64) : State :=
  (s.bump .secTagFailures).evInt 1 .secIntStatus 3 job ident []

/-- The closed silt entry of a step is read: one whose tag fails is marked damaged (R84, R453). -/
def State.siltRead (s : State) (id : W32) (n : W64) : State :=
  s.onJob id fun j =>
    match j.silt.find? fun e => e.step == n with
    | none => s
    | some e =>
      if e.damaged || s.siltTagOk j e then s
      else (s.setJob { j with silt := j.silt.map fun (x : SiltEntry) => if x.step == n then { x with damaged := true } else x }).tagFailed id n

/-- A journal entry is read from copy 0; where its tag fails there, copy 1 serves it, and rewrites copy 0 (R84, R453). -/
def State.entryRead (s : State) (e : JEntry) : State :=
  let at_ := e.seqNo % journalEntries
  if s.entryTagOk (Tbl.get s.store.sys0.journal [] at_) then s
  else
    let b := Tbl.get s.store.sys1.journal [] at_
    let t := s.tagFailed e.job e.id
    if s.entryTagOk b then { t with store.sys0 := { t.store.sys0 with journal := Tbl.set t.store.sys0.journal at_ b } } else t

/-- Two records agree in every field but side, confirm_time, prev_digest and tag (R59). -/
def recordsAgree (a b : List Byte) : Bool :=
  let cut := fun (r : List Byte) => sliceBytes r 0 0x16 ++ sliceBytes r 0x17 0x29 ++ sliceBytes r 0x60 0x60 ++ sliceBytes r 0xCE 0x12
  cut a == cut b

/-! ### Parity on internal hops (R83) -/

/-- Attempts before a hop escalates (R92). -/
def State.hopAttempts (s : State) : Nat := max 1 (s.fld .strCtrl 2 3)

/-- The rate window of a hop class as it stands now (R83, R94). -/
def State.hopWindow (s : State) (cls : Nat) : Nat × Nat × Bool :=
  windowAt s.now (1000 * max 1 (s.fld .strParityWin 0 16)) (Tbl.get s.store.hopWin (s.now, 0, false) cls)

/-- A transfer fails parity: its first failure, or a failed replay of it. Its replay counts in the hop's rate window. -/
def State.hopParity (s : State) (cls : Nat) (again : Bool) : State :=
  let w := s.hopWindow cls
  ({ s with store.hopWin := Tbl.set s.store.hopWin cls (w.1, w.2.1 + 1, w.2.2)
            store.hopTries := Tbl.set s.store.hopTries cls (if again then Tbl.get s.store.hopTries 0 cls + 1 else 0) }).bump
    .strHopReplays cls

/-- Steps whose data a transfer carried fail link integrity (R36, R83). -/
def State.failSteps (s : State) (hit : List (W32 × W64)) : State :=
  hit.foldl (fun t e => t.modJob e.1 fun j =>
    { j with open_ := j.open_.map fun (o : OpenStep) => if o.step == e.2 then { o with linkFail := true } else o }) s

/-- A hop escalates: the transfer completes with a poison indication to its requester; class 0 or 1 more than 4 times within 1 s halts the side (R83). -/
def State.hopEscalate (s : State) (cls : Nat) (island : Byte) (hit : List (W32 × W64)) : State :=
  if Tbl.get s.store.hopTries 0 cls < s.hopAttempts then s
  else
    let times := (Tbl.get s.store.hopEsc [] cls).filter (fun a => s.now < a + 10 ^ 9) ++ [s.now]
    let failed := cls < 2 && 4 < times.length
    let t := { s with store.hopTries := Tbl.set s.store.hopTries cls 0, store.hopEsc := Tbl.set s.store.hopEsc cls times
                      store.hopFailed := s.store.hopFailed || failed }
    let (job, ident) := hit.headD (0, 0)
    let w := s.wilostRec 8 job ident 0 0 [(31, cborArray [cborNat 3, cborNat cls, cborNat 0])]
    let t := ((t.bump .strHopEscalations cls).evInt (if failed then 4 else 1) .strIntStatus 6 job ident [cls, island.toNat] 0
      (some w)).failSteps hit
    let t := t.emit (.hopPoison cls island)
    if failed then t.trayHalt else t

/-- A hop's replays within the window of STR.PARITY_WIN exceed its threshold: reported once per window (R83, R94). -/
def State.hopRate (s : State) (cls : Nat) : State :=
  let w := s.hopWindow cls
  if w.2.2 || w.2.1 ≤ s.fld .strParityWin 16 16 then s
  else { s with store.hopWin := Tbl.set s.store.hopWin cls (w.1, w.2.1, true) }.evInt 1 .strIntStatus 5 0 0 [cls, w.2.1]

/-! ### HBM errors (R84 to R87) -/

/-- Times within the last hour, and now. -/
def State.lastHour (s : State) (l : List Nat) : List Nat := l.filter (fun a => s.now < a + 3600 * 10 ^ 9) ++ [s.now]

/-- A corrected error (R84, R87): the state, and whether it is the failure warning. DESIGN CHOICE: the hourly threshold is crossed at the first
error that finds more errors of the stack within the last hour than the register holds, and again only after their number has been back at or
under it (log entry 45). -/
def State.hbmCorrected (s : State) (k : Nat) : State × Bool :=
  let times := s.lastHour (Tbl.get s.store.ceTimes [] k)
  let t := { s with store.ceTimes := Tbl.set s.store.ceTimes k times }
  let t := if s.fld .strCtrl 1 1 = 1 then t.evCount 0 .strEccCe 0 0 [k] k else t.bump .strEccCe k
  let thresh := (s.rd .strEccCeThresh).toNat
  -- the number of errors just before this one tells whether the stack had come back under the threshold
  let warned := s.store.ceWarned.getLsbD k && thresh < times.length - 1
  if times.length ≤ thresh || warned then ({ t with store.ceWarned := if warned then t.store.ceWarned else t.store.ceWarned &&& ~~~(1#16 <<< k) }, false)
  else ({ t with store.ceWarned := t.store.ceWarned ||| (1#16 <<< k) }.evInt 1 .strIntStatus 3 0 0 [k, times.length], true)

/-- A frame is poisoned in a stratum. -/
def Stratum.poison (t : Stratum) (f : Nat) : Stratum :=
  let hit := (t.map.filter fun e => e.2 == f).map Prod.fst
  { t with poisoned := t.poisoned ++ hit.filter fun p => !t.poisoned.contains p }

/-- Change every stratum of a job. -/
def Strata.all (t : Strata) (f : Stratum → Stratum) : Strata :=
  { t with working := t.working.map f, committed := f t.committed, assayed := f t.assayed, retained := t.retained.map f
           pin := t.pin.map f, pinCopy := t.pinCopy.map f }

/-- Poison a frame in every map of a job that names it (R84). -/
def Strata.poison (t : Strata) (f : Nat) : Strata := t.all fun x => x.poison f

/-- The strata of a job but the working one. -/
def Strata.kept (t : Strata) : List Stratum := t.committed :: t.assayed :: t.retained ++ t.pin.toList ++ t.pinCopy.toList

/-- The poisoned frames that the strata of a job name, each once (R90). -/
def Strata.poisonedCount (t : Strata) : Nat :=
  ((t.kept ++ t.working.toList).flatMap fun x => x.poisoned.filterMap (mapFrame x.map)).eraseDups.length

/-- A frame of a silt entry's payload is bad: the entry is damaged (R84). -/
def SiltEntry.hurt (e : SiltEntry) (f : Nat) : SiltEntry :=
  match e.pages.find? fun p => p.2 == f with
  | none => e
  | some p => { e with damaged := true, bad := if e.bad.contains p.1 then e.bad else e.bad ++ [p.1] }

/-- Silt in every place that a job holds it: closed, open, in a step in doubt, mirrored for the buddy. -/
def Job.hurtSilt (j : Job) (f : Nat) : Job :=
  let o := fun (x : OpenStep) => { x with silt := x.silt.map fun e => e.hurt f }
  { j with silt := j.silt.map fun e => e.hurt f, open_ := j.open_.map o, inVote := j.inVote.map o
           buddy := { j.buddy with mirrored := j.buddy.mirrored.map fun e => e.hurt f } }

/-- Begin a repair (R85), if none is under way: job, silt payload or state page, page, step, command. -/
def State.repairStart (s : State) (job : W32) (silt : Bool) (page : Nat) (step : W64) (cmd : Option W64) : State :=
  if s.store.repair.isSome || s.pair.partnerFailed then s
  else { s with store.repair := some (job, silt, page, step, cmd), store.repairAsked := false }

/-- What an uncorrected error does to a job that names the frame (R84): poisoned in every map that names it; a page that only the working
stratum names fails its step; silt payload damages its entry. -/
def State.frameError (s : State) (f : Nat) (j : Job) : State :=
  let names := fun (x : Stratum) => x.map.any fun e => e.2 == f
  let other := j.strata.kept.find? names
  let inWork := other.isNone && j.strata.working.any names
  let silt := j.silt.find? fun e => e.pages.any fun p => p.2 == f
  let j' := { j with
    strata := j.strata.poison f
    buddy := { j.buddy with shadow := j.buddy.shadow.map fun (x : Stratum) => x.poison f, work := j.buddy.work.map fun (x : Stratum) => x.poison f }
    open_ := match j.open_ with
      | o :: r => (if inWork then { o with linkFail := true } else o) :: r
      | [] => [] }
  let s := s.setJob (j'.hurtSilt f)
  if !j.repairAuto then s
  else match other.bind fun x => (x.map.find? fun e => e.2 == f).map fun e => (e.1, x.step) with
    | some (p, n) => s.repairStart j.id false p n none
    | none => match silt.bind fun e => (e.pages.find? fun p => p.2 == f).map fun p => (p.1, e.step) with
      | some (p, n) => s.repairStart j.id true p n none
      | none => s

/-- An uncorrected error (R84, R86). A damaged copy of a map area or of the system area is rewritten from the other; that of a map area equals
it (R74; log entry 18). -/
def State.hbmUncorrected (s : State) (k : Nat) (area : UeArea) : State :=
  let times := s.lastHour (Tbl.get s.store.ueTimes [] k)
  let t := { s with store.ueTimes := Tbl.set s.store.ueTimes k times }.bump .strEccUe k
  let t := t.evInt 1 .strIntStatus 4 0 0 [k, match area with | .frame f => f.toNat | _ => 0]
  let t := match area with
    | .frame f => t.jobs.vals.foldl (fun u j => u.frameError f.toNat j) t
    | .hold job i => t.modJob job fun j => { j with hold := j.hold.eraseIdx i }
    | .map _ => t
    | .system c => t.sysRepair c.val
  if 16 < times.length && !t.store.failedStacks.getLsbD k then
    (({ t with store.failedStacks := t.store.failedStacks ||| BitVec.ofNat 16 (2 ^ k) }).evInt 4 .strIntStatus 7 0 0 [k]).trayHalt
  else t

/-- A stack whose training fails is declared failed (R86). -/
def State.stackFailed (s : State) (k : Nat) : State :=
  (({ s with store.failedStacks := s.store.failedStacks ||| BitVec.ofNat 16 (2 ^ k) }).evInt 4 .strIntStatus 7 0 0 [k]).trayHalt

/-- Put frame `g` for frame `f` of a page in a stratum, no longer poisoned (R85). -/
def Stratum.swap (t : Stratum) (f g : Nat) : Stratum :=
  let pages := (t.map.filter fun e => e.2 == f).map Prod.fst
  { t with map := t.map.map fun e => if e.2 == f then (e.1, g) else e
           poisoned := t.poisoned.filter fun p => !pages.contains p }

def Strata.swap (t : Strata) (f g : Nat) : Strata := t.all fun x => x.swap f g

/-- A frame for a repair: in the job's region, else a repair frame of the stack (R61, R85). -/
def State.repairFrame (s : State) (j : Job) (k : Nat) : Option Nat :=
  s.allocFrame j k <|>
    (if k = 0 || k = 8 then none
     else ((List.range 64).map fun i => k * 65536 + i).find? fun f => !s.usedFrames.contains f)

/-- A payload page has a good frame again; the entry stays damaged while another page or its header is bad (R85, R453). -/
def SiltEntry.mended (e : SiltEntry) (page g : Nat) : SiltEntry :=
  let bad := e.bad.erase page
  { e with pages := Tbl.set e.pages page g, bad := bad, damaged := e.damaged && (!bad.isEmpty || e.bad.isEmpty) }

/-- The repair is over: its command completes with a code. -/
def State.repairEnd (s : State) (cmd : Option W64) (code : Nat) : State :=
  let t := { s with store.repair := none }.raise .strIntStatus 0
  match cmd with
  | some c => t.finish c code
  | none => t

/-- The copy of the page being repaired arrives from the partner: it is verified and substituted (R85). -/
def State.repairCopy (s : State) (data : List Byte) : State :=
  match s.store.repair with
  | none => s
  | some (job, silt, page, step, cmd) =>
    match s.job? job with
    | none => s.repairEnd cmd 0x0106
    | some j =>
      let bytes := sliceBytes data 0 (2 ^ 21)
      if silt then
        match j.silt.find? fun e => e.step == step with
        | none => s.repairEnd cmd 0x0105
        | some e =>
          let others := (List.range j.siltPages).map fun p =>
            leafDigest 0x47 j.id p (if p = page then bytes else s.frameBytes (mapFrame e.pages p))
          if treeTop others != e.payloadRoot then s.repairEnd cmd 0x010D
          else match s.repairFrame j (j.siltHome page) with
            | none => (s.bump .strJobAllocRefused j.slot).repairEnd cmd 0x010A
            | some g =>
              let t := s.modJob job fun j => { j with silt := j.silt.map fun (x : SiltEntry) => if x.step == step then x.mended page g else x }
              (({ t with mem := memWriteBytes t.mem (frameAddr g) bytes }).bump .strRepairCount).repairEnd cmd 0
      else
        match j.strata.kept.find? fun x => x.step == step && Tbl.has x.map page with
        | none => s.repairEnd cmd 0x0105
        | some x =>
          if leafDigest 0x4C j.id page bytes != Tbl.get x.leaf 0 page then s.repairEnd cmd 0x010D
          else match s.repairFrame j (j.home page) with
            | none => (s.bump .strJobAllocRefused j.slot).repairEnd cmd 0x010A
            | some g =>
              let f := Tbl.get x.map 0 page
              let t := s.flipped job fun t => t.swap f g
              (({ t with mem := memWriteBytes t.mem (frameAddr g) bytes }).bump .strRepairCount).repairEnd cmd 0

/-- A read reference ends (R72). -/
def State.refEnd (s : State) (holder : Nat) : State :=
  ({ s with store.refs := s.store.refs.filter fun r => r.holder != holder }).quotaCheck

end Sys2Proof.Machine
end

