-- ==== Sys2Proof/Machine/Gradient.lean ====
section
/-! DEFINITION. Gradients (R33 to R35, R49, R108 to R114, R304): arrival, hold area, staging, accumulation in canonical order,
the reduction over replicas, and when a layer's tiles are CLOSED. -/
namespace Sys2Proof.Machine

/-- Bytes of a tile's elements. -/
def tileElems : Nat := 16384

/-- Elements packed in `w` bits each, without gaps (R101). -/
def unpackBits (w n : Nat) (b : List Byte) : List Nat :=
  let x := leNat b
  (List.range n).map fun i => x / 2 ^ (w * i) % 2 ^ w

/-- The gradient packet of a content (R236). -/
structure GradPkt where
  marker : Bool
  fmt : Nat
  layer : Nat
  lastSeq : Nat
  first : Nat
  count : Nat
  step : Nat
  scales : List Byte
  elems : List Nat

def gradPkt (c : List Byte) : GradPkt :=
  let fmt := fieldLE c 1 1 % 32
  let n := fieldLE c 0x10 4
  let marker := fieldLE c 0 1 == 3
  let ns := if formatMx fmt then (n + 31) / 32 else 0
  ⟨marker, fmt, fieldLE c 2 2, fieldLE c 4 4, fieldLE c 8 8, n, fieldLE c 0x18 8,
    if marker then [] else sliceBytes c 32 ns,
    if marker then [] else unpackBits (fmtBits (formatCode fmt)) n (c.drop (32 + up32 ns))⟩

/-- The generation that a site's items must carry, as far as this side knows it (R227). -/
def State.genStale (s : State) (site : Nat) (h : PktHdr) : Bool :=
  h.flags.getLsbD 3 && Tbl.has s.host.siteGen site && Tbl.get s.host.siteGen 0 site != h.gen

/-- An item of a site with a tag: the job and the open step that it belongs to, or the state that counts its discard (R48,
R227, R263). -/
def State.itemGate (s : State) (site : Nat) (h : PktHdr) : State ⊕ (Job × OpenStep) :=
  if s.genStale site h then .inl (s.bump .spkGenDiscards site)
  else match s.job? h.jobId with
    | none => .inl (s.bump .spkTagDiscards site)
    | some j => match j.tag? h.tag with
      | none => .inl (s.bump .spkTagDiscards site)
      | some o => .inr (j, o)

/-! ### Tiles (R108, R109) -/

/-- A tile by its address. -/
def State.tile (s : State) (a : Nat) : Tile := Tbl.get s.acc.tiles Tile.free a

def State.setTile (s : State) (a : Nat) (t : Tile) : State :=
  { s with acc.tiles := if t = Tile.free then Tbl.erase s.acc.tiles a else Tbl.set s.acc.tiles a t }

/-- The FREE tiles of a slice, lowest first. -/
def State.freeTiles (s : State) (slice : Nat) : List Nat :=
  ((List.range 256).map fun i => slice * 256 + i).filter fun a => (s.tile a).state == .free

/-- The tile ranges of a layer: first element and count of each. Tiles lie at multiples of 16,384 from the layer's first element; a range
that an element group boundary cuts takes a tile in the slice of either group (R33, R139; log entry 43). -/
def Job.tileList (j : Job) (l : Nat) : List (Nat × Nat) :=
  let lo := (j.layer l).1
  let hi := lo + (j.layer l).2.1
  (List.range (((j.layer l).2.1 + tileElems - 1) / tileElems)).flatMap fun r =>
    let a := lo + tileElems * r
    let b := min (a + tileElems) hi
    let m := (a / 2 ^ 19 + 1) * 2 ^ 19
    if m < b then [(a, m - a), (m, b - m)] else [(a, b - a)]

/-- Tiles of a layer: the last may be partly used. -/
def Job.layerTiles (j : Job) (l : Nat) : Nat := (j.tileList l).length

/-- First element of tile `t` of a layer, and the elements that it holds. -/
def Job.tileFirst (j : Job) (l t : Nat) : Nat := ((j.tileList l)[t]?.map Prod.fst).getD 0
def Job.tileCount (j : Job) (l t : Nat) : Nat := ((j.tileList l)[t]?.map Prod.snd).getD 0

/-- The tile range of a layer that holds an element. -/
def Job.tileOf (j : Job) (l e : Nat) : Nat × Nat := ((j.tileList l).find? fun p => p.1 ≤ e && e < p.1 + p.2).getD (e, 0)

/-- The address of the tile of a layer of a step that starts at an element. -/
def State.tileAt (s : State) (job : W32) (step : W64) (layer first : Nat) : Option Nat :=
  (s.acc.tiles.find? fun e => e.2.job == job && e.2.step == step && e.2.layer == layer && e.2.first == first &&
    (e.2.state == .accum || e.2.state == .closed)).map Prod.fst

/-- The elements of a tile in binary32, +0 where nothing has been added. -/
def Tile.list (t : Tile) (n : Nat) : List Nat := (List.range n).map fun i => (Tbl.get t.elems 0 i).toNat

/-- A tile with the elements given. -/
def Tile.withList (t : Tile) (l : List Nat) : Tile := { t with elems := l.zipIdx.map fun e => (e.2, BitVec.ofNat 32 e.1) }

/-! ### Contributions (R33, R35, R110 to R113) -/

def State.setGradIn (s : State) (g : GradIn) : State :=
  { s with acc.grads := (s.acc.grads.filter fun x => !(x.job == g.job && x.step == g.step && x.site == g.site)) ++ [g] }

/-- Move the markers whose packets have all arrived to the complete ranges (R35). -/
def GradIn.settle (g : GradIn) : GradIn :=
  let ok := fun (m : Nat × Nat × Nat × Nat) => (List.range (m.1 + 1)).all fun q => g.seqs.contains q
  { g with markers := g.markers.filter fun m => !ok m
           done := g.done ++ (g.markers.filter ok).map fun m => (m.2.2.2, m.2.1, m.2.2.1) }

/-- A staged contribution's value of an element, exact (R99, R102). -/
def Staged.val (x : Staged) (e : Nat) : Val :=
  elemVal x.fmt x.scales (e - x.first) (x.elems.getD (e - x.first) 0)

/-- The staged contribution of a site that holds an element. -/
def State.stagedAt (s : State) (job : W32) (step : W64) (site layer e : Nat) : Option Staged :=
  s.acc.staged.find? fun x => x.job == job && x.step == step && x.site == site && x.layer == layer && x.first ≤ e &&
    e < x.first + x.elems.length

/-- Value of a site's contribution to an element; +0 where none is staged. -/
def State.contribution (s : State) (job : W32) (step : W64) (site layer e : Nat) : Val :=
  match s.stagedAt job step site layer e with
  | some x => x.val e
  | none => .fin false 0 0

/-- The magnitude bound of R111. -/
def boundB (fmt : Nat) : Int :=
  match formatCode fmt with
  | 4 => 9 | 5 => 16 | 6 => 5 | 7 => 3 | 8 => 3 | _ => 1

/-- How adding a block's contributions at one `q` ends: with its images, at an exact sum that overflows, or at a NaN. -/
inductive BlockSum where
  | images (acc : List Int)
  | over (sum : Int)
  | nan

/-- Add contributions, each a scale byte and its elements, at one `q`, in canonical order (R111, R113). -/
def bsaAdd (q : Int) : List (Nat × List Val) → List Int → BlockSum
  | [], acc => .images acc
  | c :: r, acc =>
    if c.1 == 0xFF || c.2.any valNonfinite then .nan
    else
      let sums := List.zipWith (fun a v => a + valRoundInt 0 (valScale (-q) v)) acc c.2
      match sums.find? fun x => 2147483647 < x.natAbs with
      | some x => .over x
      | none => bsaAdd q r sums

/-- A block in block-scaled mode (R111, R113): its exponent, its images, the repeats it has taken, whether it has become NaN, and whether the
repeat limit made it so. -/
structure Bsa where
  q : Int
  images : List Int
  repeats : Nat
  nan : Bool
  exhausted : Bool
  deriving DecidableEq, Repr

/-- Take contributions at an exponent, from images; on overflow repeat them all at a higher one until the block stays in range, becomes NaN or
has used its repeats (R113). The first number is the repeats left; `put` are the contributions that the repeat takes besides `cs`. -/
def bsaGo (put cs : List (Nat × List Val)) (h : Nat) : Nat → Bsa → Bsa
  | left, x =>
    match bsaAdd x.q cs x.images, left with
    | .images acc, _ => { x with images := acc }
    | .nan, _ => { x with nan := true }
    | .over _, 0 => { x with nan := true, exhausted := true }
    | .over v, n + 1 =>
      bsaGo [] (put ++ cs) h n { x with q := x.q + (bitLength v.natAbs : Int) - 31 + h, images := List.replicate 32 0, repeats := x.repeats + 1 }

/-- The exponent that a block's first contribution sets (R111). -/
def bsaFirst (fmt h : Nat) (c : Nat × List Val) : Int := (c.1 : Int) - 127 + boundB fmt - (30 - h)

/-- Add a block's next contribution, after those that are in it already (R111, R113). -/
def bsaPut (fmt h maxRep : Nat) (put : List (Nat × List Val)) (c : Nat × List Val) (x : Bsa) : Bsa :=
  if x.nan then x else bsaGo put [c] h (maxRep - x.repeats) { x with q := if put.isEmpty then bsaFirst fmt h c else x.q }

/-- A block with no contribution. -/
def Bsa.zero : Bsa := ⟨0, List.replicate 32 0, 0, false, false⟩

/-- What a block converts to, in binary32 (R112). -/
def Bsa.out (x : Bsa) : List Nat :=
  if x.nan then List.replicate 32 0x7FC00000 else x.images.map fun a => rne fmtB32 (valScale x.q (valOfInt a))

/-- A block of contributions in canonical order (R111 to R113). -/
def bsaBlock (fmt h maxRep : Nat) (cs : List (Nat × List Val)) : Bsa :=
  (cs.foldl (fun (a : Bsa × List (Nat × List Val)) c => (bsaPut fmt h maxRep a.2 c a.1, a.2 ++ [c])) (Bsa.zero, [])).1

/-- The repeat limit (R146). -/
def State.maxRepeats (s : State) : Nat := max 1 (s.fld .updRescaleCtrl 0 4)

/-- Block `b` of a tile as it stands: images lie in the tile's elements (R108, R111). -/
def Tile.bsa (t : Tile) (b : Nat) : Bsa :=
  ⟨(Tbl.get t.exps 0 b).toInt, (List.range 32).map fun i => (Tbl.get t.elems 0 (32 * b + i)).toInt, Tbl.get t.repeats 0 b, t.nans.contains b, false⟩

/-- Put a block back. -/
def Tile.setBsa (t : Tile) (b : Nat) (x : Bsa) : Tile :=
  { t with exps := Tbl.set t.exps b (BitVec.ofInt 16 x.q)
           repeats := if x.repeats = 0 then t.repeats else Tbl.set t.repeats b x.repeats
           nans := if x.nan && !t.nans.contains b then t.nans ++ [b] else t.nans
           elems := x.images.zipIdx.foldl (fun m e => Tbl.set m (32 * b + e.2) (BitVec.ofInt 32 e.1)) t.elems }

/-- A site's contribution to block `b` of a tile: scale byte and elements. -/
def State.blockOf (s : State) (j : Job) (o : OpenStep) (t : Tile) (n b k : Nat) : Nat × List Val :=
  let e0 := t.first + 32 * b
  match s.stagedAt j.id o.step k t.layer e0 with
  | some x => ((x.scales.getD ((e0 - x.first) / 32) 0).toNat,
      (List.range 32).map fun i => if 32 * b + i < n then x.val (e0 + i) else .fin false 0 0)
  | none => (0, List.replicate 32 (.fin false 0 0))

/-- Add a site's contribution to every block of a tile in block-scaled mode; a repeat is counted, sets the loss-scale flag, and is reported
where the limit is used up (R44, R111, R113, R114). -/
def State.tileBlocks (s : State) (j : Job) (o : OpenStep) (a n k : Nat) : State :=
  (List.range ((n + 31) / 32)).foldl (fun (st : State) b =>
    let t := st.tile a
    let put := (j.sites.take t.added).map (s.blockOf j o t n b)
    let x := t.bsa b
    let y := bsaPut j.gradFormat j.headroom s.maxRepeats put (s.blockOf j o t n b k) x
    let st := st.setTile a (t.setBsa b y)
    let slice := a / 256
    let st := if y.repeats = x.repeats then st
      else
        let u := if x.repeats = 0 then st.bump .updRescaleBlocks slice else st
        (u.bumpBy .updRescaleRepeats (y.repeats - x.repeats) slice).modJob j.id fun j =>
          { j with open_ := j.open_.map fun (x : OpenStep) => if x.step == o.step then { x with lossFlag := true } else x }
    if y.exhausted then (st.bump .updRescaleExhausted slice).evInt 1 .updIntStatus 3 j.id o.step [a, b, o.step.toNat] else st) s

/-- After the last site contribution every block is converted to binary32 (R112). -/
def Tile.converted (t : Tile) (n : Nat) : Tile :=
  { t.withList (((List.range ((n + 31) / 32)).flatMap fun b => (t.bsa b).out).take n) with exps := [], repeats := [], nans := [] }

/-- The staging of a tile's range for a set of sites is freed. -/
def State.unstage (s : State) (job : W32) (step : W64) (layer first count : Nat) (site : Nat → Bool) : State :=
  { s with acc.staged := s.acc.staged.filter fun x =>
      !(x.job == job && x.step == step && x.layer == layer && site x.site && first ≤ x.first && x.first < first + count) }

/-- Add to an ACCUM tile every site contribution whose turn has come (R33, R110, R111). -/
def State.tileAddGo : Nat → State → Job → OpenStep → Nat → State
  | 0, s, _, _, _ => s
  | f + 1, s, j, o, a =>
    let t := s.tile a
    let n := (j.tileOf t.layer t.first).2
    match j.sites[t.added]? with
    | none => s
    | some k =>
      if t.state != .accum || !(s.gradIn j.id o.step k).covers t.layer t.first n then s
      else if formatMx j.gradFormat then
        let st := s.tileBlocks j o a n k
        let u := { st.tile a with added := t.added + 1 }
        if u.added = j.sites.length then (st.setTile a (u.converted n)).unstage j.id o.step t.layer t.first n fun x => x < 8
        else State.tileAddGo f (st.setTile a u) j o a
      else
        let l := (t.list n).zipIdx.map fun e => add32 e.1 (rne fmtB32 (s.contribution j.id o.step k t.layer (t.first + e.2)))
        let st := (s.setTile a ({ t with added := t.added + 1 }.withList l)).unstage j.id o.step t.layer t.first n fun x => x == k
        State.tileAddGo f st j o a

/-- The same; without replicas a tile closes with its last contribution (R109). -/
def State.tileAdd (s : State) (j : Job) (o : OpenStep) (a : Nat) : State :=
  let t := State.tileAddGo 8 s j o a
  let x := t.tile a
  if x.state == .accum && x.added == j.sites.length && s.coverKind j != 1 then t.setTile a { x with state := .closed } else t

/-! ### Replicas (R304) -/

/-- Members of the replica plane; 1 where the job has no replicas. -/
def State.replicaN (s : State) (j : Job) : Nat :=
  if s.coverKind j = 1 then max 1 (s.planeOf (j.coverSlot.getD 0)).length else 1

def State.replicaIdx (s : State) (j : Job) : Nat := s.planeIdx (j.coverSlot.getD 0)

/-- Tiles of chunk `c` of a layer: from ⌊c·T ÷ N⌋ on. -/
def chunkTiles (tiles n c : Nat) : List Nat := (List.range ((c + 1) * tiles / n - c * tiles / n)).map fun i => c * tiles / n + i

/-- The transfer identifier of a chunk (log entry 17): purpose, step's low bits, layer and sending member. -/
def chunkId (purpose layer member : Nat) (step : W64) : W64 :=
  BitVec.ofNat 64 (purpose * 2 ^ 60 + member * 2 ^ 44 + layer * 2 ^ 28 + step.toNat % 2 ^ 28)

/-- The tiles' bytes of a chunk. -/
def State.chunkBytes (s : State) (j : Job) (o : OpenStep) (layer : Nat) (ts : List Nat) : List Byte :=
  ts.flatMap fun t =>
    match s.tileAt j.id o.step layer (j.tileFirst layer t) with
    | some a => (((s.tile a).list (j.tileCount layer t)).flatMap fun x => leBytes 4 x)
    | none => []

/-- Tiles of a layer have all their sites' contributions. -/
def State.tilesSummed (s : State) (j : Job) (o : OpenStep) (layer : Nat) (ts : List Nat) : Bool :=
  ts.all fun t =>
    match s.tileAt j.id o.step layer (j.tileFirst layer t) with
    | some a => (s.tile a).added == j.sites.length
    | none => false

/-- Σ(i) of the fixed reduction tree over the members' partials of one element (R304). -/
def treeSum (p : List Nat) : Nat → Nat → Nat
  | 0, i => p.getD i 0
  | f + 1, i => (treeKids p.length i).foldl (fun acc k => add32 acc (treeSum p f k)) (p.getD i 0)

/-- Close tiles of a layer with their final values. -/
def State.closeChunk (s : State) (j : Job) (o : OpenStep) (layer : Nat) (ts : List Nat) (vals : List Nat) : State :=
  (ts.foldl (fun (acc : State × List Nat) t =>
    let n := j.tileCount layer t
    match acc.1.tileAt j.id o.step layer (j.tileFirst layer t) with
    | some a => (acc.1.setTile a ({ acc.1.tile a with state := .closed }.withList (acc.2.take n)), acc.2.drop n)
    | none => (acc.1, acc.2.drop n)) (s, vals)).1

/-- This member's chunk is summed once every other member's partial has landed; S goes to the others (R304). -/
def State.chunkSum (s : State) (j : Job) (o : OpenStep) (layer : Nat) : State :=
  let n := s.replicaN j
  let i := s.replicaIdx j
  let ts := chunkTiles (j.layerTiles layer) n i
  let others := (List.range n).filter (· != i)
  let have_ := others.map fun m => s.acc.staged.find? fun x => x.job == j.id && x.step == o.step && x.site == 8 + m && x.layer == layer
  if !s.tilesSummed j o layer ts || have_.any Option.isNone || ts.any (fun t =>
      ((s.tileAt j.id o.step layer (j.tileFirst layer t)).map fun a => (s.tile a).state) != some .accum) then s
  else
    let own := leNat32 (s.chunkBytes j o layer ts)
    let part := fun (m : Nat) => if m = i then own
      else ((s.acc.staged.find? fun x => x.job == j.id && x.step == o.step && x.site == 8 + m && x.layer == layer).map Staged.elems).getD []
    let all := (List.range n).map part
    let vals := (List.range own.length).map fun e => treeSum (all.map fun p => p.getD e 0) 4 0
    let t := s.closeChunk j o layer ts vals
    let t := { t with acc.staged := t.acc.staged.filter fun x => !(x.job == j.id && x.step == o.step && 8 ≤ x.site && x.layer == layer) }
    let data := vals.flatMap fun x => leBytes 4 x
    others.foldl (fun t m =>
      match (t.planeOf (j.coverSlot.getD 0))[m]? with
      | some d => t.sendTransfer (chunkId 2 layer i o.step) d 2 j.id (some (o.step.setWidth 8)) data
      | none => t) t
where
  /-- Words of 32 bits. -/
  leNat32 (b : List Byte) : List Nat := (List.range (b.length / 4)).map fun k => fieldLE b (4 * k) 4

/-- The chunks of a layer whose tiles have just got their last site contribution: another member's goes to it, and the own one is summed
(R304). `was` says which chunks had been complete. -/
def State.chunksPartial (s : State) (j : Job) (o : OpenStep) (layer : Nat) (was : List Nat) : State :=
  let n := s.replicaN j
  let i := s.replicaIdx j
  let ts := chunkTiles (j.layerTiles layer) n
  (((List.range n).filter fun c => c != i && !was.contains c && s.tilesSummed j o layer (ts c)).foldl (fun t c =>
    match (t.planeOf (j.coverSlot.getD 0))[c]? with
    | some d => t.sendTransfer (chunkId 1 layer i o.step) d 1 j.id (some (o.step.setWidth 8)) (t.chunkBytes j o layer (ts c))
    | none => t) s).chunkSum j o layer

/-- All tiles of a layer of a step are CLOSED. -/
def State.layerClosed (s : State) (j : Job) (o : OpenStep) (layer : Nat) : Bool :=
  (List.range (j.layerTiles layer)).all fun t =>
    match s.tileAt j.id o.step layer (j.tileFirst layer t) with
    | some a => (s.tile a).state == .closed
    | none => false

/-- Record the layers whose tiles have closed, in the order in which they close; with the last contribution the step is
CONFIRMING (R55, R139). -/
def State.layersSettle (s : State) (id : W32) : State :=
  s.onJob id fun j =>
    match j.open_.head? with
    | none => s
    | some o =>
      let fresh := (List.range j.nLayers).filter fun l => !o.closedLayers.contains l && s.layerClosed j o l
      let all := o.closedLayers ++ fresh
      let o' := { o with closedLayers := all
                         phase := if o.phase = .open && all.length = j.nLayers then .confirming else o.phase }
      s.setJob (j.setStep o')

/-- Everything that new arrivals allow for the oldest open step of a job. -/
def State.accumulate (s : State) (id : W32) (layer : Nat) : State :=
  s.onJob id fun j =>
    match j.open_.head? with
    | none => s
    | some o =>
      if o.closedLayers.contains layer then s
      else
        let ts := chunkTiles (j.layerTiles layer) (s.replicaN j)
        let was := (List.range (s.replicaN j)).filter fun c => s.tilesSummed j o layer (ts c)
        let tiles := (s.acc.tiles.filter fun e => e.2.job == id && e.2.step == o.step && e.2.layer == layer && e.2.state == .accum).map Prod.fst
        let t := tiles.foldl (fun t a => t.tileAdd j o a) s
        let t := if s.coverKind j = 1 then t.chunksPartial j o layer was else t
        t.layersSettle id

/-! ### Staging and credits (R35, R49) -/

/-- The spokes whose contributions are next in order on a tile of a slice (R33). -/
def State.slotTurns (s : State) (slice : Nat) : List Nat :=
  ((s.acc.tiles.filter fun e => e.1 / 256 == slice && e.2.state == .accum).filterMap fun e => (s.job? e.2.job).bind fun j => j.sites[e.2.added]?)

/-- A packet has been staged: where its slice is full, the slice withholds gradient credits from the spokes that are not next in order, and
counts each interval that begins (R35). -/
def State.stagingCheck (s : State) (first : Nat) : State :=
  let slice := sliceOf first
  if s.stagingUsed slice ≤ 2 ^ 23 then s
  else
    let turns := s.slotTurns slice
    let old := Tbl.get s.acc.withheld 0 slice
    let new := (List.range 8).filter fun k => !turns.contains k && !old.getLsbD k
    let mask := new.foldl (fun (m : BitVec 8) k => m ||| (1#8 <<< k)) old
    if new.isEmpty then s
    else ({ s with acc.withheld := Tbl.set s.acc.withheld slice mask }).bumpBy .updOrderStall new.length slice

/-- A contribution element at or above the largest finite magnitude of its format sets the loss-scale flag (R44). -/
def lossElem (fmt x : Nat) : Bool :=
  match fpFormat (formatCode fmt) with
  | some f => match elemDecode fmt x with
    | .inf _ => true
    | .nan => false
    | v => match valCmp (valAbs v) (fpDecode f f.maxMag) with
      | some c => 0 ≤ c
      | none => false
  | none => [0x7F, 0x80, 0x81].contains (x % 256)

/-- A gradient packet or marker of the oldest open step (R33, R35, R44). -/
def State.gradAccept (s : State) (j : Job) (o : OpenStep) (site : Nat) (h : PktHdr) (g : GradPkt) : State :=
  let gi := s.gradIn j.id o.step site
  if gi.seqs.contains h.seq.toNat || g.fmt != j.gradFormat || g.step != o.step.toNat then s
  else
    let gi := { gi with seqs := gi.seqs ++ [h.seq.toNat]
                        markers := if g.marker then gi.markers ++ [(g.lastSeq, g.first, g.count, g.layer)] else gi.markers }
    let s := s.setGradIn gi.settle
    if g.marker then (s.accumulate j.id g.layer).gradCredits
    else
      let s := { s with acc.staged := s.acc.staged ++ [(⟨j.id, o.step, site, g.layer, g.first, g.fmt, g.scales, g.elems⟩ : Staged)] }
      let s := if g.elems.any (lossElem g.fmt) then
          s.modJob j.id fun j => { j with open_ := j.open_.map fun (x : OpenStep) => if x.step == o.step then { x with lossFlag := true } else x }
        else s
      ((s.stagingCheck g.first).accumulate j.id g.layer).gradCredits

/-- Bytes of a job's hold area in use. -/
def Job.holdUsed (j : Job) : Nat := (j.hold.map fun e => e.2.content.length).sum

/-- A gradient packet or end-of-slice marker arrives from a site (R33, R35, R49). -/
def State.gradientRx (s : State) (site : Nat) (p : Packet) : State :=
  match s.itemGate site p.hdr with
  | .inl t => t
  | .inr (j, o) =>
    if o.phase = .speculative then
      let full := j.holdFull || decide (j.holdGib * 2 ^ 30 ≤ j.holdUsed + p.content.length)
      (s.setJob { j with hold := j.hold ++ [(site, p)], holdFull := full }).gradCredits
    else s.gradAccept j o site p.hdr (gradPkt p.content)

/-- On the commit of the step before, held contributions go to the accumulators in site order (R33, R49). -/
def State.holdRelease (s : State) (id : W32) : State :=
  s.onJob id fun j =>
    let held := (List.range 8).flatMap fun k => j.hold.filter fun e => e.1 == k
    let t := (s.setJob { j with hold := [], holdFull := false }).gradCredits
    held.foldl (fun t e => t.gradientRx e.1 e.2) t

/-- A FREE tile of a slice for a tile range of a layer: tiles of the layer lie there in ascending element order, and room stays for those in
between, so that reductions, which follow tile addresses, take elements in ascending order (R109, R115, R134). -/
def State.tileFor (s : State) (j : Job) (o : OpenStep) (layer first : Nat) : Option Nat :=
  let slice := sliceOf first
  let mine := ((j.tileList layer).map Prod.fst).filter fun f => sliceOf f == slice
  let i := mine.idxOf first
  (s.freeTiles slice).find? fun a => i ≤ a % 256 && a % 256 + (mine.length - i) ≤ 256 &&
    mine.zipIdx.all fun e => match s.tileAt j.id o.step layer e.1 with
      | none => true
      | some x => if e.2 < i then x + (i - e.2) ≤ a else a + (e.2 - i) ≤ x

/-- FREE tiles go to a layer of the oldest open step, as far as they reach (R109). -/
def State.tileAssign (s : State) (id : W32) (layer : Nat) : State :=
  s.onJob id fun j =>
    match j.open_.head? with
    | none => s
    | some o =>
      if o.phase = .speculative || j.nLayers ≤ layer || o.closedLayers.contains layer then s
      else
        let t := (List.range (j.layerTiles layer)).foldl (fun t x =>
          let first := j.tileFirst layer x
          if (t.tileAt id o.step layer first).isSome then t
          else match t.tileFor j o layer first with
            | some a => t.setTile a { Tile.free with state := .accum, job := id, step := o.step, layer := layer, first := first }
            | none => t) s
        (t.accumulate id layer).gradCredits

/-- A replica's partial or result has landed (R304). -/
def State.chunkLanded (s : State) (l : Landing) : State :=
  s.onJob l.job fun j =>
    match l.tag.bind j.tag? with
    | none => s
    | some o =>
      let layer := l.transferId.toNat / 2 ^ 28 % 2 ^ 16
      let m := l.transferId.toNat / 2 ^ 44 % 2 ^ 16
      let vals := State.chunkSum.leNat32 l.bytes
      let ts := chunkTiles (j.layerTiles layer)
      if l.purpose = 1 then
        let first := j.tileFirst layer ((ts (s.replicaN j) (s.replicaIdx j)).headD 0)
        let t := { s with acc.staged := s.acc.staged ++ [(⟨j.id, o.step, 8 + m, layer, first, 1, [], vals⟩ : Staged)] }
        (t.chunkSum j o layer).layersSettle j.id
      else (s.closeChunk j o layer (ts (s.replicaN j) m) vals).layersSettle j.id

end Sys2Proof.Machine
end

