-- ==== Sys2Proof/Machine/SliceReg.lean ====
section
/-! DEFINITION. The update slices' registers, faults and register instructions (R121 to R128, R141). An instruction of a slice
that a fault has stopped has no effect; the instruction's word is the command's (log entry 21). -/
namespace Sys2Proof.Machine

/-! ### Registers (R122, R123) -/

def State.slice (s : State) (k : Nat) : Slice := Tbl.get s.upd.slices Slice.init k
def State.setSlice (s : State) (k : Nat) (x : Slice) : State := { s with upd.slices := Tbl.set s.upd.slices k x }

/-- A scalar register; s0 reads 0. -/
def Slice.sget (x : Slice) (r : Nat) : W64 := if r = 0 then 0 else Tbl.get x.s 0 r
/-- Write a scalar register; writes to s0 are ignored. -/
def Slice.sput (x : Slice) (r : Nat) (v : W64) : Slice := if r = 0 then x else { x with s := Tbl.set x.s r v }

/-- A mask register; m0 reads all ones. -/
def Slice.mget (x : Slice) (r : Nat) : BitVec 1024 := if r = 0 then BitVec.allOnes 1024 else Tbl.get x.m 0 r
/-- Write a mask register; writes to m0 are ignored. -/
def Slice.mput (x : Slice) (r : Nat) (v : BitVec 1024) : Slice := if r = 0 then x else { x with m := Tbl.set x.m r v }

/-- A vector register. -/
def Slice.vreg (x : Slice) (r : Nat) : BitVec 16384 := Tbl.get x.v 0 r

/-- Format, element width and element count of a mode (R123). -/
def modeFmt (mode : Nat) : FpFormat := if mode = 1 then fmtBf16 else if mode = 2 then fmtB16 else if mode = 3 then fmtB64 else fmtB32
def modeWidth (mode : Nat) : Nat := if mode = 3 then 64 else if mode = 0 then 32 else 16
def modeElems (mode : Nat) : Nat := if mode = 1 ∨ mode = 2 then 1024 else 512

/-- The elements of an operand under a mode; binary64 takes the register and the next. -/
def Slice.vget (x : Slice) (mode r : Nat) : List Nat :=
  let w := modeWidth mode
  let cut := fun (b : BitVec 16384) => (List.range (16384 / w)).map fun i => b.toNat / 2 ^ (w * i) % 2 ^ w
  if mode = 3 then cut (x.vreg r) ++ cut (x.vreg (r + 1)) else cut (x.vreg r)

/-- Put elements into a register, or a pair in binary64 mode. -/
def Slice.vput (x : Slice) (mode r : Nat) (l : List Nat) : Slice :=
  let w := modeWidth mode
  let pack := fun (l : List Nat) => BitVec.ofNat 16384 ((l.zipIdx.map fun e => e.1 % 2 ^ w * 2 ^ (w * e.2)).sum)
  if mode = 3 then { x with v := Tbl.set (Tbl.set x.v r (pack (l.take 256))) (r + 1) (pack (l.drop 256)) }
  else { x with v := Tbl.set x.v r (pack l) }

/-- Lanes whose mask bit is 0 keep the previous value (R124). -/
def Slice.merge (x : Slice) (mode vd mask : Nat) (l : List Nat) : Slice :=
  let m := x.mget mask
  x.vput mode vd ((List.zip l (x.vget mode vd)).zipIdx.map fun e => if m.getLsbD e.2 then e.1.1 else e.1.2)

/-- A mode and its registers are legal (R123, R128). -/
def modeOk (mode : Nat) (regs : List Nat) : Bool := mode < 4 && (mode != 3 || regs.all fun r => r % 2 == 0)

/-- A scalar operand of a vector instruction (R124). -/
def Slice.sval (x : Slice) (mode r : Nat) : Val :=
  let v := (x.sget r).toNat
  if mode = 3 then fpDecode fmtB64 v
  else if mode = 0 then fpDecode fmtB32 (v % 2 ^ 32)
  else fpDecode (modeFmt mode) (rne (modeFmt mode) (fpDecode fmtB32 (v % 2 ^ 32)))

/-! ### Program order (R127) -/

/-- The pc after an instruction at `pc`: the end of a loop body goes back to its first instruction while repeats are left. -/
def Slice.loopEnd : List LoopRec → Nat → Nat × List LoopRec
  | [], pc => (pc + 1, [])
  | l :: r, pc =>
    if pc = l.last then
      if 1 < l.left then (l.first, { l with left := l.left - 1 } :: r) else Slice.loopEnd r pc
    else (pc + 1, l :: r)

/-- Go on after the instruction at `pc`. -/
def Slice.next (x : Slice) (pc : Nat) : Slice :=
  let e := Slice.loopEnd x.loops pc
  { x with pc := e.1, loops := e.2 }

/-! ### Faults (R141) -/

def faultIllegal : Nat := 1
def faultUnderrun : Nat := 2
def faultOverrun : Nat := 3
def faultIncomplete : Nat := 4
def faultTile : Nat := 5
def faultParam : Nat := 6
def faultLimit : Nat := 7
def faultBranch : Nat := 8

/-- The image in a kernel slot. -/
def State.image (s : State) (slot : Nat) : List Byte := Tbl.get s.host.kernels [] slot

/-- The job as a replay on its buddy shadow sees it (R310): the shadow is the committed stratum, the entry the open step. -/
def Job.shadowView (j : Job) : Job :=
  let sh := j.buddy.shadow.getD Stratum.empty
  { j with strata := { j.strata with working := j.buddy.work, committed := sh, assayed := sh }, open_ := j.buddy.replay.toList }

/-- The job that a dispatcher updates: the job itself, or the view of its shadow in mode 3. -/
def State.updJob (s : State) (d : Dispatcher) : Option Job := (s.job? d.job).map fun j => if d.mode = 3 then j.shadowView else j

/-- Change what a dispatcher updates: strata and open steps, or the shadow's. -/
def State.updMod (s : State) (d : Dispatcher) (f : Job → Job) : State :=
  s.modJob d.job fun j =>
    if d.mode = 3 then
      let v := f j.shadowView
      { j with buddy := { j.buddy with work := v.strata.working, replay := v.open_.head? } }
    else f j

/-- A kernel fault: the slice stops, the others end after their current invocation, and the step will fail confirmation. -/
def State.sliceFault (s : State) (k code stream : Nat) : State :=
  let x := s.slice k
  let kslot := (s.upd.run.map Dispatcher.kernel).getD 0
  let first := s.fld .updFault 16 8 k = 0
  let s1 := if first then
      (s.wr .updFault (BitVec.ofNat 32 (code * 2 ^ 16 + stream * 2 ^ 12 + kslot * 2 ^ 8)) k).wr .updFaultPc (BitVec.ofNat 32 x.pc) k
    else s
  let job := (x.run.map Invocation.job).getD 0
  let step := (x.run.map Invocation.step).getD 0
  let group := (x.run.map Invocation.group).getD 0
  let id := fieldLE (s.image kslot) 4 2
  let w := s.wilostRec 6 job step 0 0 [(30, cborArray [cborNat code, cborNat x.pc, cborNat id, cborNat k, cborNat group])]
  let s2 := (s1.setSlice k { x with stopped := true }).evInt 1 .updIntStatus 2 job step [id, code, x.pc, k, group] 0 (some w)
  let s3 := { s2 with upd.slices := s2.upd.slices.map fun (e : Nat × Slice) => (e.1, { e.2 with todo := [] })
                      upd.faulted := s2.upd.faulted <|> some (k, code) }
  match s.upd.run with
  | some d => s3.updMod d fun j =>
      { j with open_ := j.open_.map fun (o : OpenStep) => if o.step == step then { o with kernelFault := true } else o }
  | none => s3

/-- Run a register instruction of slice `k`: nothing on a stopped slice, ILLEGAL where the encoding is (R128). -/
def State.sliceDo (s : State) (k : Fin 16) (legal : Bool) (f : Slice → Slice) : State :=
  let x := s.slice k.val
  if x.stopped then s
  else if legal then s.setSlice k.val ((f x).next x.pc)
  else s.sliceFault k.val faultIllegal 0

/-- The same for an instruction that counts: NaNs produced from operands that are not NaN, in the lanes it writes (R124). -/
def State.sliceArith (s : State) (k : Fin 16) (legal : Bool) (mode vd mask : Nat) (f : Slice → List (Nat × Bool)) : State :=
  let x := s.slice k.val
  let t := s.sliceDo k legal fun x => x.merge mode vd mask ((f x).map Prod.fst)
  if x.stopped || !legal then t
  else
    let n := ((f x).zipIdx.filter fun e => e.1.2 && (x.mget mask).getLsbD e.2).length
    if n = 0 then t else t.bumpBy .updArithNan n k.val

/-- A rounded result and whether it is a NaN that no operand was. -/
def lane (f : FpFormat) (ops : List Val) (r : Nat) : Nat × Bool :=
  (r, valIsNan (fpDecode f r) && !(ops.any valIsNan))

/-! ### Vector instructions (R127) -/

/-- A two-operand arithmetic instruction. -/
def State.vec2 (s : State) (k : Fin 16) (vd va vb : Fin 32) (mask mode : Fin 8) (op : FpFormat → Val → Val → Nat) : State :=
  let f := modeFmt mode.val
  s.sliceArith k (modeOk mode.val [vd.val, va.val, vb.val]) mode.val vd.val mask.val fun x =>
    (List.zip (x.vget mode.val va.val) (x.vget mode.val vb.val)).map fun e =>
      let a := fpDecode f e.1
      let b := fpDecode f e.2
      lane f [a, b] (op f a b)

/-- A one-operand arithmetic instruction. -/
def State.vec1 (s : State) (k : Fin 16) (vd va : Fin 32) (mask mode : Fin 8) (op : FpFormat → Val → Nat) : State :=
  let f := modeFmt mode.val
  s.sliceArith k (modeOk mode.val [vd.val, va.val]) mode.val vd.val mask.val fun x =>
    (x.vget mode.val va.val).map fun e => lane f [fpDecode f e] (op f (fpDecode f e))

/-- Multiply and add, rounding once; `neg` negates the product. -/
def State.vec3 (s : State) (k : Fin 16) (vd va vb vc : Fin 32) (mask mode : Fin 8) (neg : Bool) : State :=
  let f := modeFmt mode.val
  s.sliceArith k (modeOk mode.val [vd.val, va.val, vb.val, vc.val]) mode.val vd.val mask.val fun x =>
    (List.zip (List.zip (x.vget mode.val va.val) (x.vget mode.val vb.val)) (x.vget mode.val vc.val)).map fun e =>
      let a := fpDecode f e.1.1
      let b := fpDecode f e.1.2
      let c := fpDecode f e.2
      let p := valMul a b
      lane f [a, b, c] (rne f (valAdd (if neg then valNeg p else p) c))

/-- An instruction with a scalar operand; `vb` takes part where `three`. -/
def State.vecS (s : State) (k : Fin 16) (vd va vb sa : Fin 32) (mask mode : Fin 8) (three : Bool) (op : Val → Val → Val → Val) :
    State :=
  let f := modeFmt mode.val
  s.sliceArith k (modeOk mode.val (if three then [vd.val, va.val, vb.val] else [vd.val, va.val])) mode.val vd.val mask.val fun x =>
    let c := x.sval mode.val sa.val
    (List.zip (x.vget mode.val va.val) (x.vget mode.val vb.val)).map fun e =>
      let a := fpDecode f e.1
      let b := fpDecode f e.2
      lane f (if three then [a, b, c] else [a, c]) (rne f (op a b c))

/-- VMOV: the bits of the operand in the enabled lanes. -/
def State.vmov (s : State) (k : Fin 16) (vd va : Fin 32) (mask mode : Fin 8) : State :=
  s.sliceDo k (modeOk mode.val [vd.val, va.val]) fun x => x.merge mode.val vd.val mask.val (x.vget mode.val va.val)

/-- |v| in a mode's format. -/
def absOp (f : FpFormat) (v : Val) : Nat := rne f (valAbs v)
/-- −v in a mode's format. -/
def negOp (f : FpFormat) (v : Val) : Nat := rne f (valNeg v)

/-- VSEL: by the mask bit, with no merging. -/
def State.vsel (s : State) (k : Fin 16) (vd va vb : Fin 32) (mask mode : Fin 8) : State :=
  s.sliceDo k (modeOk mode.val [vd.val, va.val, vb.val]) fun x =>
    let m := x.mget mask.val
    x.vput mode.val vd.val ((List.zip (x.vget mode.val va.val) (x.vget mode.val vb.val)).zipIdx.map fun e =>
      if m.getLsbD e.2 then e.1.1 else e.1.2)

/-- Bits into a mask register. -/
def maskBits (l : List Bool) : BitVec 1024 := BitVec.ofNat 1024 ((l.zipIdx.map fun e => if e.1 then 2 ^ e.2 else 0).sum)

/-- The conditions of VCMP. -/
def cmpCond (c : Nat) (a b : Val) : Bool :=
  match valCmp a b with
  | none => c == 3 || c == 4
  | some d => if c = 0 then d < 0 else if c = 1 then d ≤ 0 else if c = 2 then d == 0 else if c = 3 then d != 0 else false

/-- VCMP: bits whose mask bit is 0 are set to 0. -/
def State.vcmp (s : State) (k : Fin 16) (vd va vb vc : Fin 32) (mask mode : Fin 8) : State :=
  let f := modeFmt mode.val
  s.sliceDo k (modeOk mode.val [va.val, vb.val] && vc.val ≤ 4) fun x =>
    let m := x.mget mask.val
    x.mput (vd.val % 8) (maskBits ((List.zip (x.vget mode.val va.val) (x.vget mode.val vb.val)).zipIdx.map fun e =>
      m.getLsbD e.2 && cmpCond vc.val (fpDecode f e.1.1) (fpDecode f e.1.2)))

/-- The classes of VCLASS. -/
def classOf (c : Nat) (v : Val) : Bool :=
  if c = 0 then valNonfinite v else if c = 1 then valIsNan v else if c = 2 then valIsZero v else valSign v

/-- VCLASS; the sign is the encoding's sign bit, and masked-off bits are 0 as for VCMP (log entry 20). -/
def State.vclass (s : State) (k : Fin 16) (vd va vb : Fin 32) (mask mode : Fin 8) : State :=
  let f := modeFmt mode.val
  let w := modeWidth mode.val
  s.sliceDo k (modeOk mode.val [va.val] && vb.val ≤ 3) fun x =>
    let m := x.mget mask.val
    x.mput (vd.val % 8) (maskBits ((x.vget mode.val va.val).zipIdx.map fun e =>
      m.getLsbD e.2 && (if vb.val = 3 then e.1.testBit (w - 1) else classOf vb.val (fpDecode f e.1))))

/-- Count conversions of a slice (R519). -/
def State.countConv (s : State) (k : Nat) (notes : List ConvNote) : State :=
  let n := (notes.filter fun c => c == .nonfinite || c == .nanLost).length
  let l := (notes.filter (· == .nanLost)).length
  let t := (notes.filter (· == .saturated)).length
  let s := if n = 0 then s else s.bumpBy .updConvNonfinite n k
  let s := if l = 0 then s else s.bumpBy .updConvNanLost l k
  if t = 0 then s else s.bumpBy .updConvSat t k

/-- The draw word of lane `e` of a VCVT (R104): job, step, domain 0 and the instruction's selector as the rule has them. The rule counts
on a logical page and an element index, and no rule names them for a register's lane: Config.vcvtPlace, a free function of where the
invocation stands, so that a recompute, the partner and a replica draw the same words (DESIGN CHOICE, log entry 3). -/
def Slice.cvtWord (x : Slice) (sel e : Nat) : Nat :=
  match x.run with
  | some v =>
    let at_ := Config.vcvtPlace v.layer v.group x.pc (x.pos.map Prod.snd) e
    srWord v.job.toNat v.step.toNat at_.1 at_.2 0 0 sel
  | none => 0

/-- VCVT: rounded to the FR byte's format and returned exactly in binary32. A round field of 3 is reserved (R98), so that the instruction
faults ILLEGAL like one with another malformed field: R128 does not list it (DESIGN CHOICE, log entry 20). -/
def State.vcvt (s : State) (k : Fin 16) (vd va : Fin 32) (fr sel : Byte) : State :=
  let x := s.slice k.val
  let fmt := frFormat fr.toNat
  let legal := frValid fr.toNat && 1 ≤ fmt && fmt ≤ 9
  let word := fun (e : Nat) => if frRound fr.toNat = 2 then x.cvtWord sel.toNat e else 0
  let res := (x.vget 0 va.val).zipIdx.map fun e => frConvert fr.toNat (word e.2) (fpDecode fmtB32 e.1)
  let t := s.sliceDo k legal fun x => x.vput 0 vd.val (res.map fun r => rne fmtB32 (elemDecode fmt r.1))
  if x.stopped || !legal then t else t.countConv k.val (res.map Prod.snd)

/-- VBCAST: the scalar in every lane. -/
def State.vbcast (s : State) (k : Fin 16) (vd sa : Fin 32) (mask mode : Fin 8) : State :=
  let f := modeFmt mode.val
  s.sliceDo k (modeOk mode.val [vd.val]) fun x =>
    let bits := if mode.val = 0 then (x.sget sa.val).toNat % 2 ^ 32
      else if mode.val = 3 then (x.sget sa.val).toNat else rne f (x.sval mode.val sa.val)
    x.merge mode.val vd.val mask.val (List.replicate (modeElems mode.val) bits)

/-- One halving of VHSUM: element i gains element i + k. -/
def halve (k : Nat) (l : List Nat) : List Nat :=
  (List.range k).map fun i => add64 (l.getD i 0) (l.getD (i + k) 0)

/-- A binary64 pattern is a NaN. -/
def nan64 (n : Nat) : Bool := valIsNan (fpDecode fmtB64 n)

/-- NaNs that one halving makes of two numbers (R124). -/
def halveNans (k : Nat) (l : List Nat) : Nat :=
  ((List.range k).filter fun i =>
    nan64 (add64 (l.getD i 0) (l.getD (i + k) 0)) && !nan64 (l.getD i 0) && !nan64 (l.getD (i + k) 0)).length

/-- The halvings that VHSUM makes of an operand of `n` lanes. R127 lists 256 down to 1, for 512 lanes; the 1,024 lanes of a 16-bit mode
are halved with 512 first (DESIGN CHOICE, log entry 20). -/
def sumSteps (n : Nat) : List Nat := (if n = 1024 then [512] else []) ++ [256, 128, 64, 32, 16, 8, 4, 2, 1]

/-- The lanes that VHSUM adds, in binary64; masked-off lanes contribute +0. -/
def Slice.sumLanes (x : Slice) (mode va mask : Nat) : List Nat :=
  (x.vget mode va).zipIdx.map fun e => if (x.mget mask).getLsbD e.2 then rne fmtB64 (fpDecode (modeFmt mode) e.1) else 0

/-- The sum by halving, and the NaNs that its additions made of numbers. -/
def sumHalves (ks l : List Nat) : List Nat × Nat :=
  ks.foldl (fun a k => (halve k a.1, a.2 + halveNans k a.1)) (l, 0)

/-- VHSUM: the lanes in binary64, added by halving; a NaN that an addition makes of two numbers counts (R124). -/
def State.vhsum (s : State) (k : Fin 16) (sd va : Fin 32) (mask mode : Fin 8) (rsv : Fin 16) : State :=
  let legal := modeOk mode.val [va.val] && rsv == 0
  let x := s.slice k.val
  let q := sumHalves (sumSteps (modeElems mode.val)) (x.sumLanes mode.val va.val mask.val)
  let t := s.sliceDo k legal fun x => x.sput sd.val (BitVec.ofNat 64 (q.1.headD 0))
  if x.stopped || !legal || q.2 = 0 then t else t.bumpBy .updArithNan q.2 k.val

/-! ### Reduction slots (R116, R117, R134) -/

/-- Lanes of a slot gain the elements of an operand, in ascending order: element e enters lane e mod 128. -/
def RedSlot.sumsq (r : RedSlot) (vals : List (Nat × Val)) : RedSlot :=
  vals.foldl (fun r e =>
    let l := e.1 % 128
    if valNonfinite e.2 then { r with bad := Tbl.set r.bad l (Tbl.get r.bad 0 l + 1) }
    else { r with ssq := Tbl.set r.ssq l (rne fmtB64 (valAdd (valMul e.2 e.2) (fpDecode fmtB64 (Tbl.get r.ssq 0 l)))) }) r

def RedSlot.welford (r : RedSlot) (vals : List (Nat × Val)) : RedSlot :=
  vals.foldl (fun r e =>
    let l := e.1 % 128
    if valNonfinite e.2 then { r with bad := Tbl.set r.bad l (Tbl.get r.bad 0 l + 1) }
    else { r with wel := Tbl.set r.wel l (welfordAdd (Tbl.get r.wel (0, 0, 0) l) (rne fmtB64 e.2)) }) r

/-- The lanes of a slot merged by halving: sum of squares, count, n, mean, s2 (R115). -/
def halveMerge {α : Type} (f : α → α → α) : List Nat → List α → List α
  | [], l => l
  | k :: r, l => halveMerge f r (List.zipWith f (l.take k) (l.drop k))

def RedSlot.lanes (r : RedSlot) : Nat × Nat × (Nat × Nat × Nat) :=
  let ks := [64, 32, 16, 8, 4, 2, 1]
  let q := (List.range 128).map fun l => Tbl.get r.ssq 0 l
  let w := (List.range 128).map fun l => Tbl.get r.wel (0, 0, 0) l
  ((halveMerge add64 ks q).headD 0, r.bad.vals.sum, (halveMerge welfordMerge ks w).headD (0, 0, 0))

/-- A slot of a slice. -/
def Slice.slot (x : Slice) (n : Nat) : RedSlot := Tbl.get x.slots RedSlot.empty n
def Slice.setSlot (x : Slice) (n : Nat) (r : RedSlot) : Slice := { x with slots := Tbl.set x.slots n r }

/-- The enabled elements of an operand with their values. -/
def Slice.operand (x : Slice) (mode va mask : Nat) : List (Nat × Val) :=
  ((x.vget mode va).zipIdx.filter fun e => (x.mget mask).getLsbD e.2).map fun e => (e.2, fpDecode (modeFmt mode) e.1)

/-- VACCSQ and VWELF into slots 2 to 7: slots 0 and 1 are the gradient's (R134, log entry 20). The lanes are those of the named mask:
that fused reductions exclude pad lanes (R130) is the kernel's to do for these two, by a mask that follows m7 (DESIGN CHOICE, log
entry 20). -/
def State.vaccsq (s : State) (k : Fin 16) (va : Fin 32) (slot mask mode : Fin 8) (rsv : Fin 16) : State :=
  s.sliceDo k (modeOk mode.val [va.val] && rsv == 0 && 2 ≤ slot.val) fun x =>
    x.setSlot slot.val ((x.slot slot.val).sumsq (x.operand mode.val va.val mask.val))

def State.vwelf (s : State) (k : Fin 16) (va : Fin 32) (slot mask mode : Fin 8) (rsv : Fin 16) : State :=
  s.sliceDo k (modeOk mode.val [va.val] && rsv == 0 && 2 ≤ slot.val) fun x =>
    x.setSlot slot.val ((x.slot slot.val).welford (x.operand mode.val va.val mask.val))

/-- RDGET: a field of the slot merged at the end of the phase before; in phase 0 the empty state (R134). -/
def State.rdget (s : State) (k : Fin 16) (sd : Fin 32) (slot field mode : Fin 8) (rsv : Fin 16) : State :=
  let legal := field.val ≤ 4 && mode.val < 4 && rsv == 0
  let merged := match s.upd.run with
    | some d => if d.phase = 0 then [] else Tbl.get d.merged [] slot.val
    | none => []
  let waits := s.upd.run.any fun d => d.waiting && (fieldLE (s.image d.kernel) 0x1C 1).testBit slot.val
  if waits && legal then s
  else s.sliceDo k legal fun x => x.sput sd.val (merged.getD field.val 0)

/-- RDCLR: the slot is empty. -/
def State.rdclr (s : State) (k : Fin 16) (slot mode : Fin 8) (rsv : Fin 16) : State :=
  s.sliceDo k (mode.val < 4 && rsv == 0) fun x => x.setSlot slot.val RedSlot.empty

/-! ### Scalar instructions (R127) -/

def State.sadd (s : State) (k : Fin 16) (sd sa sb sub : Fin 32) (rsv : Fin 64) : State :=
  s.sliceDo k (sub.val ≤ 1 && rsv == 0) fun x =>
    x.sput sd.val (if sub.val = 0 then x.sget sa.val + x.sget sb.val else x.sget sa.val - x.sget sb.val)

def State.saddi (s : State) (k : Fin 16) (sd sa : Fin 32) (imm : W16) : State :=
  s.sliceDo k true fun x => x.sput sd.val (x.sget sa.val + imm.signExtend 64)

def State.sli (s : State) (k : Fin 16) (sd sa : Fin 32) (imm : W16) : State :=
  s.sliceDo k true fun x =>
    let q := sa.val % 4
    let keep := x.sget sd.val &&& ~~~(0xFFFF#64 <<< (16 * q))
    x.sput sd.val (keep ||| (imm.setWidth 64 <<< (16 * q)))

/-- POWI: repeated squaring from the least significant bit, rounding each product. -/
def powiGo : Nat → Nat → Nat → Nat → Nat
  | 0, _, _, acc => acc
  | f + 1, base, n, acc =>
    if n = 0 then acc
    else powiGo f (if n / 2 = 0 then base else mul64 base base) (n / 2) (if n % 2 = 1 then mul64 acc base else acc)
def powi (a n : Nat) : Nat := powiGo 64 a n 0x3FF0000000000000

/-- The binary64 sub-operations of SFOP. -/
def sfopVal (sub a b : Nat) : Nat :=
  let x := fpDecode fmtB64 a
  let y := fpDecode fmtB64 b
  if sub = 0 then add64 a b else if sub = 1 then sub64 a b else if sub = 2 then mul64 a b else if sub = 3 then div64 a b
  else if sub = 4 then sqrt64 a else if sub = 5 then rne fmtB64 (valMin x y) else if sub = 6 then rne fmtB64 (valMax x y)
  else powi a b

/-- SFOP; a negative exponent of POWI is a value the spec does not state: free (log entry 3). NaNs produced count (R124). -/
def State.sfop (s : State) (k : Fin 16) (sd sa sb sub : Fin 32) (rsv : Fin 64) : State :=
  let x := s.slice k.val
  let legal := sub.val ≤ 7 && rsv == 0
  if x.stopped || !legal then s.sliceDo k legal id
  else
    let a := (x.sget sa.val).toNat
    let b := (x.sget sb.val).toNat
    let (v, s) := if sub.val = 7 && (x.sget sb.val).msb then s.free 64 else (BitVec.ofNat 64 (sfopVal sub.val a b), s)
    let nan := fun (n : Nat) => valIsNan (fpDecode fmtB64 n)
    let t := s.sliceDo k true fun x => x.sput sd.val v
    let from_ := nan a || (nan b && sub.val != 4 && sub.val != 7)
    if nan v.toNat && !from_ && !(sub.val = 7 && (x.sget sb.val).msb) then t.bump .updArithNan k.val else t

/-- SCVT; a binary64 beyond int64 gives a value the spec does not state: free (log entry 3). -/
def State.scvt (s : State) (k : Fin 16) (sd sa sub : Fin 32) (sb : Fin 32) (rsv : Fin 64) : State :=
  let x := s.slice k.val
  let legal := sub.val ≤ 3 && rsv == 0
  let _ := sb
  if x.stopped || !legal then s.sliceDo k legal id
  else
    let a := x.sget sa.val
    let v := fpDecode fmtB64 a.toNat
    let int := valRoundInt 1 v
    let out := sub.val = 3 && (valNonfinite v || int < -(2 ^ 63) || 2 ^ 63 ≤ int)
    let (r, s) := if out then s.free 64
      else (if sub.val = 0 then BitVec.ofNat 64 (rne fmtB64 (valOfInt a.toInt))
        else if sub.val = 1 then BitVec.ofNat 64 (rne fmtB32 v)
        else if sub.val = 2 then BitVec.ofNat 64 (rne fmtB64 (fpDecode fmtB32 (a.toNat % 2 ^ 32)))
        else BitVec.ofInt 64 int, s)
    s.sliceDo k true fun x => x.sput sd.val r

/-- A word that the table does not list (R128). -/
def State.sliceIllegal (s : State) (k : Fin 16) : State := s.sliceDo k false id

/-- SIGNAL: a Notice event with the code. -/
def State.signal (s : State) (k : Fin 16) (imm : W16) : State :=
  let x := s.slice k.val
  if x.stopped then s
  else
    let job := (x.run.map Invocation.job).getD 0
    let step := (x.run.map Invocation.step).getD 0
    (s.sliceDo k true id).evReason 0 .upd 0xFFFF job step [imm.toNat, k.val]

/-- FENCE: every VST and VTST has been accepted when it issued, so that it only goes on. -/
def State.fence_ (s : State) (k : Fin 16) (rsv : Fin 4) : State := s.sliceDo k (rsv == 0) id

end Sys2Proof.Machine
end

