-- ==== Sys2Proof/Machine/SliceStream.lean ====
section
/-! DEFINITION. Streams, scratch tiles, control flow and dispatch of the update slices (R129 to R142). -/
namespace Sys2Proof.Machine

/-! ### Image fields (R129, R137) -/

/-- A byte field of a stream descriptor. -/
def imgStream (img : List Byte) (k lo n : Nat) : Nat := fieldLE img (0x40 + 32 * k + lo) n
/-- Stream `k` is bound in a phase. -/
def imgBound (img : List Byte) (k phase : Nat) : Bool := (fieldLE img 0x20 8 / 2 ^ (4 * k)).testBit phase
def imgPhases (img : List Byte) : Nat := fieldLE img 6 1
def imgPrologue (img : List Byte) (p : Nat) : Nat := fieldLE img (8 + 4 * p) 2
def imgBody (img : List Byte) (p : Nat) : Nat := fieldLE img (10 + 4 * p) 2
def imgWords (img : List Byte) : Nat := fieldLE img 0x18 2
def imgParams (img : List Byte) : Nat := fieldLE img 0x1A 1
def imgScratch (img : List Byte) : Nat := fieldLE img 0x1B 1
def imgScope (img : List Byte) : Nat := fieldLE img 0x1C 1

/-- First index of a phase's code, and the index after its last: up to the next phase's first (log entry 20). -/
def imgFrom (img : List Byte) (p : Nat) : Nat := min (imgPrologue img p) (imgBody img p)
def imgTo (img : List Byte) (p : Nat) : Nat :=
  ((((List.range (imgPhases img)).map (imgFrom img)).filter fun x => imgFrom img p < x).foldl min (imgWords img))

/-- The last phase that binds a GRAD_IN stream; the last phase where none does. -/
def imgGradLast (img : List Byte) : Nat :=
  (((List.range (imgPhases img)).filter fun p => (List.range 16).any fun k => imgBound img k p && imgStream img k 0 1 == 3).getLast?).getD
    (imgPhases img - 1)

/-- The kernel slot that holds the image with a digest, and whose unload does not wait (R138). -/
def State.kernelSlot (s : State) (d : Nat) : Option Nat :=
  (List.range 8).find? fun k => Tbl.has s.host.kernels k && (shake256 (s.image k)).toNat == d &&
    !(s.host.kernelDue.any fun w => w.slot == k && w.image.isNone)

/-- Every job is between steps (R138): no invocation runs, and no step has had a layer updated and is not yet committed. A next step
whose streaming and gradients have begun does not count, since it has not used a kernel (DEDUCED, log entry 47). -/
def State.kernelsIdle (s : State) : Bool :=
  s.upd.run.isNone && s.jobs.vals.all fun j =>
    !j.committing && j.open_.all (fun o => o.ready.isEmpty) && j.buddy.replay.all fun o => o.ready.isEmpty

/-! ### Spans (R130) -/

/-- What a slice instruction works on: slice, invocation, dispatcher, image, job and step. -/
structure SliceCtx where
  k : Nat
  inv : Invocation
  disp : Dispatcher
  img : List Byte
  job : Job
  step : OpenStep

/-- The running invocation of a slice that is not stopped. -/
def State.sliceCtx (s : State) (k : Nat) : Option SliceCtx :=
  let x := s.slice k
  if x.stopped then none
  else match x.run, s.upd.run with
    | some inv, some d =>
      match s.updJob d with
      | none => none
      | some j => (j.step? d.step).map fun o => ⟨k, inv, d, s.image d.kernel, j, o⟩
    | _, _ => none

/-- First element of the span, elements in whole vectors, and elements that are not pad lanes. -/
def SliceCtx.first (c : SliceCtx) : Nat := c.inv.group * 2 ^ 19 + c.inv.firstVec * 512
def SliceCtx.span (c : SliceCtx) : Nat := c.inv.vecs * 512
def SliceCtx.real (c : SliceCtx) : Nat :=
  let l := c.job.layer c.inv.layer
  min (c.span) (l.1 + l.2.1 - c.first)

/-- The spans of a layer on a slice: group, first vector, vectors. -/
def Job.spans (j : Job) (layer slice : Nat) : List (Nat × Nat × Nat) :=
  let l := j.layer layer
  if l.2.1 = 0 then []
  else
    ((List.range j.groups).filter fun g => g % 16 == slice && l.1 < (g + 1) * 2 ^ 19 && g * 2 ^ 19 < l.1 + l.2.1).map fun g =>
      let a := max l.1 (g * 2 ^ 19)
      let b := min (l.1 + l.2.1) ((g + 1) * 2 ^ 19)
      (g, (a - g * 2 ^ 19) / 512, (b - a + 511) / 512)

/-- The pad mask of R130: 0 in the pad lanes of the span's last vector, 1 elsewhere. A vector is 512 elements; bits 512 to 1,023, which
only an operand of 1,024 elements has, are 1 (DESIGN CHOICE, log entry 20). -/
def SliceCtx.padMask (c : SliceCtx) : BitVec 1024 :=
  let r := c.real % 512
  if c.span = c.real || r = 0 then BitVec.allOnes 1024
  else maskBits ((List.range 1024).map fun i => i < r || 512 ≤ i)

/-- Place of an element of a plane: logical page and byte offset (R67). -/
def Job.elemPlace (j : Job) (plane e : Nat) : Nat × Nat :=
  let code := j.shape (0x10 + plane) 1
  if code = 0 then (j.pageBase plane + e / 2 ^ 18, e % 2 ^ 18 * 8)
  else (j.pageBase plane + e / 2 ^ 19, e % 2 ^ 19 * planeWidth code)
def Job.auxPlace (j : Job) (plane e : Nat) : Nat × Nat :=
  let w := planeWidth (j.shape (0x30 + plane) 1)
  (j.pageBase (j.nPlanes + plane) + e / (2 ^ 21 / w), e % (2 ^ 21 / w) * w)

/-- An element of a stratum at a place; 0 where the page has no frame. -/
def State.elemAt (s : State) (t : Stratum) (place : Nat × Nat) (w : Nat) : Nat :=
  match mapFrame t.map place.1 with
  | some f => memReadLE s.mem (frameAddr f + place.2) w
  | none => 0

/-- Format code of a register mode. -/
def modeCode (mode : Nat) : Nat := if mode = 0 then 1 else if mode = 1 then 2 else if mode = 2 then 3 else 0

/-! ### Input streams (R129 to R131, R133, R142) -/

/-- Where a stream stands: element within the span, or element of the auxiliary plane. -/
def Slice.streamPos (x : Slice) (img : List Byte) (k : Nat) : Nat :=
  Tbl.get x.pos (if imgStream img k 0 1 = 4 || imgStream img k 0 1 = 5 then imgStream img k 8 8 else 0) k

/-- Advance a stream by a vector. -/
def Slice.streamStep (x : Slice) (img : List Byte) (k n : Nat) : Slice :=
  { x with pos := Tbl.set x.pos k (x.streamPos img k + n) }

/-- Elements of a plane as a stream delivers them: pad lanes read +0. -/
def State.planeLanes (s : State) (t : Stratum) (fmt mode : Nat) (places : List (Option (Nat × Nat))) : List (Nat × ConvNote) :=
  places.map fun e => match e with
    | some pl => elemConvert (modeCode mode) false 0 0 (elemDecode fmt (s.elemAt t pl (fmtBits fmt / 8)))
    | none => (0, .none)

/-- Put a loaded vector into the register and go on; poison marks the invocation (R142). -/
def State.loaded (s : State) (c : SliceCtx) (v k mode : Nat) (l : List (Nat × ConvNote)) (poison : Bool) : State :=
  let x := s.slice c.k
  let y := (x.vput mode v (l.map Prod.fst)).streamStep c.img k (modeElems mode)
  (s.setSlice c.k ({ y with poison := x.poison || poison }.next x.pc)).countConv c.k (l.map Prod.snd)

/-- The reduced gradient of an element in binary32: from the CLOSED tile in a first run, else from the silt payload (R131). -/
def State.gradElem (s : State) (c : SliceCtx) (e : Nat) : Nat :=
  if c.disp.mode = 0 then
    let first := (c.job.tileOf c.inv.layer e).1
    match s.tileAt c.job.id c.step.step c.inv.layer first with
    | some a => (Tbl.get (s.tile a).elems 0 (e - first)).toNat
    | none => 0
  else
    match c.step.silt with
    | none => 0
    | some t =>
      let w := if c.job.siltFormat = 2 then 2 else 4
      match mapFrame t.pages (e / 2 ^ 19) with
      | some f =>
        let b := memReadLE s.mem (frameAddr f + e % 2 ^ 19 * w) w
        if w = 2 then b * 2 ^ 16 else b
      | none => 0

/-- The open silt entry has a frame for a payload page; none where the allocation is refused (R65, R78). -/
def State.siltFrame (s : State) (c : SliceCtx) (page : Nat) : Option (State × Nat) :=
  match c.step.silt with
  | none => none
  | some e =>
    match mapFrame e.pages page with
    | some f => some (s, f)
    | none => (s.allocFrame c.job (c.job.siltHome page)).map fun f =>
        let s := s.allocTaken c.job.id
        let o := { c.step with silt := some { e with pages := Tbl.set e.pages page f } }
        (({ s with mem := memClear s.mem (frameAddr f) (2 ^ 21) }).updMod c.disp fun j => j.setStep o, f)

/-- VLD of GRAD_IN: the five stages of R131. -/
def State.gradLoad (s : State) (c : SliceCtx) (v k : Nat) (pos : Nat) : State :=
  let mode := imgStream c.img k 3 1
  let flags := imgStream c.img k 4 2
  let n := min (modeElems mode) (c.span - pos)
  let real := min n (c.real - pos)
  let bf := c.job.siltFormat = 2
  let es := (List.range real).map fun i => c.first + pos + i
  let raw := es.map (s.gradElem c)
  let rounded := raw.map fun b => elemConvert (if bf then 2 else 1) false 0 0 (fpDecode fmtB32 b)
  let stored := if bf then rounded.map Prod.fst else raw
  let w := if bf then 2 else 4
  let page := (c.first + pos) / 2 ^ 19
  let write := flags.testBit 1 && c.disp.mode = 0 && real != 0
  match if write then s.siltFrame c page else some (s, 0) with
  | none => s.allocRefused c.job
  | some (s, f) =>
    let s := if write then { s with mem := memWriteBytes s.mem (frameAddr f + (c.first + pos) % 2 ^ 19 * w) (stored.flatMap (leBytes w)) } else s
    let s := if bf then s.countConv c.k (rounded.map Prod.snd) else s
    let vals := stored.map fun b => if bf then b * 2 ^ 16 else b
    let vals := if flags.testBit 0 then vals.map fun b => div32 b c.step.lossScaleIn.toNat else vals
    let items := vals.zipIdx.map fun e => (e.2, fpDecode fmtB32 e.1)
    let x := s.slice c.k
    let x := if flags.testBit 2 then x.setSlot 0 ((x.slot 0).sumsq items) else x
    let x := if flags.testBit 3 then x.setSlot 1 ((x.slot 1).welford items) else x
    let lanes := (items.map fun e => rne (modeFmt mode) e.2) ++ List.replicate (modeElems mode - real) 0
    (s.setSlice c.k x).loaded c v k mode (lanes.map fun b => (b, .none)) (c.disp.mode != 0 && c.step.silt.any SiltEntry.damaged)

/-- VLD (R129 to R131, R133, R141). Where the rules leave it open, and log entry 20 says so (DESIGN CHOICE): AUX_IN reads the working
stratum where one is open and the committed one else; a vector that begins inside an auxiliary range and runs past its end delivers
+0 there, with no fault; a WORKING_IN stream bound in the phase that writes its plane is not refused and reads what the page holds. -/
def State.vld (s : State) (k : Fin 16) (v : Fin 32) (stream : Fin 16) (rsv : Fin 16) : State :=
  match s.sliceCtx k.val with
  | none => s
  | some c =>
    let st := stream.val
    let kind := imgStream c.img st 0 1
    let mode := imgStream c.img st 3 1
    let plane := imgStream c.img st 1 1
    let pos := (s.slice k.val).streamPos c.img st
    if rsv != 0 then s.sliceFault k.val faultIllegal st
    else if !imgBound c.img st c.inv.phase || !([1, 3, 4, 6].contains kind) then s.sliceFault k.val faultUnderrun st
    else if mode = 3 && v.val % 2 = 1 then s.sliceFault k.val faultIllegal st
    else if kind = 4 then
      let stop := imgStream c.img st 8 8 + imgStream c.img st 0x10 8
      if stop ≤ pos then s.sliceFault k.val faultUnderrun st
      else
        let t := c.job.strata.working.getD c.job.strata.committed
        let places := (List.range (modeElems mode)).map fun i => if pos + i < stop then some (c.job.auxPlace plane (pos + i)) else none
        s.loaded c v.val st mode (s.planeLanes t (c.job.shape (0x30 + plane) 1) mode places)
          (places.any fun e => e.any fun p => t.poisoned.contains p.1)
    else if c.span ≤ pos then s.sliceFault k.val faultUnderrun st
    else if kind = 3 then s.gradLoad c v.val st pos
    else
      let t := if kind = 6 then c.job.strata.working.getD c.job.strata.committed else c.job.strata.committed
      let places := (List.range (modeElems mode)).map fun i =>
        if pos + i < c.real then some (c.job.elemPlace plane (c.first + pos + i)) else none
      s.loaded c v.val st mode (s.planeLanes t (c.job.shape (0x10 + plane) 1) mode places)
        (places.any fun e => e.any fun p => t.poisoned.contains p.1)

/-! ### Output streams (R71, R132, R133) -/

/-- The working stratum has a frame of its own for a page: a new one on the page's home stack, with the old frame's bytes, at
the first write. None where the allocation is refused. -/
def State.workPage (s : State) (d : Dispatcher) (page : Nat) : Option State :=
  match s.updJob d with
  | none => none
  | some j =>
    let w := j.strata.working.getD j.strata.committed
    let old := mapFrame w.map page
    if old.isSome && old != mapFrame j.strata.committed.map page then
      some (s.updMod d fun j => { j with strata := { j.strata with working := some { w with leaf := Tbl.erase w.leaf page } } })
    else
      (s.allocFrame ((s.job? d.job).getD j) (j.home page)).map fun f =>
        let w' := { w with map := Tbl.set w.map page f, leaf := Tbl.erase w.leaf page
                           poisoned := if page < j.pageBase j.nPlanes then w.poisoned.filter (· != page) else w.poisoned }
        let s := s.allocTaken j.id
        { s with mem := memWriteBytes (memClear s.mem (frameAddr f) (2 ^ 21)) (frameAddr f) (s.frameBytes old) }.updMod d fun j =>
          { j with strata := { j.strata with working := some w' } }

/-- The same for every page of a list. -/
def State.workPages (s : State) (d : Dispatcher) : List Nat → Option State
  | [] => some s
  | p :: r => (s.workPage d p).bind fun t => State.workPages t d r

/-- Write elements of `w` bytes at their places into the working stratum. -/
def State.workWrite (s : State) (d : Dispatcher) (w : Nat) (l : List ((Nat × Nat) × Nat)) : State :=
  match (s.updJob d).bind fun j => j.strata.working with
  | none => s
  | some t => l.foldl (fun s e =>
      match mapFrame t.map e.1.1 with
      | some f => { s with mem := memWriteLE s.mem (frameAddr f + e.1.2) w e.2 }
      | none => s) s

/-- VST (R132, R133, R141). The elements of a vector that run past the end of an auxiliary range are dropped, with no fault, where the
vector begins inside it (DESIGN CHOICE, log entry 20). -/
def State.vst (s : State) (k : Fin 16) (v : Fin 32) (stream : Fin 16) (sel : Byte) (rsv : Fin 16) : State :=
  match s.sliceCtx k.val with
  | none => s
  | some c =>
    let st := stream.val
    let kind := imgStream c.img st 0 1
    let mode := imgStream c.img st 3 1
    let plane := imgStream c.img st 1 1
    let fr := imgStream c.img st 2 1
    let x := s.slice k.val
    let pos := x.streamPos c.img st
    let stop := if kind = 5 then imgStream c.img st 8 8 + imgStream c.img st 0x10 8 else c.span
    if rsv != 0 then s.sliceFault k.val faultIllegal st
    else if !imgBound c.img st c.inv.phase || !([2, 5].contains kind) then s.sliceFault k.val faultOverrun st
    else if mode = 3 && v.val % 2 = 1 then s.sliceFault k.val faultIllegal st
    else if stop ≤ pos then s.sliceFault k.val faultOverrun st
    else
      let n := min (modeElems mode) (stop - pos)
      let place := fun (i : Nat) => if kind = 5 then c.job.auxPlace plane (pos + i) else c.job.elemPlace plane (c.first + pos + i)
      let w := fmtBits (frFormat fr) / 8
      let res := ((x.vget mode v.val).take n).zipIdx.map fun e =>
        let pl := place e.2
        if kind = 2 && c.real ≤ pos + e.2 then (pl, 0, ConvNote.none)
        else
          let r := if frRound fr = 2 then srWord c.job.id.toNat c.step.step.toNat pl.1 (pl.2 / max w 1) 0 0 sel.toNat else 0
          let q := frConvert fr r (fpDecode (modeFmt mode) e.1)
          (pl, q.1, q.2)
      let pages := (res.map fun e => e.1.1).eraseDups
      match s.workPages c.disp pages with
      | none => s.allocRefused c.job
      | some t =>
        let t := (t.workWrite c.disp w (res.map fun e => (e.1, e.2.1))).countConv k.val (res.map fun e => e.2.2)
        let y := x.streamStep c.img st (modeElems mode)
        t.setSlice k.val ({ y with wrote := x.wrote ++ pages.filter fun p => !x.wrote.contains p }.next x.pc)

/-- VSEEK: the next element of an auxiliary stream; sa is a multiple of 512 inside the range, else the access would be past it
(R133, log entry 20). -/
def State.vseek (s : State) (k : Fin 16) (sa : Fin 32) (stream : Fin 16) (rsv : Fin 16) : State :=
  match s.sliceCtx k.val with
  | none => s
  | some c =>
    let st := stream.val
    let kind := imgStream c.img st 0 1
    let x := s.slice k.val
    let e := (x.sget sa.val).toNat
    let first := imgStream c.img st 8 8
    let code := if kind = 5 then faultOverrun else faultUnderrun
    if rsv != 0 then s.sliceFault k.val faultIllegal st
    else if !imgBound c.img st c.inv.phase || !([4, 5].contains kind) || e % 512 != 0 || e < first ||
        first + imgStream c.img st 0x10 8 ≤ e then s.sliceFault k.val code st
    else s.setSlice k.val ({ x with pos := Tbl.set x.pos st e }.next x.pc)

/-! ### Scratch tiles (R135) -/

/-- The tile and vector that sa names, if the invocation holds the tile. The tiles it holds are its own slice's: R135 moves tiles of each
slice, and no rule says whether an invocation reaches another slice's (DESIGN CHOICE, log entry 20). -/
def Slice.tileRef (x : Slice) (sa : Nat) : Option (Nat × Nat) :=
  let a := (x.sget sa).toNat
  let t := a % 4096
  let v := a / 2 ^ 16 % 32
  if a = t + v * 2 ^ 16 && x.scratch.contains t then some (t, v) else none

/-- VTLD. -/
def State.vtld (s : State) (k : Fin 16) (v sa : Fin 32) (rsv : Fin 16) : State :=
  match s.sliceCtx k.val with
  | none => s
  | some _ =>
    let x := s.slice k.val
    if rsv != 0 then s.sliceFault k.val faultIllegal 0
    else match x.tileRef sa.val with
      | none => s.sliceFault k.val faultTile 0
      | some (t, o) =>
        s.setSlice k.val ((x.vput 0 v.val ((List.range 512).map fun i => (Tbl.get (s.tile t).elems 0 (512 * o + i)).toNat)).next x.pc)

/-- VTST. -/
def State.vtst (s : State) (k : Fin 16) (v sa : Fin 32) (rsv : Fin 16) : State :=
  match s.sliceCtx k.val with
  | none => s
  | some _ =>
    let x := s.slice k.val
    if rsv != 0 then s.sliceFault k.val faultIllegal 0
    else match x.tileRef sa.val with
      | none => s.sliceFault k.val faultTile 0
      | some (t, o) =>
        let tl := s.tile t
        let el := (x.vget 0 v.val).zipIdx.foldl (fun (el : Tbl W32) e => Tbl.set el (512 * o + e.2) (BitVec.ofNat 32 e.1)) tl.elems
        (s.setTile t { tl with elems := el }).setSlice k.val (x.next x.pc)

/-! ### Parameters and the scalar block (R136) -/

/-- SLDP: a word of the kernel_params in force: a silt entry's own in a rerun or replay (R81). -/
def State.sldp (s : State) (k : Fin 16) (sd : Fin 32) (imm : W16) : State :=
  match s.sliceCtx k.val with
  | none => s
  | some c =>
    let x := s.slice k.val
    if imgParams c.img ≤ imm.toNat then s.sliceFault k.val faultParam 0
    else
      let p := (c.step.silt.map SiltEntry.params).getD c.job.params
      s.setSlice k.val ((x.sput sd.val (BitVec.ofNat 64 (fieldLE p (4 * imm.toNat) 4))).next x.pc)

/-- SLDB. -/
def State.sldb (s : State) (k : Fin 16) (sd : Fin 32) (imm : W16) : State :=
  match s.sliceCtx k.val with
  | none => s
  | some c =>
    let x := s.slice k.val
    if 511 < imm.toNat then s.sliceFault k.val faultParam 0
    else s.setSlice k.val ((x.sput sd.val (c.job.strata.committed.scalar imm.toNat)).next x.pc)

/-- SSTB: only slice 0's takes effect. -/
def State.sstb (s : State) (k : Fin 16) (sa : Fin 32) (imm : W16) : State :=
  match s.sliceCtx k.val with
  | none => s
  | some c =>
    let x := s.slice k.val
    if 447 < imm.toNat then s.sliceFault k.val faultParam 0
    else
      let t := if k.val != 0 then s
        else s.updMod c.disp fun j => { j with strata := { j.strata with
          working := j.strata.working.map fun w => { w with scalars := Tbl.set w.scalars imm.toNat (x.sget sa.val) } } }
      t.setSlice k.val (x.next x.pc)

/-! ### Control flow (R127, R128, R141) -/

/-- LOOP. -/
def State.loop_ (s : State) (k : Fin 16) (sa : Fin 32) (imm : W16) : State :=
  match s.sliceCtx k.val with
  | none => s
  | some c =>
    let x := s.slice k.val
    let last := x.pc + imm.toNat
    if 4 ≤ x.loops.length || imgTo c.img c.inv.phase ≤ last then s.sliceFault k.val faultIllegal 0
    else if x.sget sa.val = 0 || imm = 0 then s.setSlice k.val (x.next last)
    else s.setSlice k.val { x with pc := x.pc + 1, loops := ⟨x.pc + 1, last, (x.sget sa.val).toNat⟩ :: x.loops }

/-- The condition of BR. -/
def brTaken (cond : Nat) (v : W64) : Bool :=
  if cond = 0 then true else if cond = 1 then v == 0 else if cond = 2 then v != 0 else v.msb

/-- BR: the target counts from the branch itself (log entry 20); loops that it leaves end. -/
def State.br (s : State) (k : Fin 16) (sa : Fin 32) (cond : Fin 8) (rsv : Fin 4) (off : W16) : State :=
  match s.sliceCtx k.val with
  | none => s
  | some c =>
    let x := s.slice k.val
    let target : Int := x.pc + off.toInt
    if 3 < cond.val || rsv != 0 then s.sliceFault k.val faultIllegal 0
    else if !brTaken cond.val (x.sget sa.val) then s.setSlice k.val (x.next x.pc)
    else if target < imgFrom c.img c.inv.phase || (imgTo c.img c.inv.phase : Int) ≤ target then s.sliceFault k.val faultBranch 0
    else
      let pc := target.toNat
      s.setSlice k.val { x with pc := pc, loops := x.loops.dropWhile fun l => pc < l.first || l.last < pc }

/-! ### Invocations (R139) -/

/-- Free 64-bit values: registers whose values are undefined at prologue entry (log entry 3). -/
def State.freeRegs (s : State) : List Nat → State × List (Nat × W64)
  | [] => (s, [])
  | r :: t =>
    let (b, s1) := s.free 64
    let q := State.freeRegs s1 t
    (q.1, (r, b) :: q.2)

/-- Start an invocation on a slice: entry values of the scalar registers, the pad mask, open streams. -/
def State.startInv (s : State) (k : Nat) (d : Dispatcher) (j : Job) (o : OpenStep) (inv : Invocation) (rest : List Invocation) :
    State :=
  let img := s.image d.kernel
  let (s, undef) := if inv.prologue then s.freeRegs ((List.range 24).map (· + 8) ++ [1, 2]) else (s, [])
  let x := s.slice k
  let c : SliceCtx := ⟨k, inv, d, img, j, o⟩
  let n := fun (v : Nat) => BitVec.ofNat 64 v
  let entry := if inv.prologue then undef else (1, n inv.group) :: (2, n inv.firstVec) ::
    ((List.range 24).map fun i => (i + 8, Tbl.get x.left_ 0 (i + 8)))
  let regs := entry ++ [(3, n (if inv.prologue then 0 else inv.vecs)), (4, n inv.layer),
    (5, o.clipFactor.setWidth 64), (6, o.lossScaleIn.setWidth 64), (7, o.step)]
  let x := if inv.prologue then x else { x with v := x.leftV, m := x.leftM }
  let x := regs.foldl (fun (x : Slice) r => x.sput r.1 r.2) x
  let x := x.mput 7 c.padMask
  let s := if s.fld .updCtrl 0 1 = 1 then s.bump .updInvocations k else s
  s.setSlice k { x with pc := if inv.prologue then imgPrologue img inv.phase else imgBody img inv.phase
                        loops := [], pos := [], run := some inv, todo := rest, poison := false, wrote := [], cycles := 0 }

/-- The prologue and the invocations of a phase on a slice. -/
def invocations (d : Dispatcher) (j : Job) (phase slice : Nat) : List Invocation :=
  ⟨d.job, d.step, d.layer, phase, true, 0, 0, 0⟩ ::
    (j.spans d.layer slice).map fun g => ⟨d.job, d.step, d.layer, phase, false, g.1, g.2.1, g.2.2⟩

/-- Start a phase on every slice. -/
def State.startPhase (s : State) (d : Dispatcher) (j : Job) (o : OpenStep) (phase : Nat) : State :=
  let d := { d with phase := phase }
  (List.range 16).foldl (fun t k =>
    match invocations d j phase k with
    | inv :: rest => t.startInv k d j o inv rest
    | [] => t) { s with upd.run := some d }

/-- A tile goes back to FREE with what it held. -/
def Tile.release (t : Tile) : Tile := { Tile.free with elems := t.elems }

/-- CLOSED tiles of the layer on a slice return to FREE once the last phase with GRAD_IN has ended there (R131). -/
def State.tilesConsumed (s : State) (d : Dispatcher) (slice : Nat) : State :=
  { s with acc.tiles := s.acc.tiles.map fun (e : Nat × Tile) =>
      if e.1 / 256 == slice && e.2.state == .closed && e.2.job == d.job && e.2.step == d.step && e.2.layer == d.layer then (e.1, e.2.release)
      else e }

/-- HALT (R139, R141, R142). -/
def State.halt_ (s : State) (k : Fin 16) (rsv : Fin 4) : State :=
  match s.sliceCtx k.val with
  | none => s
  | some c =>
    let x := s.slice k.val
    let short := (List.range 16).find? fun st => imgBound c.img st c.inv.phase && imgStream c.img st 0 1 == 2 &&
      x.streamPos c.img st < c.span
    if rsv != 0 then s.sliceFault k.val faultIllegal 0
    else if !c.inv.prologue && short.isSome then s.sliceFault k.val faultIncomplete (short.getD 0)
    else
      let s := if x.poison then
          s.updMod c.disp fun j => { (j.setStep { c.step with linkFail := true }) with strata := { j.strata with
            working := j.strata.working.map fun w => { w with poisoned := w.poisoned ++ x.wrote.filter fun p => !w.poisoned.contains p } } }
        else s
      let x := if c.inv.prologue then
          { x with left_ := (List.range 24).map fun i => (i + 8, x.sget (i + 8)), leftV := x.v, leftM := x.m } else x
      let s := s.setSlice k.val { x with run := none, loops := [] }
      match x.todo with
      | inv :: rest => s.startInv k.val c.disp c.job c.step inv rest
      | [] => if c.disp.mode != 3 && c.inv.phase = imgGradLast c.img then s.tilesConsumed c.disp k.val else s

/-- An invocation has run KERNEL_LIMIT cycles (R141). -/
def State.kernelLimit (s : State) (k : Fin 16) : State :=
  match s.sliceCtx k.val with
  | none => s
  | some _ => s.sliceFault k.val faultLimit 0

/-! ### Dispatch (R134, R135, R139) -/

/-- Move scratch tiles of every slice to KERNEL; none where a slice has too few FREE tiles. -/
def State.takeScratch (s : State) (d : Dispatcher) (n : Nat) : Option State :=
  (List.range 16).foldl (fun (t : Option State) k => t.bind fun t =>
    let free := (t.freeTiles k).take n
    if free.length < n then none
    else
      let u := free.foldl (fun u a => u.setTile a { u.tile a with state := .kernel, job := d.job, step := d.step, layer := d.layer }) t
      some (u.setSlice k { u.slice k with scratch := free })) (some s)

/-- Dispatch the kernel of the next layer of a step, or of the entry that is applied to the buddy shadow; none where no layer is
due (R139, R310). -/
def State.dispatchOf (s : State) (j : Job) (shadow : Bool) : Option State :=
  let v := if shadow then j.shadowView else j
  v.open_.head?.bind fun o =>
    (o.closedLayers.find? fun l => !o.ready.contains l).bind fun layer =>
      (s.kernelSlot (v.kernelDigest (v.layer layer).2.2)).bind fun slot =>
        if o.kernelFault then none
        else
          let mode := if shadow then 3 else if o.replay then 2 else if o.clipRerun then 1 else 0
          let d : Dispatcher := ⟨j.id, o.step, layer, 0, slot, mode, [], false⟩
          let s1 := (List.range 16).foldl (fun t k =>
            t.setSlice k { t.slice k with slots := if Tbl.has o.slot0 k then [(0, Tbl.get o.slot0 RedSlot.empty k)] else [] }) s
          (s1.takeScratch d (imgScratch (s.image slot))).map fun t =>
            let t := t.updMod d fun v => v.setStep { o with silt := some (o.silt.getD (v.openSilt o)) }
            let t := if v.strata.working.isSome then t
              else if shadow then t.updMod d fun v => { v with strata := v.strata.openWorking o.step } else t.openWorking j.id o.step
            let v := (t.updJob d).getD v
            t.startPhase d v ((v.step? o.step).getD o) 0

/-- Dispatch the kernel of the next layer of a job whose tiles have closed (R139); else of an entry applied to the shadow (R310). -/
def State.kernelDispatch (s : State) (id : W32) : State :=
  match s.upd.run, s.job? id with
  | none, some j =>
    let own := if j.phase == .running || j.phase == .recovering then s.dispatchOf j false else none
    (own <|> s.dispatchOf j true).getD s
  | _, _ => s

/-- Slot `n` merged over slices 0 to 15: sum of squares, count, n, mean, s2 (R115, R134). -/
def State.slotMerged (s : State) (n : Nat) : Nat × Nat × (Nat × Nat × Nat) :=
  let l := (List.range 16).map fun k => ((s.slice k).slot n).lanes
  match l with
  | [] => (0, 0, (0, 0, 0))
  | a :: r => r.foldl (fun a b => (add64 a.1 b.1, a.2.1 + b.2.1, welfordMerge a.2.2 b.2.2)) a

/-- A merged slot as an item of a collective (R302). -/
def State.slotItem (s : State) (n : Nat) : CollItem :=
  let q := s.slotMerged n
  let w := fun (v : Nat) => BitVec.ofNat 64 v
  .slot (BitVec.ofNat 8 n) (w q.1) (w q.2.1) (w q.2.2.1) (w q.2.2.2.1) (w q.2.2.2.2)

/-- The fields that RDGET returns of an item. -/
def CollItem.fields : CollItem → List W64
  | .slot _ a b c d e => [a, b, c, d, e]
  | _ => []

/-- The update of the layer being dispatched has ended: its entries are readable, its scratch tiles FREE (R135, R139, R153). -/
def State.layerReady (s : State) (d : Dispatcher) : State :=
  let s := if d.mode = 3 then s else (List.range 16).foldl (fun t k => t.tilesConsumed d k) s
  let kept := (List.range 16).map fun k => (k, (s.slice k).slot 0)
  let t := { s with acc.tiles := s.acc.tiles.map fun (e : Nat × Tile) => if e.2.state == TileState.kernel && e.2.job == d.job then (e.1, e.2.release) else e
                    upd.run := none
                    upd.slices := s.upd.slices.map fun (e : Nat × Slice) => (e.1, { e.2 with scratch := [], left_ := [], leftV := [], leftM := [] }) }
  t.updMod d fun j => { j with open_ := j.open_.map fun (o : OpenStep) =>
    if o.step == d.step then { o with ready := o.ready ++ [d.layer], slot0 := kept } else o }

/-- The job-wide slots of a phase as this side received them in the step itself: every member received the same, and a replay on
the shadow takes them (R134, R310). -/
def Job.slotsOf (j : Job) (d : Dispatcher) : List CollItem :=
  ((j.slotsBack.find? fun e => e.1 == d.step && e.2.1.toNat == d.layer && e.2.2.1.toNat == d.phase).map fun e => e.2.2.2).getD []

/-- A phase has ended on all 16 slices (R134, R139): slots merge, job-scope slots go into LAYER_SLOTS, the next phase begins or
the layer is ready; after the last layer of a first run SCALAR is due (R303). -/
def State.phaseBarrier (s : State) : State :=
  match s.upd.run with
  | none => s
  | some d =>
    if s.upd.faulted.isSome || d.waiting || (List.range 16).any fun k => (s.slice k).run.isSome || (s.slice k).stopped then s
    else
      match s.updJob d with
      | none => s
      | some j =>
        match j.step? d.step with
        | none => s
        | some o =>
          let img := s.image d.kernel
          let scope := (List.range 8).filter fun n => (imgScope img).testBit n
          let own := (List.range 8).map fun n => (n, (s.slotItem n).fields)
          let merged := if d.mode = 3 then (j.slotsOf d).foldl (fun (m : Tbl (List W64)) i => match i with
            | .slot k _ _ _ _ _ => Tbl.set m k.toNat i.fields
            | _ => m) own else own
          let last := imgPhases img ≤ d.phase + 1
          let d' := { d with merged := merged, waiting := !scope.isEmpty && !last && d.mode != 3 }
          let t := if last then s.layerReady d else s.startPhase d' j o (d.phase + 1)
          let t := if scope.isEmpty || d.mode = 3 then t
            else t.collStart d.job .layerSlots d.step (BitVec.ofNat 16 d.layer) (BitVec.ofNat 8 d.phase) (scope.map s.slotItem)
          if last && d.mode = 0 && o.ready.length + 1 = j.nLayers then
            t.collStart d.job .scalar d.step 0 0 [s.slotItem 0, .or (if o.lossFlag then 1 else 0)]
          else t

end Sys2Proof.Machine
end

