-- ==== Sys2Proof/Machine/Stream.lean ====
section
/-! DEFINITION. The stream scheduler (R149 to R163) and the arbiters (R164 to R175). -/
namespace Sys2Proof.Machine

/-! ### The layer schedule table (R149 to R151) -/

/-- An entry of a site's list. -/
structure SchedEntry where
  first : Nat
  count : Nat
  layer : Nat
  fr : Nat
  rowStats : Bool
  backward : Bool
  endOfStep : Bool

/-- Entry `i` of a table. -/
def schedAt (t : List Byte) (i : Nat) : SchedEntry :=
  let b := 64 + 16 * i
  let f := fieldLE t (b + 15) 1
  ⟨fieldLE t b 8, fieldLE t (b + 8) 4, fieldLE t (b + 12) 2, fieldLE t (b + 14) 1, f.testBit 2, f.testBit 1, f.testBit 0⟩

/-- A site's list. -/
def schedList (t : List Byte) (site : Nat) : List SchedEntry :=
  (List.range (schedCount t site)).map fun i => schedAt t (fieldLE t (32 + 4 * site) 4 + i)

/-- The table that governs a step: a deferred table from its step on (R163). -/
def Job.schedFor (j : Job) (k : W64) : List Byte :=
  match j.deferred with
  | some (t, from_, _) => if from_.toNat ≤ k.toNat then t else j.sched
  | none => j.sched

/-- The index of this tray in the site table: its place among the side A members of the job peloton (R414). -/
def State.trayIdx (s : State) (j : Job) : Nat :=
  (((s.pel j.pelSlot).map fun t => t.plane false).getD []).findIdx fun m => m == s.position

/-- A site's entry of the site table: stream FR byte, revision, profile. -/
def State.siteRow (s : State) (j : Job) (site : Nat) : Nat × Nat × Nat :=
  let o := j.siteTable + 8 * (8 * s.trayIdx j + site)
  (j.shape o 1, j.shape (o + 1) 1, j.shape (o + 2) 2)

/-- The FR byte of an entry, after resolving 0x00 (R150). -/
def State.entryFr (s : State) (j : Job) (site : Nat) (e : SchedEntry) : Nat := if e.fr = 0 then (s.siteRow j site).1 else e.fr

/-- Units of an entry, and elements of unit `u` (R154). -/
def SchedEntry.units (e : SchedEntry) : Nat := (e.count + 4095) / 4096
def SchedEntry.unitLen (e : SchedEntry) (u : Nat) : Nat := min 4096 (e.count - 4096 * u)

/-- entry_bytes under an FR byte (R156). -/
def SchedEntry.bytes (e : SchedEntry) (fr : Nat) : Nat :=
  ((List.range e.units).map fun u => unitBytes (frFormat fr) (e.unitLen u) e.rowStats).sum

/-- The stream window of a site's capability table (R212). -/
def State.siteWindow (s : State) (site : Nat) : Nat := fieldLE (Tbl.get s.host.siteCap [] site) 0x18 4

/-- A format is listed in a site's stream_formats. -/
def State.siteStreams (s : State) (site fmt : Nat) : Bool := (fieldLE (Tbl.get s.host.siteCap [] site) 8 4).testBit fmt

/-- The parts of R151 that give MALFORMED for one entry of a site's list. -/
def State.entryFormOk (s : State) (j : Job) (site : Nat) (e : SchedEntry) (last : Bool) : Bool :=
  let l := j.layer e.layer
  let fr := s.entryFr j site e
  e.layer < j.nLayers && 1 ≤ e.count && e.count ≤ 2 ^ 26 && l.1 ≤ e.first && e.first + e.count ≤ l.1 + l.2.1 &&
    (e.first - l.1) % 4096 == 0 && (e.count % 4096 == 0 || e.first + e.count == l.1 + l.2.1) &&
    frValid fr && streamFormat (frFormat fr) && e.endOfStep == last

/-- The parts that give CAPABILITY; a site whose table has not been received yet is judged at the start (log entry 13). -/
def State.entryCapOk (s : State) (j : Job) (site : Nat) (e : SchedEntry) : Bool :=
  let fr := s.entryFr j site e
  !Tbl.has s.host.siteCap site || s.siteStreams site (frFormat fr) && e.bytes fr ≤ s.siteWindow site

/-- The index ranges of the eight lists cover every entry once. -/
def schedCovers (t : List Byte) (n : Nat) : Bool :=
  (List.range n).all fun i =>
    ((List.range 8).filter fun k => fieldLE t (32 + 4 * k) 4 ≤ i && i < fieldLE t (32 + 4 * k) 4 + schedCount t k).length == 1

/-- R151: 0 well formed, 1 CAPABILITY, 2 MALFORMED. -/
def State.schedCheck (s : State) (j : Job) (t : List Byte) : Nat :=
  let n := ((List.range 8).map (schedCount t)).sum
  let flagsOk := (List.range n).all fun i => fieldLE t (64 + 16 * i + 15) 1 < 8
  let form := t.length == 64 + 16 * n && schedCovers t n && flagsOk &&
    (List.range 8).all fun k =>
      let l := schedList t k
      (l.zipIdx.all fun e => s.entryFormOk j k e.1 (e.2 + 1 == l.length)) && (l.map SchedEntry.units).sum < 2 ^ 32
  let cap := (List.range 8).all fun k => (schedList t k).all fun e => s.entryCapOk j k e
  if !form then 2 else if cap then 0 else 1

/-! ### Readiness and window (R153, R160) -/

/-- A layer is readable for the stream of step `k` (R153). -/
def Job.layerReadable (j : Job) (k : W64) (layer : Nat) : Bool :=
  k == j.committed + 1 || (j.step? (k - 1)).any fun o => o.ready.contains layer

/-- The stratum that the stream of step `k` reads. -/
def Job.streamStratum (j : Job) (k : W64) : Stratum :=
  if k == j.committed + 1 then j.strata.committed else j.strata.working.getD j.strata.committed

/-- The site engines of a spoke, older step first. -/
def State.engines (s : State) (k : Nat) : List Engine := Tbl.get s.stm.engines [] k

def State.setEngines (s : State) (k : Nat) (l : List Engine) : State := { s with stm.engines := Tbl.set s.stm.engines k l }

/-- Change the engine of a job's step on a spoke. -/
def State.modEngine (s : State) (k : Nat) (job : W32) (step : W64) (f : Engine → Engine) : State :=
  s.setEngines k ((s.engines k).map fun g => if g.job == job && g.step == step then f g else g)

/-- Outstanding bytes of a site's stream window (R160). -/
def State.windowOut (s : State) (k : Nat) : Nat := ((s.engines k).flatMap fun g => g.charged.map Prod.snd).sum

/-- A site engine at the opening of a step (R149). -/
def Engine.start (job : W32) (step : W64) : Engine := ⟨job, step, 0, 0, 0, false, [], [], false, false, false, false⟩

/-- The engine of a site opens a step; what its window already counts of the step, on a side that has joined, stays counted (R374). -/
def State.engineOpen (s : State) (k : Nat) (job : W32) (step : W64) : State :=
  let old := (s.engines k).find? fun g => g.job == job && g.step == step
  s.setEngines k (((s.engines k).filter fun g => !(g.job == job && g.step == step)) ++
    [{ Engine.start job step with charged := (old.map Engine.charged).getD [] }])

/-- An entry that the partner has charged to a site's window counts here too (R160, R374). -/
def State.windowCharge (s : State) (k : Nat) (job : W32) (step : W64) (entry bytes : Nat) : State :=
  let l := s.engines k
  let l := if l.any fun g => g.job == job && g.step == step then l else l ++ [{ Engine.start job step with done := true, opened := true }]
  s.setEngines k (l.map fun g => if g.job == job && g.step == step then { g with charged := g.charged ++ [(entry, bytes)] } else g)

/-- The engine that may work on a spoke: every packet of a tag goes before any of the next (R159). -/
def State.engineNow (s : State) (k : Nat) : Option Engine := (s.engines k).find? fun g => !g.done

/-- An entry is over: the next one, or the end of the step. -/
def Engine.nextEntry (g : Engine) (n : Nat) : Engine :=
  { g with entry := g.entry + 1, unit := 0, begun := false, layerWait := false, winWait := false, done := n ≤ g.entry + 1 }

/-- A site engine begins its next entry, if the layer is readable and the window has room (R153, R159, R160). -/
def State.entryBegin (s : State) (k : Nat) : State :=
  match s.engineNow k with
  | none => s
  | some g =>
    match s.job? g.job with
    | none => s
    | some j =>
      let l := schedList (j.schedFor g.step) k
      match l[g.entry]? with
      | none => s.modEngine k g.job g.step fun g => { g with done := true }
      | some e =>
        if g.begun || !g.opened || !j.mayStream || s.stm.parked.getLsbD k then s
        else if g.released.contains g.entry then
          (s.modEngine k g.job g.step fun g => { g.nextEntry l.length with seqNo := g.seqNo + e.units }).bumpBy .stmPktsSkipped e.units k
        else if !j.layerReadable g.step e.layer then
          if g.layerWait then s else (s.modEngine k g.job g.step fun g => { g with layerWait := true }).bump .stmLayerWait k
        else
          let n := e.bytes (s.entryFr j k e)
          let held := g.charged.any fun c => c.1 == g.entry
          if s.siteWindow k < s.windowOut k + (if held then 0 else n) then
            if g.winWait then s else (s.modEngine k g.job g.step fun g => { g with winWait := true }).bump .stmWinWait k
          else s.modEngine k g.job g.step fun g =>
            { g with begun := true, charged := if held then g.charged else g.charged ++ [(g.entry, n)] }

/-! ### Conversion (R154, R155, R157) -/

/-- Elements of plane 0 of a stratum, with the places they are read from. -/
def State.unitVals (s : State) (j : Job) (t : Stratum) (first n : Nat) : List (Val × (Nat × Nat)) :=
  let code := j.shape 0x10 1
  (List.range n).map fun i =>
    let pl := j.elemPlace 0 (first + i)
    (elemDecode code (s.elemAt t pl (planeWidth code)), pl)

/-- Stochastic words of a unit's elements for a site (R104, R154). -/
def unitWords (j : Job) (step : W64) (site : Nat) (l : List (Val × (Nat × Nat))) : List Nat :=
  let w := planeWidth (j.shape 0x10 1)
  l.map fun e => srWord j.id.toNat step.toNat e.2.1 (e.2.2 / w) 1 site 0

/-- Blocks of 32. -/
def blocks32 {α : Type} (l : List α) : List (List α) := (List.range ((l.length + 31) / 32)).map fun b => (l.drop (32 * b)).take 32

/-- A block of an MX format, its last padded with +0 (R157). -/
def padBlock (l : List Val) : List Val := l ++ List.replicate (32 - l.length) (.fin false 0 0)

/-- A unit converted under an FR byte: scale bytes, elements, notes of its own elements. -/
def convertUnit (fr : Nat) (words : List Nat) (vals : List Val) : List Nat × List Nat × List ConvNote :=
  let fmt := frFormat fr
  if formatMx fmt then
    let enc := (List.zip (blocks32 vals) (blocks32 words)).map fun b => (mxEncode fmt (frRound fr) b.2 (padBlock b.1), b.1.length)
    (enc.map fun e => e.1.1, enc.flatMap fun e => e.1.2.map Prod.fst, enc.flatMap fun e => (e.1.2.take e.2).map Prod.snd)
  else
    let enc := (List.zip vals words).map fun e => frConvert fr e.2 e.1
    ([], enc.map Prod.fst, enc.map Prod.snd)

/-- One halving of a row's lanes: lane `i` gains lane `i + k` where the row has one (R115, R157). -/
def rowHalve (l : List Nat) (k : Nat) : List Nat :=
  (l.take k).zipIdx.map fun e => match l[e.2 + k]? with
    | some y => add64 e.1 y
    | none => e.1

/-- Row maximum and row sum of up to 128 elements (R118): the largest of the four block maxima, which round as `blockMax` says. -/
def rowStat (l : List Val) : Nat × Nat :=
  let four := (blocks32 l).map blockMax
  (if four.any valIsNan then 0x7FC00000 else rne fmtB32 (valAbsMax four), b64to32 (([64, 32, 16, 8, 4, 2, 1].foldl rowHalve (l.map val64)).headD 0))

/-- The payload of a stream packet (R157). -/
def unitPayload (fr : Nat) (words : List Nat) (vals : List Val) (rowStats : Bool) : List Byte × List ConvNote :=
  let c := convertUnit fr words vals
  let rows := (List.range ((vals.length + 127) / 128)).flatMap fun r =>
    let q := rowStat ((vals.drop (128 * r)).take 128)
    leBytes 4 q.1 ++ leBytes 4 q.2
  (padTo 32 (c.1.flatMap fun x => leBytes 1 x) ++ padTo 32 (packBits (fmtBits (formatCode (frFormat fr))) c.2.1) ++
    (if rowStats then padTo 32 rows else []), c.2.2)

/-- A stream header (R156). -/
def streamHeader (e : SchedEntry) (fr idx u total : Nat) (step : W64) : List Byte :=
  let last := u + 1 == e.units
  leBytes 1 1 ++ leBytes 1 fr ++ leBytes 2 e.layer ++ leBytes 4 idx ++ leBytes 8 (e.first + 4096 * u) ++ leBytes 2 (e.unitLen u) ++
    leBytes 2 ((if e.rowStats then 8 else 0) + (if e.backward then 4 else 0) + (if last && e.endOfStep then 2 else 0) + if last then 1 else 0) ++
    leBytes 4 total ++ leBytes 8 step.toNat

/-- The packets of a list that carry a unit, with their entries: an entry of the backward pass carries a unit again (R158). -/
def unitSeqs : List SchedEntry → Nat → Nat → Nat → List (Nat × SchedEntry)
  | [], _, _, _ => []
  | e :: r, layer, first, base =>
    (if e.layer = layer && e.first ≤ first && first < e.first + e.count && (first - e.first) % 4096 = 0 then
      [(base + (first - e.first) / 4096, e)] else []) ++ unitSeqs r layer first (base + e.units)

/-- The FR bytes under which the engines of other sites that stand at most share_window units ahead have read a unit (R155). -/
def State.unitReaders (s : State) (j : Job) (k : Nat) (g : Engine) (layer first : Nat) : List Nat :=
  let w := s.fld .stmCtrl 16 16
  ((List.range 8).filter fun q => q != k).flatMap fun q =>
    ((s.engines q).filter fun h => h.job == g.job && h.step == g.step).flatMap fun h =>
      ((unitSeqs (schedList (j.schedFor g.step) q) layer first 0).filter fun x => x.1 < h.seqNo && h.seqNo ≤ x.1 + w).map fun x =>
        s.entryFr j q x.2

/-- A unit's conversion is counted in the slice of each of its elements (R131, R519): a unit lies in at most two. -/
def State.unitNotes (s : State) (first : Nat) (notes : List ConvNote) : State :=
  let m := 2 ^ 19 - first % 2 ^ 19
  (s.countConv (sliceOf first) (notes.take m)).countConv (sliceOf (first + m)) (notes.drop m)

/-- Bytes in a stream buffer. -/
def State.bufUsed (s : State) (k : Nat) : Nat := ((Tbl.get s.stm.buffers [] k).map fun p => p.content.length).sum

/-- A converted unit enters the stream buffer (R154 to R161). Sites that share a read under one FR byte share its conversion too, unless
the rounding is stochastic (R155). No packet is made from a poisoned page (R84). -/
def State.unitEnqueue (s : State) (k : Nat) : State :=
  match s.engineNow k with
  | none => s
  | some g =>
    match s.job? g.job with
    | none => s
    | some j =>
      let l := schedList (j.schedFor g.step) k
      match l[g.entry]? with
      | none => s
      | some e =>
        if !g.begun || s.stm.parked.getLsbD k then s
        else
          let fr := s.entryFr j k e
          let first := e.first + 4096 * g.unit
          let n := e.unitLen g.unit
          let len := unitBytes (frFormat fr) n e.rowStats
          if 2 ^ 23 < s.bufUsed k + len then s
          else
            let t := j.streamStratum g.step
            let vals := s.unitVals j t first n
            let step := fun (g : Engine) =>
              if g.unit + 1 < e.units then { g with unit := g.unit + 1, seqNo := g.seqNo + 1 }
              else { g.nextEntry l.length with seqNo := g.seqNo + 1 }
            let next := s.modEngine k g.job g.step step
            if vals.any fun v => t.poisoned.contains v.2.1 then next
            else
              let p := unitPayload fr (unitWords j g.step k vals) (vals.map Prod.fst) e.rowStats
              let hdr := streamHeader e fr g.entry g.unit (e.bytes fr) g.step
              let pkt := mkPacket 1 (g.step.setWidth 8) (Tbl.get s.host.siteGen 0 k) (12 + s.sideNat) (BitVec.ofNat 32 g.seqNo) g.job
                (if s.tor.position.isSome then s.position else s.pwr.strapsAt.id) (s.siteLogical k) (BitVec.ofNat 32 g.unit) (hdr ++ p.1)
              let others := s.unitReaders j k g e.layer first
              let next := if others.isEmpty then next else next.bump .stmReadsShared k
              let next := { next with stm.buffers := Tbl.set next.stm.buffers k (Tbl.get next.stm.buffers [] k ++ [pkt]) }
              if others.contains fr && !frStochastic fr then next else next.unitNotes first p.2

/-- The next stream packet of the buffer is offered to the spoke's egress, in order, once the site has credits for it (R161, R164). Its flits
go under the arbiter's grants, and it leaves the buffer with its last flit. -/
def State.packetSend (s : State) (k : Nat) : State :=
  match (Tbl.get s.stm.buffers [] k)[(s.port k).streams]? with
  | none => s
  | some p => if !(s.port k).up || (s.port k).credit 0 < p.flitCount then s else s.queuePkt k 0 p

/-! ### Releases and received-through values (R159, R160, R162) -/

/-- A window release: its bytes are free, and an entry not fully sent is dropped. -/
def State.windowRelease (s : State) (k : Nat) (m : CtlMsg) : State :=
  if !m.formOk 8 || !zeroBytes m.bytes 5 3 then s.bump .spkMalformed k
  else
    let entry := m.get 0 4
    match (s.engines k).find? fun g => g.job == m.jobId && g.step == m.ident && g.step.setWidth 8 == m.bytes.getD 4 0 with
    | none => s
    | some g =>
      let s := s.modEngine k g.job g.step fun g => { g with charged := g.charged.filter fun c => c.1 != entry
                                                            released := if g.released.contains entry then g.released else g.released ++ [entry] }
      let hit := fun (p : Packet) => p.hdr.jobId == g.job && p.hdr.tag == g.step.setWidth 8 && fieldLE p.content 4 4 == entry
      let (waiting, s) := s.bufferDrop k hit
      let s := if waiting = 0 then s else s.bumpBy .stmPktsSkipped waiting k
      if g.entry = entry && g.begun then
        let n := ((s.job? g.job).map fun j => schedList (j.schedFor g.step) k).getD []
        let left := ((n[entry]?).map SchedEntry.units).getD 0 - g.unit
        (s.modEngine k g.job g.step fun g => { g.nextEntry n.length with seqNo := g.seqNo + left }).bumpBy .stmPktsSkipped left k
      else s

/-- Put an engine at the packet with a sequence number. The entries of which packets have been skipped, and that the block has not
released, are charged to the window (R160); the entry in whose middle the engine stands still has to begin. -/
def Engine.seek (g : Engine) (l : List SchedEntry) (bytes : SchedEntry → Nat) (seq : Nat) : Engine :=
  let go := l.foldl (fun (acc : Nat × Nat × Bool) e =>
    if acc.2.2 then acc
    else if acc.2.1 < e.units then (acc.1, acc.2.1, true) else (acc.1 + 1, acc.2.1 - e.units, false)) (0, seq, false)
  let passed := if go.2.2 && go.2.1 != 0 then go.1 + 1 else go.1
  { g with entry := go.1, unit := if go.2.2 then go.2.1 else 0, seqNo := seq, begun := false
           charged := (((l.take passed).zipIdx.filter fun e => !g.released.contains e.2).map fun e => (e.2, bytes e.1))
           done := !go.2.2, layerWait := false, winWait := false }

/-- RECEIVED_THROUGH: a parked engine resumes after what the block has; a tag that the block does not report as open waits for
the acknowledgement of its TAG_OPEN and starts at 0 (R162). -/
def State.receivedThrough (s : State) (k : Nat) (m : CtlMsg) : State :=
  let fl := m.get 2 1
  if !m.formOk 12 || 4 ≤ fl || !zeroBytes m.bytes 3 1 then s.bump .spkMalformed k
  else
    let rt := fun (tag : Byte) => if fl.testBit 0 && m.bytes.getD 0 0 == tag then some (m.get 4 4)
      else if fl.testBit 1 && m.bytes.getD 1 0 == tag then some (m.get 8 4) else none
    let put := fun (g : Engine) =>
      if g.job != m.jobId && m.jobId != 0 then g
      else
        let l := ((s.job? g.job).map fun j => schedList (j.schedFor g.step) k).getD []
        let bytes := fun (e : SchedEntry) => ((s.job? g.job).map fun j => e.bytes (s.entryFr j k e)).getD 0
        match rt (g.step.setWidth 8) with
        | some v => { g.seek l bytes (if v = 0xFFFFFFFF then 0 else v + 1) with opened := true }
        | none => { Engine.start g.job g.step with opened := false }
    if s.stm.parked.getLsbD k && (s.port k).up then
      { s.setEngines k ((s.engines k).map put) with stm.parked := s.stm.parked &&& ~~~(1#8 <<< k) }
    else s

/-! ### Arbiters (R164 to R170) -/

/-- What an arbiter reads of its registers: floor, high mask, quotas, work_conserving. -/
structure ArbCfg where
  floor : Nat
  high : Nat
  quota : List Nat
  surplus : Bool

def State.arbCfg (s : State) (a : Nat) : ArbCfg :=
  ⟨min 4096 (s.rd .stmArbFloor a).toNat, s.fld .stmArbPrio 0 8 a, (List.range 8).map fun r => min 4096 (s.rd .stmArbQuota (8 * a + r)).toNat,
    s.fld .stmCtrl 0 1 == 1⟩

/-- A new window (R166). -/
def Arb.newWindow (a : Arb) (c : ArbCfg) : Arb :=
  { a with slot := 0, use := List.replicate 8 0, normalGranted := 0, cut := 0
           masked := BitVec.ofNat 8 (((List.range 8).filter fun r => c.high.testBit r && c.quota.getD r 0 == 0).map fun r => 2 ^ r).sum }

/-- The next requester with a property in round-robin order after `last`. -/
def rrNext (last : Nat) (p : Nat → Bool) : Option Nat := ((List.range 8).map fun i => (last + 1 + i) % 8).find? p

/-- One slot decision (R166): the arbiter, the requester granted and whether it is a surplus grant. -/
def Arb.decide (a : Arb) (c : ArbCfg) : Arb × Option (Nat × Bool) :=
  let a := if a.slot = 4096 then a.newWindow c else a
  let left := 4096 - a.slot
  let ready := fun (r : Nat) => a.ready.getLsbD r
  let high := fun (r : Nat) => c.high.testBit r
  let normal := rrNext a.lastNormal fun r => ready r && !high r
  let floor := if a.normalGranted < c.floor && left ≤ c.floor - a.normalGranted then normal else none
  let g := floor <|> (rrNext a.lastHigh fun r => ready r && high r && !a.masked.getLsbD r) <|> normal
  match g with
  | some r =>
    if high r then
      let u := a.use.getD r 0 + 1
      ({ a with slot := a.slot + 1, use := a.use.set r u, lastHigh := r
                masked := if c.quota.getD r 0 ≤ u then a.masked ||| (1#8 <<< r) else a.masked }, some (r, false))
    else ({ a with slot := a.slot + 1, normalGranted := a.normalGranted + 1, lastNormal := r }, some (r, false))
  | none =>
    match if c.surplus then rrNext a.lastHigh fun r => ready r && high r && a.masked.getLsbD r && !a.cut.getLsbD r else none with
    | some r => ({ a with slot := a.slot + 1, lastHigh := r }, some (r, true))
    | none => (a, none)

/-- The forecast of a requester (R169). -/
def arbForecast (c : ArbCfg) (r : Nat) : Nat → Nat → Arb → Nat
  | 0, _, _ => 255
  | f + 1, n, a =>
    match a.decide c with
    | (b, some (g, _)) => if g = r then n else arbForecast c r f (n + 1) b
    | (_, none) => 255

/-- An arbiter. -/
def State.arb (s : State) (a : Nat) : Arb := Tbl.get s.stm.arbs Arb.init a
def State.setArb (s : State) (a : Nat) (x : Arb) : State := { s with stm.arbs := Tbl.set s.stm.arbs a x }

/-- The requesters that an arbiter serves (R165). -/
def arbServes (a : Nat) : Byte := if a < 16 then 0xFF else 1

/-- A grant of a spoke's arbiter moves 256 bytes of its stream: eight flits; a withdrawn one does not (R164, R168). -/
def State.grantFlits (s : State) (a : Nat) (give : Bool) : State :=
  if a < 16 then s
  else
    let q := s.port (a - 16)
    s.setPort (a - 16) { q with granted := if give then q.granted + 8 else q.granted - 8 }

/-- A slot decision with the requests that stand (R166, R169); a window that ends is counted when the next one begins. A spoke's arbiter
serves the packets offered to its egress. -/
def State.arbSlot (s : State) (a : Nat) (ready : Byte) : State :=
  let c := s.arbCfg a
  let x : Arb := { s.arb a with ready := ready &&& arbServes a }
  let s := if x.slot = 4096 then s.bump .stmArbWindows a else s
  let (y, g) := x.decide c
  let granted := g.map Prod.fst
  let fc := (List.range 8).map fun r =>
    if y.ready.getLsbD r && granted != some r then min 255 (arbForecast c r 255 0 y + 1) else 0
  let s := match g with
    | some (r, sur) =>
      let t := (s.bump .stmArbGrants (8 * a + r)).grantFlits a true
      if sur then t.bump .stmArbSurplus a else t
    | none => s
  s.setArb a { y with forecast := fc, granted := g }

/-- The end of a window (R166). -/
def State.arbWindowEnd (s : State) (a : Nat) : State :=
  if (s.arb a).slot = 4096 then (s.setArb a ((s.arb a).newWindow (s.arbCfg a))).bump .stmArbWindows a else s

/-- A granted requester withdraws: the slot is dead and adds nothing to its use (R168). -/
def State.arbWithdraw (s : State) (a : Nat) : State :=
  let x := s.arb a
  match x.granted with
  | none => s
  | some (r, surplus) =>
    let c := s.arbCfg a
    let u := x.use.getD r 0 - 1
    let high := c.high.testBit r && !surplus
    let unmask := high && u < c.quota.getD r 0 && !x.cut.getLsbD r
    (s.setArb a { x with granted := none, use := if high then x.use.set r u else x.use
                         masked := if unmask then x.masked &&& ~~~(1#8 <<< r) else x.masked }).bump .stmArbDead a |>.grantFlits a false

/-- A write of a quota (R167). -/
def State.quotaWrite (s : State) (a r : Nat) (v : W32) : State :=
  let old := (s.rd .stmArbQuota (8 * a + r)).toNat
  let t := s.wr .stmArbQuota v (8 * a + r)
  let x := s.arb a
  if (s.fld .stmArbPrio 0 8 a).testBit r && min 4096 v.toNat ≤ x.use.getD r 0 then
    let u := (t.setArb a { x with masked := x.masked ||| (1#8 <<< r), cut := x.cut ||| (1#8 <<< r) }).bump .stmArbQuotaCuts a
    u.evInt 1 .stmIntStatus 3 0 0 [a, r, old, v.toNat, x.use.getD r 0]
  else t

end Sys2Proof.Machine
end

