-- ==== Sys2Proof/Machine/AssayCalc.lean ====
section
/-! DEFINITION. What the assay engine computes (R180, R181, R183 to R186, R189): sample records, the dot model of a profile, the
comparisons and the ABFT bound. -/
namespace Sys2Proof.Machine

/-! ### Profiles (R183) -/

/-- A field of a profile descriptor. -/
def prof (p : List Byte) (lo n : Nat) : Nat := fieldLE p lo n

def profGroup (p : List Byte) : Nat := 2 ^ prof p 0xB 1
def profSplit (p : List Byte) : Nat := 2 ^ prof p 0x13 1
def profInt (p : List Byte) : Bool := 2 ≤ prof p 0x10 1
/-- scale_stage 1 takes effect only with group_mode 1 (R184). -/
def profLateScale (p : List Byte) : Bool := prof p 0x15 1 == 1 && prof p 0xC 1 == 1

/-! ### Rounding (R184) -/

/-- Round to a multiple of 2^q: mode 0 RNE, 1 RTZ; a zero keeps the sign. -/
def valQuant (mode : Nat) (q : Int) : Val → Val
  | .fin n m e => .fin n (roundMag mode 0 m e false q) q
  | v => v

/-- Round to `w` significand bits, without exponent limit. -/
def valSig (mode w : Nat) : Val → Val
  | .fin n m e => if m = 0 then .fin n m e else valQuant mode (e + (bitLength m : Int) - w) (.fin n m e)
  | v => v

/-- Flush a value below the smallest normal binary32 magnitude to a zero of its sign. -/
def valFlush (v : Val) : Val :=
  match v with
  | .fin n m e => if m != 0 && valLog2 (.fin n m e) < -126 then .fin n 0 0 else v
  | _ => v

/-- Flush where the accumulator is binary32 and the bit of ftz is set. -/
def profFlush (p : List Byte) (bit : Nat) (v : Val) : Val :=
  if prof p 0x10 1 = 0 && (prof p 8 1).testBit bit then valFlush v else v

/-- Round to the accumulator format with a mode, without flushing. The integer kinds hold integers: a wide one is 48-bit two's complement
(R119). The spec does not say what a fractional or non-finite C_in becomes there: it rounds with RNE, and a NaN or an infinity is 0
(DESIGN CHOICE, log entry 46). -/
def accRound (p : List Byte) (mode : Nat) (v : Val) : Val :=
  match prof p 0x10 1 with
  | 0 => fpDecode fmtB32 (fpConvert fmtB32 false mode 0 v).1
  | 1 => valSig mode (prof p 0x11 1) v
  | 2 => valOfInt (BitVec.ofInt 32 (valRoundInt 0 v)).toInt
  | 3 => valOfInt (max (-(2 ^ 31)) (min (2 ^ 31 - 1) (valRoundInt 0 v)))
  | _ => valOfInt (BitVec.ofInt 48 (valRoundInt 0 v)).toInt

/-- acc_add. -/
def accAdd (p : List Byte) (a b : Val) : Val := profFlush p 3 (accRound p (prof p 0x12 1) (valAdd a b))

/-! ### The dot model -/

/-- An element as a matmul reads it: bits, and the scale byte of its block (127 where the format has none). -/
structure Elem where
  bits : Nat
  scale : Nat
  deriving DecidableEq, Repr

/-- A subnormal encoding of a format. -/
def elemSubnormal (fmt x : Nat) : Bool :=
  match fpFormat (formatCode fmt) with
  | some f => x / 2 ^ f.manBits % 2 ^ f.expBits == 0
  | none => false

/-- The value of an element, before its block scale. -/
def elemIn (p : List Byte) (fmt : Nat) (e : Elem) : Val :=
  let v := elemDecode fmt e.bits
  if (prof p 8 1).testBit 0 && elemSubnormal fmt e.bits then .fin (valSign v) 0 0 else v

/-- A block scale as a value (R102). -/
def scaleVal (s : Nat) : Val := if s = 0xFF then .nan else .fin false 1 ((s : Int) - 127)

/-- product(). -/
def profProduct (p : List Byte) (a b : Elem) : Val :=
  let x := elemIn p (prof p 5 1) a
  let y := elemIn p (prof p 6 1) b
  let v := valMul x y
  let v := if profLateScale p then v else valMul (valMul v (scaleVal a.scale)) (scaleVal b.scale)
  let v := if prof p 9 1 = 0 then v else valSig (prof p 0xA 1) (prof p 9 1) v
  profFlush p 1 v

/-- aligned_sum of a group. -/
def alignedSum (p : List Byte) (l : List Val) : Val :=
  let sum := fun (l : List Val) => match l with
    | [] => Val.fin false 0 0
    | a :: r => r.foldl valAdd a
  if profInt p || l.any valNonfinite then sum l
  else
    let nz := l.filter fun v => !valIsZero v
    match nz with
    | [] => sum l
    | a :: r =>
      let e := r.foldl (fun m v => max m (valLog2 v)) (valLog2 a)
      let sig : Int := if prof p 0x10 1 = 1 then (prof p 0x11 1 : Int) - 1 else 23
      let q := e - sig - (prof p 0xD 1 : Int)
      let t := l.map (valQuant (if prof p 0xE 1 = 0 then 1 else 0) q)
      profFlush p 2 (accRound p (prof p 0xF 1) (sum t))

/-- One group added to the accumulator. -/
def groupStep (p : List Byte) (acc : Val) (l : List (Elem × Elem)) : Val :=
  let ps := l.map fun e => profProduct p e.1 e.2
  if prof p 0xC 1 = 0 then ps.foldl (accAdd p) acc
  else
    let gs := alignedSum p ps
    let gs := if profLateScale p then
        match l with
        | e :: _ => valMul (valMul gs (scaleVal e.1.scale)) (scaleVal e.2.scale)
        | [] => gs
      else gs
    accAdd p acc gs

/-- Cut a list into pieces of `n`. -/
def chunksOf {α : Type} (n : Nat) (l : List α) : List (List α) := (List.range ((l.length + n - 1) / max n 1)).map fun i => (l.drop (n * i)).take n

/-- Adjacent pairs added. -/
def pairUp (f : Val → Val → Val) : List Val → List Val
  | a :: b :: r => f a b :: pairUp f r
  | l => l

/-- assay_dot: one output element in the accumulator (R184). -/
def assayDot (p : List Byte) (row col : List Elem) (cin : Option Val) : Val :=
  let seg := row.length / profSplit p
  let first := if prof p 0x16 1 = 0 then cin.getD (.fin false 0 0) else .fin false 0 0
  let parts := (chunksOf seg (List.zip row col)).zipIdx.map fun e =>
    (chunksOf (profGroup p) e.1).foldl (groupStep p) (if e.2 = 0 then first else .fin false 0 0)
  let r := if prof p 0x14 1 = 0 then
      match parts with
      | a :: t => t.foldl (accAdd p) a
      | [] => .fin false 0 0
    else ((pairUp (accAdd p) (pairUp (accAdd p) (pairUp (accAdd p) (pairUp (accAdd p) parts)))).headD (.fin false 0 0))
  match cin with
  | some c => if prof p 0x16 1 = 1 then accAdd p r c else r
  | none => r

/-- The reference of tolerance mode: exact products in a wide float of 64 significand bits (R186). -/
def toleranceDot (p : List Byte) (row col : List Elem) (cin : Option Val) : Val :=
  (List.zip row col).foldl (fun acc e =>
    let x := valMul (elemDecode (prof p 5 1) e.1.bits) (scaleVal e.1.scale)
    let y := valMul (elemDecode (prof p 6 1) e.2.bits) (scaleVal e.2.scale)
    valSig 0 64 (valAdd acc (valMul x y))) (cin.getD (.fin false 0 0))

/-! ### Sample records (R180) -/

/-- A field of a sample record or tap report. -/
def rec_ (b : List Byte) (lo n : Nat) : Nat := fieldLE b lo n

/-- Bytes of a line of `n` elements, and of an item of `rows` lines, padded. -/
def lineBytes (fmt n : Nat) : Nat := (if formatMx fmt then (n + 31) / 32 else 0) + (fmtBits (formatCode fmt) * n + 7) / 8
def sampItem (fmt rows n : Nat) : Nat := up32 (rows * lineBytes fmt n)

/-- The lines of an item. -/
def itemLines (fmt rows n : Nat) (b : List Byte) : List (List Elem) :=
  let w := fmtBits (formatCode fmt)
  (List.range rows).map fun i =>
    let l := (b.drop (i * lineBytes fmt n)).take (lineBytes fmt n)
    let ns := if formatMx fmt then (n + 31) / 32 else 0
    (unpackBits w n (l.drop ns)).zipIdx.map fun e => ⟨e.1, if formatMx fmt then ((l.getD (e.2 / 32) 0).toNat) else 127⟩

def sampM (b : List Byte) : Nat := rec_ b 0x18 2
def sampN (b : List Byte) : Nat := rec_ b 0x1A 2
def sampK (b : List Byte) : Nat := rec_ b 0x1C 4
def sampFlag (b : List Byte) (i : Nat) : Bool := (rec_ b 0x13 1).testBit i

/-- payload_bytes that the sizes call for under a profile. -/
def sampPayload (p b : List Byte) : Nat :=
  let c := frFormat (prof p 7 1)
  sampItem (prof p 5 1) (sampM b) (sampK b) + (if sampFlag b 1 then 0 else sampItem (prof p 6 1) (sampN b) (sampK b)) +
    (if sampFlag b 0 then sampItem c (sampM b) (sampN b) else 0) + sampItem c (sampM b) (sampN b)

/-- A record is well formed under its profile (R180, R182). -/
def sampOk (p b : List Byte) : Bool :=
  rec_ b 0 2 == 0x30 && rec_ b 0x13 1 < 16 && zeroBytes b 0x34 12 && 1 ≤ sampM b && sampM b ≤ 256 && 1 ≤ sampN b && sampN b ≤ 256 &&
    1 ≤ sampK b && sampK b ≤ 65536 && rec_ b 0x30 4 ≤ 2 ^ 23 && rec_ b 0x30 4 == sampPayload p b && b.length == 64 + rec_ b 0x30 4 &&
    sampK b % (profGroup p * profSplit p) == 0 && !(sampFlag b 1 && rec_ b 0x12 1 == 2)

/-- Plane-0 element of B[kk][jj] (R181). -/
def bElement (first stride : Nat) (transpose : Bool) (kk jj : Nat) : Nat :=
  if transpose then first + jj * stride + kk else first + kk * stride + jj

/-- The entry of a site's list that B comes from (R181). -/
def bEntry (l : List SchedEntry) (layer pass lo hi : Nat) : Option SchedEntry :=
  l.find? fun e => e.layer == layer && e.backward == (pass == 1) && e.first ≤ lo && hi < e.first + e.count

/-- An element of plane 0 as the stream of a site carried it: the block of 32 that holds it is converted (R154, R181). -/
def State.streamElem (s : State) (j : Job) (t : Stratum) (step : W64) (site : Nat) (e : SchedEntry) (x : Nat) : Elem :=
  let fr := s.entryFr j site e
  let b := (x - e.first) / 32 * 32
  let n := min 32 (e.count - b)
  let vals := s.unitVals j t (e.first + b) n
  let c := convertUnit fr (unitWords j step site vals) (vals.map Prod.fst)
  ⟨c.2.1.getD ((x - e.first) % 32) 0, c.1.headD 127⟩

/-- The stratum of a step that the job holds, for a layer: the working stratum serves a layer that its update has written (R199). -/
def Job.stratumOf (j : Job) (n : W64) (layer : Nat) : Option Stratum :=
  match j.strata.working with
  | some w => if w.step = n then (if (j.step? n).any fun o => o.ready.contains layer then some w else none) else j.strata.find n
  | none => j.strata.find n

/-- The columns of B, rebuilt from the stratum of step − 1 (R181): none where no entry covers it. -/
def State.bColumns (s : State) (j : Job) (t : Stratum) (step : W64) (site layer pass k n first stride : Nat) (transpose : Bool) :
    Option (Nat × List (List Elem)) :=
  let idx := (List.range n).map fun jj => (List.range k).map fun kk => bElement first stride transpose kk jj
  let all := idx.flatten
  let lo := all.foldl min (all.headD 0)
  let hi := all.foldl max 0
  (bEntry (schedList (j.schedFor step) site) layer pass lo hi).map fun e =>
    (frFormat (s.entryFr j site e), idx.map fun l => l.map fun x => s.streamElem j t step site e x)

/-! ### Comparison (R185, R186) -/

/-- One row of outputs converted under an FR byte: scale bytes and elements. -/
def outRow (fr : Nat) (vals : List Val) : List Nat × List Nat :=
  let fmt := frFormat fr
  if formatMx fmt then
    let enc := (blocks32 vals).map fun b => (mxEncode fmt (frRound fr) [] (padBlock b), b.length)
    (enc.map fun e => e.1.1, enc.flatMap fun e => (e.1.2.take e.2).map Prod.fst)
  else ([], vals.map fun v => (frConvert fr 0 v).1)

/-- The spacing of a format at a value. -/
def ulpOf (fmt : Nat) (v : Val) : Val :=
  match fpFormat (formatCode fmt) with
  | none => .fin false 1 (if formatMx fmt then -6 else 0)
  | some f =>
    let qmin : Int := 1 - (f.bias : Int) - (f.manBits : Int)
    .fin false 1 (if valIsZero v then qmin else max qmin (valLog2 v - (f.manBits : Int)))

/-- |a − b| ≤ tol × u. -/
def withinUlps (tol : Nat) (a b u : Val) : Bool :=
  match valCmp (valAbs (valAdd a (valNeg b))) (valMul (.fin false tol 0) u) with
  | some c => c ≤ 0
  | none => false

/-- Whether a computed output matches the reported one; the row's computed values, reported elements, element index. -/
def outMatches (p : List Byte) (vals : List Val) (rep : List Elem) (jj : Nat) : Bool :=
  let fr := prof p 7 1
  let fmt := frFormat fr
  let r := rep.getD jj ⟨0, 127⟩
  if prof p 4 1 = 0 then
    let o := outRow fr vals
    let mine := o.2.getD jj 0
    if formatMx fmt then
      let sc := o.1.getD (jj / 32) 0
      (sc == 0xFF && r.scale == 0xFF) || (sc == r.scale && (mine == r.bits || (valIsNan (elemDecode fmt mine) && valIsNan (elemDecode fmt r.bits))))
    else mine == r.bits || (valIsNan (elemDecode fmt mine) && valIsNan (elemDecode fmt r.bits))
  else
    let o := outRow fmt vals
    let mine := o.2.getD jj 0
    if formatMx fmt then
      let sc := o.1.getD (jj / 32) 0
      if r.scale = 0xFF then sc == 0xFF
      else if sc = 0xFF then false
      else
        let x := mxDecode fmt sc mine
        let y := mxDecode fmt r.scale r.bits
        let shift := (r.scale : Int) - 127
        withinUlps (prof p 0x17 1) y x (valScale shift (ulpOf fmt (valScale (-shift) x)))
    else
      let x := elemDecode fmt mine
      let y := elemDecode fmt r.bits
      match x, y with
      | .nan, .nan => true
      | .inf a, .inf b => a == b
      | .fin .., .fin .. => withinUlps (prof p 0x17 1) y x (ulpOf fmt x)
      | _, _ => false

/-- What a check finds: 0 match, 1 mismatch, 2 malformed, with the first differing element, computed and reported. -/
structure CheckEnd where
  verdict : Nat
  row : Nat
  col : Nat
  expected : Nat
  reported : Nat
  deriving DecidableEq, Repr

/-- Recompute a sample under its profile and compare (R184 to R186). -/
def sampleCheck (p b : List Byte) (cols : List (List Elem)) : CheckEnd :=
  let pay := b.drop 64
  let m := sampM b
  let n := sampN b
  let k := sampK b
  let c := frFormat (prof p 7 1)
  let aSz := sampItem (prof p 5 1) m k
  let bSz := if sampFlag b 1 then 0 else sampItem (prof p 6 1) n k
  let cSz := sampItem c m n
  let cins := if sampFlag b 0 then some (itemLines c m n (pay.drop (aSz + bSz))) else none
  let rep := itemLines c m n (pay.drop (aSz + bSz + if sampFlag b 0 then cSz else 0))
  let rows := itemLines (prof p 5 1) m k pay
  let dot := if prof p 4 1 = 0 then assayDot p else toleranceDot p
  let vals := rows.zipIdx.map fun r => cols.zipIdx.map fun q =>
    dot r.1 q.1 (cins.map fun l =>
      let e := (l.getD r.2 []).getD q.2 ⟨0, 127⟩
      valMul (elemDecode c e.bits) (scaleVal e.scale))
  let bad := (List.range m).findSome? fun i => ((List.range n).find? fun q => !outMatches p (vals.getD i []) (rep.getD i []) q).map fun q => (i, q)
  match bad with
  | none => ⟨0, 0, 0, 0, 0⟩
  | some (i, q) =>
    -- the expected value is what was compared: in tolerance mode the reference of R186, whatever rounding c_fr has
    ⟨1, i, q, (outRow (if prof p 4 1 = 0 then prof p 7 1 else c) (vals.getD i [])).2.getD q 0, ((rep.getD i []).getD q ⟨0, 127⟩).bits⟩

/-! ### ABFT (R188, R189) -/

/-- A binary64 vector of a tap report. -/
def tapVec (b : List Byte) (off n : Nat) : List Nat := (List.range n).map fun i => fieldLE b (off + 8 * i) 8

/-- The sign bit of a binary64 cleared. -/
def abs64 (x : Nat) : Nat := x % 2 ^ 63

def nonfinite64 (x : Nat) : Bool := valNonfinite (fpDecode fmtB64 x)

/-- A vector of the report is not finite. -/
def tapNonfinite (b : List Byte) : Bool :=
  (tapVec b 64 (2 * rec_ b 0x10 4 + 2 * rec_ b 0x14 4)).any nonfinite64

/-- Column `jj` passes the bound of R189. -/
def tapColumn (b : List Byte) (gamma : Nat) (col : List Nat) (jj : Nat) : Bool × Nat :=
  let k := rec_ b 0x10 4
  let n := rec_ b 0x14 4
  let sa := tapVec b 64 k
  let ta := tapVec b (64 + 8 * k) k
  let sc := (tapVec b (64 + 16 * k) n).getD jj 0
  let uc := (tapVec b (64 + 16 * k + 8 * n) n).getD jj 0
  let sum := fun (l : List (Nat × Nat)) => l.foldl (fun acc e => add64 acc (mul64 e.1 e.2)) 0
  let r := sum (List.zip sa col)
  let w := sum (List.zip ta (col.map abs64))
  let z := sum (List.zip (sa.map abs64) (col.map abs64))
  let u := rne fmtB64 (.fin false 1 (-(sigWidth (frFormat (rec_ b 0x25 1)) : Int)))
  let tiny := rne fmtB64 (.fin false 1 (-40))
  let bound := add64 (add64 (mul64 u uc) (mul64 (b32to64 gamma) w)) (mul64 tiny (add64 z uc))
  (match valCmp (fpDecode fmtB64 (abs64 (sub64 sc r))) (fpDecode fmtB64 bound) with
    | some c => decide (c ≤ 0)
    | none => false, r)

/-- The columns of a report that fail, with the recomputed sum. -/
def tapFails (b : List Byte) (gamma : Nat) (cols : List (List Nat)) : List (Nat × Nat) :=
  (cols.zipIdx.map fun c => (c.2, tapColumn b gamma c.1 c.2)).filterMap fun e => if e.2.1 then none else some (e.1, e.2.2)

end Sys2Proof.Machine
end

