-- ==== Sys2Proof/Machine/Assay.lean ====
section
/-! DEFINITION. The assay engine (07_assay.md): directives and steering, sample and ABFT queues, verdicts and clean_through,
findings, signatures and the descent after a root mismatch. -/
namespace Sys2Proof.Machine

/-! ### Steering and directives (R178, R194, R202 to R204) -/

/-- The job slot that the registers of a job are kept under. -/
def State.jobSlot (s : State) (id : W32) : Nat := ((s.job? id).map Job.slot).getD 0

/-- The physical ID of the tray's site `k` (R23). -/
def State.sitePhys (s : State) (k : Nat) : W16 := siteId s.pwr.strapsAt.id k

/-- Add a boost entry, or trigger it again: triggers stand in the order of the list (R194). -/
def State.boost (s : State) (job : W32) (site layer : Nat) (bins cls : Byte) : State :=
  if s.fld .asyCtrl 2 1 = 0 then s
  else
    let since := ((s.job? job).map Job.committed).getD 0
    let e : Boost := ⟨job, site, layer, bins, cls, min (s.rd .asyBoostThresh).toNat (s.rd .asyRateMax).toNat, since⟩
    let same := fun (x : Boost) => x.job == job && x.site == site && x.layer == layer && x.bins == bins && x.cls == cls
    { s with asy.boosts := (s.asy.boosts.filter fun x => !same x) ++ [e] }

/-- The threshold of an entry at a committed step: it halves at every further BOOST_HOLD steps (R194). -/
def State.boostNow (s : State) (committed : W64) (e : Boost) : Nat :=
  let hold := max 1 (s.rd .asyBoostHold).toNat
  let held := committed.toNat - e.since.toNat
  min (e.thresh / 2 ^ (held / hold - 1)) (s.rd .asyRateMax).toNat

/-- Entries that have fallen to base_thresh go. -/
def State.boostsAge (s : State) (j : Job) : State :=
  { s with asy.boosts := s.asy.boosts.filter fun e => e.job != j.id || decide ((s.rd .asyBaseThresh).toNat < s.boostNow j.committed e) }

/-- A rule of a directive for an entry. -/
def State.boostRule (s : State) (j : Job) (e : Boost) : List Byte :=
  leBytes 2 e.layer ++ leBytes 2 e.layer ++ [e.bins, e.cls] ++ leBytes 2 (min 65535 (s.boostNow j.committed e / 65536))

/-- The directive of a step for a site (R178, R194): the five entries of its list triggered last as rules, the one triggered last
numbered highest; the others raise base_thresh. -/
def State.directiveBytes (s : State) (j : Job) (site : Nat) (n : W64) : List Byte :=
  let mine := if s.fld .asyCtrl 2 1 = 0 then [] else s.asy.boosts.filter fun e => e.job == j.id && e.site == site
  let rest := mine.take (mine.length - 5)
  let top := mine.drop (mine.length - 5)
  let base := (s.rd .asyBaseThresh).toNat
  let low := match rest.map (s.boostNow j.committed) with
    | [] => base
    | a :: r => max base (r.foldl min a)
  let width := max 1 (min 16 (s.fld .asyTempBins 8 8))
  sliceBytes (leBytes 2 0x33 ++ [0, 0] ++ leBytes 4 low ++ leBytes 8 n.toNat ++ leBytes 1 (s.fld .asyTempBins 0 8) ++ leBytes 1 width ++
    leBytes 1 top.length ++ List.replicate 5 0 ++ top.flatMap (s.boostRule j)) 0 64

/-- The side that leads builds the directives of a step before the step opens, and passes each to its site and to its partner
(R178). A step that opens again takes those that it has, which a site admitted since still needs. -/
def State.directiveSend (s : State) (id : W32) (n : W64) : State :=
  s.onJob id fun j =>
    if !s.leads then s
    else
      let s := s.boostsAge j
      let old := if n == j.directed then j.directive else []
      let d := j.sites.map fun k => (k, (old.find? fun e => e.1 == k).elim (s.directiveBytes j k n) Prod.snd)
      d.foldl (fun (t : State) e =>
        (if t.siteReach e.1 then t.siteSend e.1 0x14 n id e.2 else t).pairSend 0x14 n id e.2 (some e.1))
        (s.modJob id fun j => { j with directed := n, directive := d })

/-- A directive from the side that leads, for the site that the packet's dst names: it goes to the site as received (R178, log entry 48). -/
def State.directiveRx (s : State) (site : Nat) (m : CtlMsg) : State :=
  s.onJob m.jobId fun j =>
    let b := m.bytes.take 64
    let t := s.modJob m.jobId fun j => { j with directed := m.ident, directive := Tbl.set j.directive site b }
    t.sitesSend ((j.sites.filter (· == site)).filter t.siteReach) 0x14 m.ident m.jobId b

/-- The boost entries that the rules of a site's directive say. -/
def Job.directiveRules (j : Job) (site : Nat) (d : List Byte) : List Boost :=
  (List.range (fieldLE d 0x12 1)).flatMap fun i =>
    let o := 0x18 + 8 * i
    (List.range (fieldLE d (o + 2) 2 + 1 - fieldLE d o 2)).map fun l =>
      (⟨j.id, site, fieldLE d o 2 + l, d.getD (o + 4) 0, d.getD (o + 5) 0, fieldLE d (o + 6) 2 * 65536, j.committed⟩ : Boost)

/-- The survivor takes the rules of the last directives that it received as its boost lists (R371). -/
def State.boostsAdopt (s : State) (j : Job) : State :=
  { s with asy.boosts := (s.asy.boosts.filter fun e => e.job != j.id) ++ j.directive.flatMap fun e => j.directiveRules e.1 e.2 }

/-! ### Queues and credits (R182, R190) -/

/-- The profile that the engine holds under an ID. -/
def State.profile (s : State) (id : Nat) : Option (List Byte) := s.host.profiles.vals.find? fun p => fieldLE p 0 2 == id

/-- Bytes in the sample queue and in the ABFT queue. -/
def State.sampUsed (s : State) : Nat := (s.asy.samples.map fun x => x.bytes.length).sum
def State.abftUsed (s : State) : Nat := ((s.asy.taps ++ s.asy.heldTaps).map fun x => x.bytes.length).sum

/-- The sample queue holds more than its high-water mark. -/
def State.sampFull (s : State) : Bool := min 49152 (s.fld .asyQueue 0 16) * 1024 < s.sampUsed

/-- Withhold and return sample credits as is due: from every spoke while the sample queue is above its mark (R182), and from a spoke whose
tap report came while the ABFT queue was full, until it has space (R190). -/
def State.sampCredits (s : State) : State :=
  let full := s.sampFull
  let s := if full && !s.asy.withheld then s.raise .asyIntStatus 4 else s
  let s := { s with asy.withheld := full, asy.abftHold := if s.abftUsed ≤ 2 ^ 23 then 0 else s.asy.abftHold }
  (List.range 8).foldl (fun t k =>
    let q := t.port k
    match s.asy.withheld || s.asy.abftHold.getLsbD k, q.withhold.getD 3 false with
    | true, false => t.setPort k (q.creditsHold 3)
    | false, true => t.setPort k (q.creditsBack 3)
    | _, _ => t) s

/-- A sample record arrives (R180, R182). -/
def State.sampleRx (s : State) (site : Nat) (p : Packet) : State :=
  match s.itemGate site p.hdr with
  | .inl t => t
  | .inr (j, _) =>
    let x : Sample := ⟨site, j.id, p.hdr.gen, p.content, false, false⟩
    ({ s with asy.samples := s.asy.samples ++ [x] }.bump .asySamplesReceived site).sampCredits

/-- The matmul that a tap report names. -/
def tapKey (job : W32) (site : Nat) (b : List Byte) : TapKey :=
  ⟨job, BitVec.ofNat 64 (fieldLE b 8 8), site, fieldLE b 4 2, fieldLE b 3 1, fieldLE b 6 2⟩

/-- A tap report arrives (R188, R190): the ABFT queue never drops one. -/
def State.tapRx (s : State) (site : Nat) (p : Packet) : State :=
  match s.itemGate site p.hdr with
  | .inl t => t
  | .inr (j, _) =>
    let x : Sample := ⟨site, j.id, p.hdr.gen, p.content, false, false⟩
    let t := { s with asy.taps := s.asy.taps ++ [x], asy.reported := s.asy.reported ++ [tapKey j.id site p.content] }
    (if 2 ^ 23 < t.abftUsed then { t with asy.abftHold := t.asy.abftHold ||| BitVec.ofNat 8 (2 ^ site) } else t).sampCredits

/-- A contribution signature arrives (R192). -/
def State.signatureRx (s : State) (site : Nat) (p : Packet) : State :=
  match s.itemGate site p.hdr with
  | .inl t => t
  | .inr (j, o) =>
    let b := p.content
    let g : SigRec := ⟨j.id, o.step, site, fieldLE b 4 2, fieldLE b 0x28 8, fieldLE b 0x30 8, fieldLE b 0x38 8⟩
    { s with asy.sigs := s.asy.sigs ++ [g] }

/-! ### ABFT (R189, R190) -/

/-- Wilost keys 12 to 22 of an element found wrong. -/
def wilElement (fmt : Nat) (row col expected reported : Nat) : List (Nat × List Byte) :=
  let w := (fmtBits (formatCode fmt) + 7) / 8
  [(20, cborArray [cborNat row, cborNat col]), (21, cborBytes (leBytes w expected)), (22, cborBytes (leBytes w reported))]

/-- A tap report fails: counter, Degrade event, Wilost record, steering, and the ABFT check of its step (R36, R189, R198). -/
def State.tapFail (s : State) (x : Sample) (at1 : Option (Nat × Nat × Nat)) : State :=
  let b := x.bytes
  let layer := fieldLE b 4 2
  let more := match at1 with
    | some (col, r, sc) => wilElement 0 0 col r sc
    | none => []
  let w := s.wilostRec 2 x.job x.step (s.siteLogical x.spoke).toNat (s.sitePhys x.spoke).toNat
    ([(12, cborNat (fieldLE b 0x26 2)), (13, cborNat layer), (14, cborNat (fieldLE b 3 1)), (15, cborNat (fieldLE b 6 2))] ++ more)
  let t := s.boost x.job x.spoke layer 0xFF 0xFF
  if x.discarded then t.evReason 1 .asy 0xFFFF x.job x.step [x.spoke, layer] (some w)
  else
    let t := (t.bump .asyAbftFailed x.spoke).evInt 1 .asyIntStatus 2 x.job x.step [x.spoke, layer, fieldLE b 3 1, fieldLE b 6 2] 0 (some w)
    t.modJob x.job fun j => { j with open_ := j.open_.map fun (o : OpenStep) => if o.step == x.step then { o with abftFail := true } else o }

/-- A tap report has been judged; one of a discarded attempt counts nowhere (R198). -/
def State.tapJudged (s : State) (x : Sample) : State :=
  if x.discarded then s
  else (s.bump .asyAbftChecked x.spoke).modJob x.job fun j =>
    { j with open_ := j.open_.map fun (o : OpenStep) => if o.step == x.step then { o with abftChecked := o.abftChecked + 1 } else o }

/-- The first failing column of a report whose vectors are finite: none where it passes, and no element where B or the profile
cannot be had. -/
def State.tapCheck (s : State) (x : Sample) : Option (Option (Nat × Nat × Nat)) :=
  let b := x.bytes
  if formatCode (frFormat (fieldLE b 0x25 1)) = 9 then none
  else match s.job? x.job, s.profile (fieldLE b 0x26 2) with
    | some j, some p =>
      match j.stratumOf (x.step - 1) (fieldLE b 4 2) with
      | none => some none
      | some t =>
        let k := fieldLE b 0x10 4
        let n := fieldLE b 0x14 4
        match s.bColumns j t x.step x.spoke (fieldLE b 4 2) (fieldLE b 3 1) k n (fieldLE b 0x18 8) (fieldLE b 0x20 4) ((fieldLE b 0x24 1).testBit 0) with
        | none => some none
        | some (fmt, cols) =>
          let vals := cols.map fun c => c.map fun e => val64 (valMul (elemDecode fmt e.bits) (scaleVal e.scale))
          match tapFails b (fieldLE p 0x18 4) vals with
          | [] => none
          | (col, r) :: _ => some (some (col, r, fieldLE b (64 + 16 * k + 8 * col) 8))
    | _, _ => some none

/-- A cluster has finished with the report at the head of the ABFT queue (R189, R190). -/
def State.abftDone (s : State) : State :=
  match s.asy.taps with
  | [] => s
  | x :: r =>
    let t := { s with asy.taps := r }
    let gone := x.gone || ((t.job? x.job).bind fun j => j.stratumOf (x.step - 1) (fieldLE x.bytes 4 2)).isNone
    let u :=
      if x.discarded && gone then t
      else if tapNonfinite x.bytes then
        if x.discarded then t
        else match (t.job? x.job).bind fun j => (j.step? x.step).bind OpenStep.scalar with
          | none => { t with asy.heldTaps := t.asy.heldTaps ++ [x] }
          | some (_, bad, _) => if bad = 0 then (t.tapJudged x).tapFail x none else t
      else
        let v := t.tapJudged x
        match t.tapCheck x with
        | none => v
        | some e => v.tapFail x e
    u.sampCredits

/-- The job-wide non-finite count of a step is known: held reports fail where it is 0, and are set aside otherwise (R189). -/
def State.heldTapsJudge (s : State) (job : W32) (step : W64) (nonfinite : W64) : State :=
  let mine := fun (x : Sample) => x.job == job && x.step == step && !x.discarded
  let l := s.asy.heldTaps.filter mine
  let t := { s with asy.heldTaps := s.asy.heldTaps.filter fun x => !mine x }
  (if nonfinite = 0 then l.foldl (fun t x => (t.tapJudged x).tapFail x none) t else t).sampCredits

/-- Every tap report of a step that a site has sent has been received: its STEP_REPORT gives their number (R36, R189, R241). -/
def State.tapsAll (s : State) (j : Job) (o : OpenStep) : Bool :=
  j.sites.all fun k => Tbl.has o.reports k &&
    (s.asy.reported.filter fun v => v.job == j.id && v.step == o.step && v.site == k).length == fieldLE (Tbl.get o.reports [] k) 0x44 4

/-- Tap reports of a step are still queued or held. -/
def State.tapsPending (s : State) (j : Job) (o : OpenStep) : Bool :=
  (s.asy.taps ++ s.asy.heldTaps).any fun x => x.job == j.id && x.step == o.step && !x.discarded

/-- The reports that a site has sent and this side has not received: counted, with a Wilost record that names the site (R36, R189, R202). -/
def State.tapsMissing (s : State) (j : Job) (o : OpenStep) : State :=
  j.sites.foldl (fun t k =>
    let want := fieldLE (Tbl.get o.reports [] k) 0x44 4
    let have_ := (t.asy.reported.filter fun v => v.job == j.id && v.step == o.step && v.site == k).length
    if have_ < want then
      let w := t.wilostRec 2 j.id o.step (t.siteLogical k).toNat (t.sitePhys k).toNat []
      (t.bumpBy .asyAbftFailed (want - have_) k).evInt 1 .asyIntStatus 2 j.id o.step [k, want - have_] 0 (some w)
    else t) s

/-! ### The assay window (R195 to R197) -/

/-- A verdict entry leaves a step's window open: it is a mismatch, or the sides differ. -/
def State.verdictBad (s : State) (v : Verdict) : Bool :=
  let p := if s.pair.partnerFailed then none else v.partner
  match v.own, p with
  | some a, some b => a != 0 || b != 0
  | some a, none => a != 0
  | none, some b => b != 0
  | none, none => false

/-- A step's window has closed clean on this side (R195). -/
def State.stepClean (s : State) (j : Job) (t : W64) : Bool :=
  !(s.asy.samples.any fun x => x.job == j.id && x.step == t && !x.discarded) &&
    !(s.asy.verdicts.any fun v => v.job == j.id && v.step == t && s.verdictBad v) &&
    (s.pair.partnerFailed || s.asy.partnerDone.contains (j.id, t)) &&
    (Tbl.get s.asy.findings 0 j.slot == 0 || t.toNat < (Tbl.get s.asy.findings 0 j.slot).toNat)

/-- clean_through at a vote or a waiting commit of step `c` (R195). -/
def State.cleanThrough (s : State) (j : Job) (c : W64) : W64 :=
  let a := j.assayed.toNat
  let n := c.toNat - j.window - a
  BitVec.ofNat 64 (a + ((List.range n).takeWhile fun i => s.stepClean j (BitVec.ofNat 64 (a + 1 + i))).length)

/-- clean_through as its registers show it: for the step after the committed one. -/
def State.cleanNow (s : State) (j : Job) : W64 := s.cleanThrough j (j.committed + 1)

/-- A VERDICTS body (R358). -/
def verdictsBody (last : Bool) (l : List (Nat × Nat × Nat)) : List Byte :=
  leBytes 4 l.length ++ leBytes 1 (if last then 1 else 0) ++ [0, 0, 0] ++
    l.flatMap fun e => leBytes 1 e.1 ++ leBytes 1 e.2.2 ++ leBytes 2 e.2.1 ++ [0, 0, 0, 0]

/-- The last VERDICTS message of every committed step that has no sample queued, and of every step whose replay is still to come: it was
committed before, and its window closes in the pair as well (R197, R201). -/
def State.verdictsLast (s : State) (id : W32) : State :=
  s.onJob id fun j =>
    let a := j.assayed.toNat
    let last := max j.committed.toNat ((j.recov.replaying.getLast?.map BitVec.toNat).getD 0)
    ((List.range (last - a)).map fun i => BitVec.ofNat 64 (a + 1 + i)).foldl (fun (t : State) (n : W64) =>
      if t.asy.lastSent.contains (id, n) || (t.asy.samples.any fun x => x.job == id && x.step == n && !x.discarded) then t
      else ({ t with asy.lastSent := t.asy.lastSent ++ [(id, n)] }).pairSend 0x49 n id (verdictsBody true [])) s

/-- The oldest open step's commit waits for the assayed stratum (R70). -/
def Job.waitsLag (j : Job) : Bool := j.open_.head?.any fun o => o.commit == .lag

/-- While a commit waits, a clean_through that has risen goes into an ADVANCE instance (R196, R303). -/
def State.advanceVote (s : State) (id : W32) : State :=
  s.onJob id fun j =>
    if !j.waitsLag then s
    else
      let v := s.cleanNow j
      if v.toNat ≤ (Tbl.get s.asy.clean 0 j.slot).toNat then s
      else if (s.tor.colls.any fun c => c.key.job == id && c.key.op == .advance && c.own.isSome) then s
      else ({ s with asy.clean := Tbl.set s.asy.clean j.slot v }).collStart id .advance (j.committed + 1) 0 0 [.min v]

/-- Both sides have judged a sample differently (R197, R373). -/
def State.verdictDiffers (s : State) (v : Verdict) : State :=
  let w := s.wilostRec 7 v.job v.step (s.siteLogical v.site).toNat (s.sitePhys v.site).toNat []
  (s.bump .asyVerdictDisagree v.site).evInt 1 .asyIntStatus 5 v.job v.step [v.site, v.seqNo] 0 (some w)

/-- Put a verdict beside its counterpart. -/
def State.verdictPut (s : State) (job : W32) (step : W64) (site seqNo : Nat) (own : Bool) (x : Nat) (wil : List Byte) : State :=
  let same := fun (v : Verdict) => v.job == job && v.step == step && v.site == site && v.seqNo == seqNo
  let old := (s.asy.verdicts.find? same).getD ⟨job, step, site, seqNo, none, none, []⟩
  let v : Verdict := if own then { old with own := some x, wil := wil } else { old with partner := some x }
  let t := { s with asy.verdicts := (s.asy.verdicts.filter fun v => !same v) ++ [v] }
  match v.own, v.partner with
  | some a, some b => if a != b then t.verdictDiffers v else t
  | _, _ => t

/-- Entries of a VERDICTS message (R197). -/
def State.verdictsRx (s : State) (m : CtlMsg) : State :=
  let n := m.get 0 4
  let t := (List.range n).foldl (fun t i =>
    let o := 8 + 8 * i
    t.verdictPut m.jobId m.ident (m.get o 1) (m.get (o + 2) 2) false (m.get (o + 1) 1) []) s
  let t := if (m.get 4 1).testBit 0 && !t.asy.partnerDone.contains (m.jobId, m.ident) then
      { t with asy.partnerDone := t.asy.partnerDone ++ [(m.jobId, m.ident)] }
    else t
  t.advanceVote m.jobId

/-! ### Findings (R177, R182, R198 to R200) -/

/-- A finding against a committed step: Degrade event, Wilost record, and the earliest step kept (R200). -/
def State.finding (s : State) (job : W32) (step : W64) (site : Nat) (words : List Nat) (wil : List Byte) : State :=
  let slot := s.jobSlot job
  let old := Tbl.get s.asy.findings 0 slot
  let t := if old = 0 || step.toNat < old.toNat then { s with asy.findings := Tbl.set s.asy.findings slot step } else s
  t.evInt 1 .asyIntStatus 0 job step (site :: words) 0 (some wil)

/-- The Wilost record of a sample. -/
def State.sampWilost (s : State) (x : Sample) (p : Option (List Byte)) (e : CheckEnd) : List Byte :=
  let b := x.bytes
  let f := fun (lo n : Nat) => cborNat (fieldLE b lo n)
  s.wilostRec 1 x.job x.step (s.siteLogical x.spoke).toNat (s.sitePhys x.spoke).toNat
    ([(12, f 2 2), (13, f 0x10 2), (14, f 0x12 1), (15, f 0x20 2), (16, f 0x14 4), (17, f 5 1), (18, f 6 1), (19, f 7 1)] ++
      if e.verdict = 1 then wilElement (frFormat (fieldLE (p.getD []) 7 1)) e.row e.col e.expected e.reported else [])

/-- A sample whose B has to be rebuilt and whose source stratum has been reverted, or is not held or not rebuilt yet (R198, R199). -/
def State.sourceGone (s : State) (x : Sample) : Bool :=
  sampFlag x.bytes 1 && (x.gone || ((s.job? x.job).bind fun j => j.stratumOf (x.step - 1) (fieldLE x.bytes 0x10 2)).isNone)

/-- The sample that a cluster takes next: of the oldest step, in arrival order; one whose source is to be rebuilt waits (R182,
R199). -/
def State.nextSample (s : State) : Option Sample :=
  let l := s.asy.samples.filter fun x => x.discarded || !s.sourceGone x
  match l with
  | [] => none
  | a :: r =>
    let low := r.foldl (fun m x => min m x.step.toNat) a.step.toNat
    l.find? fun x => x.step.toNat == low

/-- What the check of a sample finds, with the profile used. -/
def State.judge (s : State) (x : Sample) : Option (List Byte) × CheckEnd :=
  let b := x.bytes
  match s.profile (fieldLE b 2 2) with
  | none => (none, ⟨2, 0, 0, 0, 0⟩)
  | some p =>
    if !sampOk p b then (some p, ⟨2, 0, 0, 0, 0⟩)
    else if !sampFlag b 1 then
      let k := sampK b
      let pay := (b.drop 64).drop (sampItem (fieldLE p 5 1) (sampM b) k)
      (some p, sampleCheck p b (itemLines (fieldLE p 6 1) (sampN b) k pay))
    else
      match s.job? x.job with
      | none => (some p, ⟨2, 0, 0, 0, 0⟩)
      | some j =>
        match (j.stratumOf (x.step - 1) (fieldLE b 0x10 2)).bind fun t => s.bColumns j t x.step x.spoke (fieldLE b 0x10 2) (fieldLE b 0x12 1) (sampK b) (sampN b)
            (fieldLE b 0x28 8) (fieldLE b 0x24 4) (sampFlag b 2) with
        | none => (some p, ⟨2, 0, 0, 0, 0⟩)
        | some (fmt, cols) => (some p, if fmt = fieldLE p 6 1 then sampleCheck p b cols else ⟨2, 0, 0, 0, 0⟩)

/-- A cluster has finished recomputing a sample and judges it (R182, R185, R186, R198 to R200). -/
def State.sampleDone (s : State) : State :=
  match s.nextSample with
  | none => s
  | some x =>
    let s1 := { s with asy.samples := s.asy.samples.erase x }
    if x.discarded && s.sourceGone x then (s1.bump .asySamplesUnchecked x.spoke).sampCredits
    else
      let (p, e) := s.judge x
      let b := x.bytes
      let t := if x.discarded then s1
        else if e.verdict = 2 then s1.bump .asySamplesMalformed x.spoke
        else
          let t := s1.bump .asySamplesChecked x.spoke
          if e.verdict = 1 then t.bump .asySamplesMismatch x.spoke else t
      let t := if e.verdict = 0 then t
        else t.boost x.job x.spoke (fieldLE b 0x10 2) (BitVec.ofNat 8 (2 ^ (fieldLE b 5 1 % 8))) (b.getD 7 0)
      let w := s.sampWilost x p e
      let words := [fieldLE b 2 2, fieldLE b 0x10 2, fieldLE b 0x12 1, fieldLE b 0x20 2, fieldLE b 0x14 4]
      let seqNo := fieldLE b 0x22 2
      let t :=
        if x.discarded then (if e.verdict = 0 then t else t.evReason 1 .asy 0xFFFF x.job x.step (x.spoke :: words) (some w))
        else
          let done := ((t.job? x.job).map fun j => decide (x.step.toNat ≤ j.committed.toNat)).getD false
          let t := t.verdictPut x.job x.step x.spoke seqNo true e.verdict (if e.verdict = 0 || done then [] else w)
          let t := t.pairSend 0x49 x.step x.job (verdictsBody false [(x.spoke, seqNo, e.verdict)])
          if e.verdict != 0 && done then t.finding x.job x.step x.spoke words w else t
      ((t.verdictsLast x.job).advanceVote x.job).sampCredits

/-- At the commit of a step the mismatches recorded against it become findings (R177). -/
def State.findingsCommit (s : State) (job : W32) (step : W64) : State :=
  let mine := fun (v : Verdict) => v.job == job && v.step == step && !v.wil.isEmpty
  let l := s.asy.verdicts.filter mine
  let t := { s with asy.verdicts := s.asy.verdicts.map fun (v : Verdict) => if mine v then { v with wil := [] } else v }
  l.foldl (fun t v => t.finding job step v.site [v.seqNo] v.wil) t

/-- A commit of step `n` finds the window of step n − W still open (R196). -/
def State.windowLate (s : State) (j : Job) (n : W64) : State :=
  if j.assayed.toNat + j.window < n.toNat then (s.bump .asyWindowLate j.slot).raise .asyIntStatus 1 else s

/-! ### Signatures (R192, R193) -/

/-- |log2(x ÷ y)| > b ÷ 16, decided on exact values; none where a value is zero on both sides or not finite. -/
def logOff (b : Nat) (x y : Val) : Option Bool :=
  match x, y with
  | .fin _ mx ex, .fin _ my ey =>
    if mx = 0 && my = 0 then none
    else if mx = 0 || my = 0 then some true
    else
      let p := fun (m : Nat) (e : Int) (k : Int) => Val.fin false (m ^ 16) (16 * e + k)
      let above := fun (a c : Val) => match valCmp a c with
        | some o => decide (0 < o)
        | none => false
      some (above (p mx ex 0) (p my ey b) || above (p my ey 0) (p mx ex b))
  | _, _ => none

/-- |mean − μ| > b ÷ 16 · √v in binary64; none where a value is not finite. -/
def meanOff (b mean mu v : Nat) : Option Bool :=
  let d := valAbs (fpDecode fmtB64 (sub64 mean mu))
  let lim := valMul (.fin false b (-4)) (fpDecode fmtB64 (sqrt64 v))
  (valCmp d lim).map fun o => decide (0 < o)

/-- Insert a binary64 in ascending order. -/
def insert64 (x : Nat) : List Nat → List Nat
  | [] => [x]
  | a :: r => match valCmp (fpDecode fmtB64 x) (fpDecode fmtB64 a) with
    | some o => if o ≤ 0 then x :: a :: r else a :: insert64 x r
    | none => a :: insert64 x r

/-- Median: the mean of the two middle values of an even number. -/
def median64 (l : List Nat) : Nat :=
  let q := l.foldl (fun acc x => insert64 x acc) []
  let n := q.length
  if n % 2 = 1 then q.getD (n / 2) 0
  else mul64 (add64 (q.getD (n / 2 - 1) 0) (q.getD (n / 2) 0)) (rne fmtB64 (.fin false 1 (-1)))

/-- The variance of a signature. -/
def SigRec.var (g : SigRec) : Nat := div64 g.s2 (ofNat64 g.count)

/-- A comparison that the spec gives a value, or a free one (log entry 3). -/
def State.decideOr (s : State) : Option Bool → Bool × State
  | some b => (b, s)
  | none => let (x, t) := s.free 1; (x == 1, t)

/-- Judge the signature of a site and layer at commit, and update its history (R193). -/
def State.signatureJudge (s : State) (g : SigRec) (vmed : Nat) : State :=
  let v := g.var
  let same := fun (h : SigHist) => h.job == g.job && h.site == g.site && h.layer == g.layer
  let h := (s.asy.history.find? same).getD ⟨g.job, g.site, g.layer, g.mean, v, 0⟩
  let vb := s.fld .asySigCtrl 16 8
  let mb := s.fld .asySigCtrl 8 8
  let (flag, s) :=
    if h.seen < s.fld .asySigCtrl 24 8 then (false, s)
    else
      let (a, s) := s.decideOr (logOff vb (fpDecode fmtB64 v) (fpDecode fmtB64 h.var))
      let (b, s) := s.decideOr (meanOff mb g.mean h.mean h.var)
      let (c, s) := s.decideOr (logOff vb (fpDecode fmtB64 v) (fpDecode fmtB64 vmed))
      (a || b || c, s)
  let w := rne fmtB64 (.fin false 1 (-(s.fld .asySigCtrl 0 4 : Int)))
  let ewma := fun (old x : Nat) => add64 old (mul64 w (sub64 x old))
  let h' : SigHist := { h with mean := ewma h.mean g.mean, var := ewma h.var v, seen := h.seen + 1 }
  let t := { s with asy.history := (s.asy.history.filter fun x => !same x) ++ [h'] }
  if !flag then t
  else
    let w := t.wilostRec 4 g.job g.step (t.siteLogical g.site).toNat (t.sitePhys g.site).toNat
      [(13, cborNat g.layer), (26, cborArray [cborBytes (leBytes 8 g.count), cborBytes (leBytes 8 g.mean), cborBytes (leBytes 8 g.s2)])]
    ((t.bump .asySigFlags g.site).evInt 0 .asyIntStatus 3 g.job g.step [g.site, g.layer] 0 (some w)).boost g.job g.site g.layer 0xFF 0xFF

/-- Judge every signature of a step that commits. -/
def State.signaturesCommit (s : State) (job : W32) (step : W64) : State :=
  let mine := fun (g : SigRec) => g.job == job && g.step == step
  let l := s.asy.sigs.filter mine
  let t := { s with asy.sigs := s.asy.sigs.filter fun g => !mine g }
  l.foldl (fun t g => t.signatureJudge g (median64 ((l.filter fun x => x.layer == g.layer).map SigRec.var))) t

/-! ### Root mismatches (R191) -/

/-- The children of the nodes that a descent has found to differ, and this side's digests of them. -/
def Descent.kids (d : Descent) : List Nat := d.nodes.flatMap fun n => [2 * n, 2 * n + 1]
def Descent.own (d : Descent) : List Digest :=
  let l := treeNodes (d.level - 1) (d.leaves ++ List.replicate (2 ^ bitLength (d.leaves.length - 1) - d.leaves.length) 0)
  d.kids.map fun n => l.getD n 0

/-- This side's digests of a level go to the other holder (R191). -/
def State.descentSend (s : State) (d : Descent) : State :=
  if d.level = 0 then s else s.emit (.nodeDigests d.holder d.job d.step (d.level - 1) d.own)

/-- Start a descent with a holder: the working tree's leaves, from the top node. -/
def State.descentStart (s : State) (j : Job) (o : OpenStep) (holder : Nat) : State :=
  match j.strata.working with
  | none => s
  | some w =>
    let l := s.leaves j w
    let d : Descent := ⟨j.id, o.step, bitLength (l.length - 1), [0], l, holder⟩
    ({ s with asy.descents := s.asy.descents ++ [d] }).descentSend d

/-- Plane and index within it of a logical page. -/
def Job.pagePlane (j : Job) (page : Nat) : Nat × Nat :=
  let p := ((List.range (j.nPlanes + j.nAux)).filter fun q => j.pageBase q ≤ page).length - 1
  (p, page - j.pageBase p)

/-- The layer that a page's first element lies in. -/
def Job.pageLayer (j : Job) (page : Nat) : Option Nat :=
  let (p, i) := j.pagePlane page
  if j.nPlanes ≤ p then none
  else
    let e := if j.shape (0x10 + p) 1 = 0 then i * 2 ^ 18 else i * 2 ^ 19
    (List.range j.nLayers).find? fun l => (j.layer l).1 ≤ e && e < (j.layer l).1 + (j.layer l).2.1

/-- A descent has ended: counter, Degrade event and Wilost record (R191). -/
def State.descentEnd (s : State) (d : Descent) (pages : List Nat) : State :=
  s.onJob d.job fun j =>
    let one := fun (p : Nat) => cborMap ([(1, cborNat p), (2, cborNat (j.home p)), (3, cborNat (j.pagePlane p).1)] ++
      match j.pageLayer p with
      | some l => [(4, cborNat l)]
      | none => [])
    let homes := (pages.map j.home).eraseDups
    let w := s.wilostRec 3 d.job d.step 0 0
      ([(23, cborArray (pages.map one)), (24, cborArray [cborNat (s.position.toNat + s.sideNat * 2 ^ 15), cborNat d.holder])] ++
        match homes with
        | [k] => [(25, cborNat k)]
        | _ => [])
    ({ s with asy.descents := s.asy.descents.filter fun x => x != d }).evCount 1 .asyLocalisations d.job d.step [pages.length] j.slot (some w)

/-- The descent that a holder's digests belong to: its own, else the oldest whose other holder is not known. -/
def State.descentOf (s : State) (holder : Nat) : Option Descent :=
  (s.asy.descents.find? fun d => d.holder == holder) <|> s.asy.descents.find? fun d => d.holder == 0xFFFF

/-- A holder's digests of the children of the nodes that differ (R191). -/
def State.localise (s : State) (holder : Nat) (theirs : List Digest) : State :=
  match s.descentOf holder with
  | none => s
  | some old =>
    let d := { old with holder := holder }
    let put := fun (x : Descent) => { s with asy.descents := s.asy.descents.map fun y => if y == old then x else y }
    if d.level = 0 then (put d).descentEnd d d.nodes
    else
      let differ := ((d.kids.zip d.own).zipIdx.filter fun e => e.1.2 != theirs.getD e.2 0).map fun e => e.1.1
      if d.level = 1 || differ.isEmpty then (put d).descentEnd d ((differ.filter fun p => p < d.leaves.length).take 16)
      else
        let x := { d with level := d.level - 1, nodes := differ }
        (put x).descentSend x

end Sys2Proof.Machine
end

