-- ==== Sys2Proof/Machine/Steps.lean ====
section
/-! DEFINITION. Steps of a job (02_resilient_step.md): when a step opens and streams, what a completed rollback leads to, replay of
silt entries, and what is applied at a commit boundary. -/
namespace Sys2Proof.Machine

/-! ### Opening a step (R46, R47, R55, R149) -/

/-- Open a step on this side: site engines, directive and TAG_OPEN (R149, R178, R223). DESIGN CHOICE: a step opened before the one before it
has committed takes as loss_scale_in the committed loss scale of that moment, also where the step before has turned out a skip and its backoff
commits only later (R43; log entry 41). -/
def State.openStep (s : State) (id : W32) (n : W64) : State :=
  s.onJob id fun j =>
    let phase : StepPhase := if n.toNat ≤ j.committed.toNat + 1 then .open else .speculative
    let retries := if j.retried.1 = n then j.retried.2 else 0
    let scale := (j.strata.committed.scalar 448).setWidth 32
    let o := OpenStep.opened n phase scale retries
    let s := s.modJob id fun j => { j with open_ := j.open_ ++ [o], streaming := n }
    let s := s.directiveSend id n
    let s := j.sites.foldl (fun t k => t.engineOpen k id n) s
    s.sitesSend (j.sites.filter s.siteReach) 0x11 n id []

/-- The step that would open next. -/
def Job.nextStep (j : Job) : W64 := ((j.open_.getLast?.map OpenStep.step).getD j.committed) + 1

/-- The first entry of some site's list is readable for a step (R46, R153). -/
def State.firstReadable (j : Job) (n : W64) : Bool :=
  j.sites.any fun k => ((schedList (j.schedFor n) k).head?).any fun e => j.layerReadable n e.layer

/-- Open the next step where R47 and R51 allow it. -/
def State.tryOpen (s : State) (id : W32) : State :=
  s.onJob id fun j =>
    let n := j.nextStep
    if j.phase == .running && s.works && j.teardownCmd.isNone && j.gates.isEmpty && j.after == .nothing && j.recov.replaying.isEmpty && j.open_.length < 2 &&
        n.toNat ≤ j.committed.toNat + 2 && (n == j.committed + 1 || State.firstReadable j n) && (j.open_.head?.all fun o => !o.replay) then
      s.openStep id n
    else s

/-! ### Rollback over (R41, R51) -/

/-- Hold a job for reasons. -/
def State.holdJob (s : State) (id : W32) (reasons : W32) : State :=
  (s.modJob id fun j => { j with phase := .held, after := .nothing, recov.reasons := j.recov.reasons ||| reasons }).jobEvent id 1

/-- Every acknowledgement of a job's rollbacks has been received: its tags may reopen, and what was to follow follows. -/
def State.gatesDone (s : State) (id : W32) : State :=
  s.onJob id fun j0 =>
    let j := j0.gatesTrim
    if !j.gates.isEmpty then s.setJob j
    else
      let s := s.setJob j
      let s := { s with asy.descents := s.asy.descents.filter fun d => d.job != id }
      match j.after with
      | .hold r => s.holdJob id r
      | .nothing => s.tryOpen id
      | .recompute | .restream => (s.modJob id fun j => { j with after := .nothing }).tryOpen id

/-- Roll back steps and go on at once where nothing is awaited. -/
def State.rollbackThen (s : State) (id : W32) (steps : List W64) (reason : Nat) (after : AfterGate) : State :=
  ((s.rollback id steps reason).modJob id fun j => { j with after := after }).gatesDone id

/-- Roll back the newer open step alone, where one is open (R42, R43, R163). -/
def State.rollbackNewer (s : State) (id : W32) : State :=
  s.onJob id fun j =>
    match j.open_ with
    | _ :: n :: _ => s.rollbackThen id [n.step] 2 .restream
    | _ => s

/-! ### Replay (R81, R199, R201, R353) -/

/-- A replay cannot stand: the job is HELD at the step before (R81). -/
def State.replayMismatch (s : State) (id : W32) (a b : Digest) : State :=
  s.onJob id fun j =>
    let w := fun (d : Digest) (i : Nat) => d.toNat / 2 ^ (64 * i) % 2 ^ 64
    let s := s.evReason 1 .str 4 id j.eventIdent ((List.range 4).map (w a) ++ (List.range 3).map (w b))
    let s := (s.revert id).modJob id fun j => { j with open_ := [], recov.replaying := [] }
    s.holdJob id (BitVec.ofNat 32 (2 ^ holdReplayMismatch))

/-- Begin the replay of an entry: the committed root must be root_in. The tags of its header and of its record are verified: replay through a
damaged entry is refused, and a record whose tag fails makes the step inconsistent (R84, R453). -/
def State.replayBegin (s : State) (id : W32) (k : W64) : State :=
  (s.siltRead id k).onJob id fun j =>
    let s := s.siltRead id k
    match j.silt.find? fun e => e.step == k with
    | none => s.holdJob id (BitVec.ofNat 32 (2 ^ holdReplayMismatch))
    | some e =>
      if e.damaged then s.holdJob id (BitVec.ofNat 32 (2 ^ holdReplayMismatch))
      else if j.chain.any fun r => fieldLE r 8 8 == k.toNat && !s.recordTagOk r then
        (s.tagFailed id k).holdJob id (BitVec.ofNat 32 (2 ^ holdInconsistent))
      else if j.strata.committed.root != e.rootIn then s.replayMismatch id j.strata.committed.root e.rootIn
      else
        let o : OpenStep := { OpenStep.opened k .confirming e.lossScaleIn 0 with
          replay := true, skip := e.skip, clipRerun := e.clipRerun, clipFactor := e.clipFactor, silt := some e, voted := some true
          voteBack := true, closedLayers := if e.skip then [] else List.range j.nLayers }
        (s.setJob { j with open_ := [o] }).openWorking id k

/-- The replay of the next entry waits until its window has closed clean job-wide: each member gives k, or k − 1 where it holds a
finding, into an ADVANCE instance (R201, log entry 23). -/
def State.replayVote (s : State) (id : W32) : State :=
  s.onJob id fun j =>
    match j.recov.replaying, j.open_ with
    | k :: _, [] =>
      if j.recov.running == 0x10A then s
      else
      let f := Tbl.get s.asy.findings 0 j.slot
      if f != 0 && f.toNat ≤ k.toNat then s.collStart id .advance k 0 0 [.min (k - 1)]
      else if s.stepClean j k then s.collStart id .advance k 0 0 [.min k]
      else s
    | _, _ => s

/-- The commanded rollback is over: its command completes, and a job that runs streams from the recompute step (R353). The rollback and
its duration in µs are reported by an event (R32, log entry 38). -/
def State.rollbackOver (s : State) (id : W32) : State :=
  s.onJob id fun j =>
    let held := j.phase == .recovering
    let s := s.setJob { j with phase := if held then .held else j.phase
                               recov := { j.recov with outcome := 7, running := 0, replaying := [] } }
    let s := s.evReason 0 .str 0xFFFF id j.eventIdent [j.recov.recompute.toNat, (s.now - j.recov.rolledAt) / 1000]
    let s := (s.jobEvent id 0).finish j.recov.command 0x0207
    s.tryOpen id

/-- The next entry of the replay, or its end. -/
def State.replayNext (s : State) (id : W32) : State :=
  s.onJob id fun j => if j.recov.replaying.isEmpty then s.rollbackOver id else s.replayVote id

/-- What the assay holds of steps that no longer exist goes; queued samples count as unchecked (R199). -/
def State.asyForget (s : State) (j : Job) (r : W64) : State :=
  let gone := fun (n : W64) => r.toNat ≤ n.toNat
  let l := s.asy.samples.filter fun x => x.job == j.id && gone x.step
  let s := l.foldl (fun t x => t.bump .asySamplesUnchecked x.spoke) s
  let f := Tbl.get s.asy.findings 0 j.slot
  { s with asy.samples := s.asy.samples.filter fun x => !(x.job == j.id && gone x.step)
           asy.verdicts := s.asy.verdicts.filter fun v => !(v.job == j.id && gone v.step)
           asy.partnerDone := s.asy.partnerDone.filter fun v => !(v.1 == j.id && gone v.2)
           asy.lastSent := s.asy.lastSent.filter fun v => !(v.1 == j.id && gone v.2)
           asy.reported := s.asy.reported.filter fun v => !(v.job == j.id && gone v.step)
           asy.findings := if gone f then Tbl.erase s.asy.findings j.slot else s.asy.findings
           asy.clean := Tbl.erase s.asy.clean j.slot }

/-- Steps from `r` on no longer exist: their silt entries, records, tables, samples and verdicts go (R199, R201). -/
def State.stepsForget (s : State) (id : W32) (r : W64) : State :=
  s.onJob id fun j => (s.asyForget j r).modJob id fun j => { j with
    silt := j.silt.filter fun e => e.step.toNat < r.toNat
    siltDigests := j.siltDigests.filter fun e => e.1.toNat < r.toNat
    chain := j.chain.filter fun b => fieldLE b 8 8 < r.toNat
    partnerChain := j.partnerChain.filter fun b => fieldLE b 8 8 < r.toNat
    tables := j.tables.filter fun e => e.1.toNat < r.toNat
    inVote := none }

/-- ROLLBACK(t) and the replay of entries t + 1 to r − 1 (R199, R201, R346, R353). -/
def State.rollbackApply (s : State) (id : W32) (t r : W64) (cmd : W64) : State :=
  s.onJob id fun j =>
    let direct := (j.strata.find t).isSome
    let t' := if direct then t else j.assayed
    let s := s.flipped id fun x => x.rollbackTo t'
    let s := (s.stepsForget id r).modJob id fun j => { j with
      recov := { j.recov with recompute := r, command := cmd, rolledAt := s.now
                              replaying := (List.range (r.toNat - 1 - t'.toNat)).map fun i => t' + 1 + BitVec.ofNat 64 i } }
    s.replayNext id

/-! ### Commit boundaries (R54, R77, R163, R353, R365) -/

/-- A new layer schedule table is applied at the boundary after step n: in immediate mode tag n + 1 is rolled back and restreams under it
(R163). -/
def State.scheduleApply (s : State) (id : W32) : State :=
  s.onJob id fun j =>
    match j.newSched with
    | none => s
    | some (t, immediate, b, cmd) =>
      let j' := { j with newSched := none }
      if j.committed.toNat < b.toNat then s
      else if immediate then
        let s := (s.setJob { j' with sched := t, deferred := none }).raise .stmIntStatus 1
        let s := if (j.step? (j.committed + 1)).isSome then s.rollbackThen id [j.committed + 1] 2 .restream else s
        s.finish cmd 0 0 (j.committed + 1)
      else (s.setJob { j' with deferred := some (t, j.committed + 2, cmd) }).finish cmd 0 0 (j.committed + 2)

/-- New kernel parameters hold from the next step on. -/
def State.paramsApply (s : State) (id : W32) : State :=
  s.onJob id fun j =>
    match j.newParams with
    | none => s
    | some (p, b, cmd) =>
      if j.committed.toNat < b.toNat then s
      else (s.setJob { j with params := p, newParams := none }).finish cmd 0 0 (j.committed + 1)

/-- A peloton table that replaces one of the job's takes effect (R299). -/
def State.pelApply (s : State) (id : W32) : State :=
  s.onJob id fun j =>
    let due := j.newPel.filter fun e => e.2.2.1.toNat ≤ j.committed.toNat
    let s := s.setJob { j with newPel := j.newPel.filter fun e => j.committed.toNat < e.2.2.1.toNat }
    due.foldl (fun t e => ({ t with tor.peloton := Tbl.set t.tor.peloton e.1 e.2.1 }).finish e.2.2.2 0) s

/-- A deferred table becomes the job's table at the boundary before its first step (R163). -/
def State.settleSched (s : State) (id : W32) : State :=
  s.onJob id fun j =>
    match j.deferred with
    | some (t, from_, _) =>
      if from_.toNat ≤ j.committed.toNat + 1 then (s.setJob { j with sched := t, deferred := none }).raise .stmIntStatus 1 else s
    | none => s

/-- The PIN copy of a bedrock begins at its boundary (R77, R385). -/
def State.pinBegin (s : State) (id : W32) : State :=
  s.modJob id fun j =>
    if (j.bed.any fun b => b.step.isNone && b.boundary.toNat ≤ j.committed.toNat) && j.strata.pin.isNone && j.strata.pinCopy.isNone then
      { j with strata := j.strata.pinBegin }
    else j

/-- What is due at the commit boundary after step `n`: parameters, table, rollback, pin (R54, R365). -/
def State.boundary (s : State) (id : W32) (n : W64) : State :=
  let s := s.settleSched id
  let s := (((s.paramsApply id).scheduleApply id).pelApply id).pinBegin id
  s.onJob id fun j =>
    match j.newRollback with
    | some (t, r, b, cmd) =>
      if b.toNat ≤ n.toNat then
        let steps := j.open_.map OpenStep.step
        let s := s.setJob { j with newRollback := none }
        let s := if steps.isEmpty then s else (s.rollback id steps 1).modJob id Job.gatesTrim
        s.rollbackApply id t r cmd
      else s
    | none => s

end Sys2Proof.Machine
end

