-- ==== Sys2Proof/Machine/Confirm.lean ====
section
/-! DEFINITION. Confirmation and commitment of a step (02_resilient_step.md): working root, the five checks, the vote, clip reruns and
skip steps, step records, the commit flip. -/
namespace Sys2Proof.Machine

/-! ### Helpers -/

/-- Change the open step with a number. -/
def State.modStep (s : State) (id : W32) (n : W64) (f : OpenStep → OpenStep) : State :=
  s.modJob id fun j => { j with open_ := j.open_.map fun o => if o.step == n then f o else o }

/-- Put bytes into a list at an offset. -/
def putBytes (l : List Byte) (off : Nat) (b : List Byte) : List Byte := l.take off ++ b ++ l.drop (off + b.length)

/-- This side's record of a step. -/
def Job.record? (j : Job) (n : W64) : Option (List Byte) := j.chain.find? fun r => fieldLE r 8 8 == n.toNat

/-- Global gradient norm of a scalar result, binary64 (R42). -/
def OpenStep.norm (o : OpenStep) : Nat := ((o.scalar.map fun x => sqrt64 x.1.toNat).getD 0)

/-- The applied clip factor c = min(1, C ÷ G) in binary32; 1.0 where G is 0 (R42). -/
def clipFactorOf (threshold norm : Nat) : Nat :=
  if valIsZero (fpDecode fmtB64 norm) then 0x3F800000
  else
    let q := fpDiv fmtB32 (fpDecode fmtB32 threshold) (fpDecode fmtB64 norm)
    if 0x3F800000 < q then 0x3F800000 else q

/-- Loss scale and growth count after a step (R43, R44, R415); a replayed step takes its loss scale from its record. -/
def Job.lossAfter (j : Job) (o : OpenStep) : W32 × W64 :=
  let prev := (j.strata.committed.scalar 448).setWidth 32
  let cnt := j.strata.committed.scalar 449
  let interval := j.run 0x20 4
  let full := interval != 0 && interval ≤ cnt.toNat + 1
  if o.replay then
    let r := (j.record? o.step).getD []
    let zero := !j.dynScale || (fieldLE r 0x12 2).testBit 0 || (fieldLE r 0x12 2).testBit 1 || full
    (BitVec.ofNat 32 (fieldLE r 0xAC 4), if zero then 0 else cnt + 1)
  else if !j.dynScale then (prev, 0)
  else if o.skip || o.scalar.any fun x => x.2.2 then (BitVec.ofNat 32 (mul32 prev.toNat (j.run 0x18 4)), 0)
  else if full then (BitVec.ofNat 32 (mul32 prev.toNat (j.run 0x1C 4)), 0)
  else (prev, cnt + 1)

/-! ### Buddy mirroring (R308, R309) -/

/-- The transfer identifier of a mirrored payload page; bit 59 says that the entry's header travels with it (log entry 17). -/
def mirrorId (page : Nat) (header : Bool) (step : W64) : W64 :=
  BitVec.ofNat 64 (3 * 2 ^ 60 + (if header then 2 ^ 59 else 0) + page * 2 ^ 28 + step.toNat % 2 ^ 28)

/-- The payload pages that this side mirrors: its half, or all while its partner is declared failed. -/
def State.mirrorPages (s : State) (j : Job) : List Nat :=
  (List.range j.siltPages).filter fun p => s.pair.partnerFailed || p % 2 == s.sideNat

/-- Mirror the open entry of a step to the buddy side. -/
def State.mirrorSend (s : State) (id : W32) (n : W64) : State :=
  s.onJob id fun j =>
    match j.step? n, s.buddyOf j with
    | some o, some d =>
      if s.coverKind j != 2 || o.replay then s
      else
        let e := o.silt.getD (j.openSilt o)
        let head := e.header j
        let pages := if o.skip then [] else s.mirrorPages j
        let items := match pages with
          | [] => [(mirrorId 0 true n, head)]
          | p :: r => (mirrorId p true n, head ++ s.frameBytes (mapFrame e.pages p)) ::
              r.map fun q => (mirrorId q false n, s.frameBytes (mapFrame e.pages q))
        let t := s.modStep id n fun o => { o with landings := items.map Prod.fst }
        items.foldl (fun t x => t.sendTransfer x.1 d 3 id (some (n.setWidth 8)) x.2) t
    | _, _ => s

/-! ### Working root (R73) -/

/-- The last page of the step is written: the scalar block takes the controller's words, and the working root is final. It goes to
the partner, and into ROOTS where the job has replicas (R36, R303, R358); a replayed step is compared with its record (R81). -/
def State.rootFinal (s : State) (id : W32) : State :=
  s.onJob id fun j =>
    match j.open_.head? with
    | none => s
    | some o =>
      let updated := o.skip || o.ready.length = j.nLayers
      if o.ownRoot.isSome || !updated || !(o.replay || o.scalar.isSome) || o.kernelFault then s
      else
        let (scale, cnt) := j.lossAfter o
        let w0 := (j.strata.working.getD { j.strata.committed with step := o.step })
        let w1 := { w0 with scalars := Tbl.set (Tbl.set w0.scalars 448 (scale.setWidth 64)) 449 cnt }
        let leaf := (s.leaves j w1).zipIdx.map fun e => (e.2, e.1)
        let w2 := { w1 with leaf := leaf }
        let w := { w2 with root := s.rootOf j w2 }
        let j' := (j.setStep { o with ownRoot := some w.root, silt := some (o.silt.getD (j.openSilt o)) })
        let t := s.setJob { j' with strata := { j.strata with working := some w } }
        if o.replay then
          let want := BitVec.ofNat 256 (fieldLE ((j.record? o.step).getD []) 0x20 32)
          if want != w.root then t.replayMismatch id w.root want
          else if j.recov.running == 0x10A then
            (t.flipped id fun x => { x with working := none, committed := w }).modJob id fun j => { j with open_ := [] }
          else t.modStep id o.step fun o => { o with commit := .lag }
        else
          let t := t.pairSend 0x46 o.step id (digestBytes w.root)
          let t := if s.coverKind j = 1 then t.collStart id .roots o.step 0 0 [.root w.root 0] else t
          t.mirrorSend id o.step

/-- The partner's root (R36, R358). -/
def State.rootRx (s : State) (m : CtlMsg) : State :=
  s.modStep m.jobId m.ident fun o => { o with partnerRoot := some (BitVec.ofNat 256 (fieldLE m.bytes 0 32)) }

/-! ### Checks and vote (R36, R37, R41) -/

/-- Every link replay has completed on the ports that carry the job's steps (R36). -/
def State.replaysDone (s : State) (j : Job) : Bool :=
  (j.sites ++ [8, 9, 10, 11, 12, 13, 14]).all fun p => !(s.port p).up || (!(s.port p).rxWait && (s.port p).resend.isEmpty)

/-- The step has everything that its checks need (R36), or what it lacks will not come: a contribution at the confirm timeout, a reduction
that did not complete (R35, R303). -/
def State.voteReady (s : State) (j : Job) (o : OpenStep) : Bool :=
  o.voted.isNone && !o.replay && (o.missing || o.phase == .confirming && (o.kernelFault || o.scalarLate ||
    (s.replaysDone j && o.scalar.isSome && o.ownRoot.isSome && (o.partnerRoot.isSome || s.pair.partnerFailed) &&
      (s.coverKind j != 1 || o.replicaDone) && !s.tapsPending j o && j.sites.all fun k => Tbl.has o.reports k)))

/-- Record the failure of a check (R36, R520). -/
def State.checkFailed (s : State) (src : Blk) (check : Nat) (j : Job) (o : OpenStep) (wil : Option (List Byte) := none) : State :=
  s.evReason 1 src 2 j.id o.step [check] wil

/-- This member in a holders list: its position with its side in bit 15. -/
def State.holderId (s : State) (side : Bool) : Nat := s.position.toNat + if side then 2 ^ 15 else 0

/-- The holder that a replica compare descends with: the plane's first member, whose root the result carries (R302); the first member itself
does not learn which member differs, and takes the one whose digests come (DESIGN CHOICE, log entry 49). -/
def State.replicaHolder (s : State) (j : Job) : Nat :=
  match (s.pel (j.collSlot .roots)).bind fun t => (t.plane s.sideB).head? with
  | some p => if p = s.position then 0xFFFF else p.toNat + if s.sideB then 2 ^ 15 else 0
  | none => 0xFFFF

/-- Run the five checks and contribute to the commit vote with clean_through (R36, R196, R303). A member names itself where its own root
differs from the replica result, and its partner where that one's does (R36, R303, R373); agreeing members know no names. -/
def State.voteCast (s : State) (id : W32) : State :=
  s.onJob id fun j =>
    match j.open_.head? with
    | none => s
    | some o =>
      if !s.voteReady j o then s
      else
        let whole := !(o.missing || o.kernelFault || o.scalarLate)
        let abft := !o.abftFail && (!whole || s.tapsAll j o)
        let ab := s.pair.partnerFailed || o.partnerRoot.isNone || o.ownRoot.isNone || o.partnerRoot == o.ownRoot
        let scalar := o.missing || o.scalar.isSome && !o.scalarFail && !o.scalarLate && !o.kernelFault
        let differs := fun (r : Option Digest) => r.isSome && o.replicaRoot.isSome && r != o.replicaRoot
        let wil := fun (side : Bool) => s.wilostRec 3 id o.step 0 0 [(24, cborArray [cborNat (s.holderId side)])]
        let self := if differs o.ownRoot then some (wil s.sideB) else none
        let t := if whole then s.tapsMissing j o else s
        let t := if o.missing then t.evReason 1 .upd 0xFFFF id o.step [] else t
        let t := if abft then t else t.checkFailed .asy 1 j o
        let t := if o.linkFail then t.checkFailed .spk 2 j o else t
        let t := if ab then t else t.checkFailed .pair 3 j o (self <|> if differs o.partnerRoot then some (wil (!s.sideB)) else none)
        let t := if o.replicaFail then t.checkFailed .tor 4 j o self else t
        let t := if scalar then t else t.checkFailed .upd 5 j o
        let ok := whole && abft && !o.linkFail && ab && !o.replicaFail && scalar && !o.pairDiffer
        let v := t.cleanThrough j o.step
        let t := t.modStep id o.step fun o => { o with voted := some ok, abftFail := !abft }
        let t := { t with asy.clean := Tbl.set t.asy.clean j.slot v }
        let t := t.collStart id .vote o.step 0 0 [.and (if ok then 1 else 0), .min v]
        let t := if ab then t else t.descentStart j o (t.holderId (!t.sideB))
        if o.replicaFail then t.descentStart j o (t.replicaHolder j) else t

/-! ### Results of the step's collectives (R42 to R44, R134, R196, R303) -/

/-- Discard what the update of a step has written; it is to be run again from the committed stratum (R42, R43). -/
def State.updateUndo (s : State) (id : W32) (n : W64) : State :=
  let s := { s with tor.colls := s.tor.colls.filter fun (c : Coll) =>
    !(c.key.job == id && c.key.op == CollOp.layerSlots && c.key.ident == n) }
  ((((s.updDrop id [n]).sourceRevert id [n]).revert id).openWorking id n).modJob id fun j =>
    { j with open_ := j.open_.map fun (o : OpenStep) => if o.step == n then { o with ready := [], slot0 := [] } else o }

/-- The scalar all-reduce has returned (R42 to R44). A skip step's layers are readable again at once, from its unchanged pages (R153). -/
def State.scalarResult (s : State) (id : W32) (n : W64) (items : List CollItem) : State :=
  s.onJob id fun j =>
    match j.step? n, items with
    | some o, .slot _ ssq bad _ _ _ :: r =>
      let flag := match r with
        | .or v :: _ => v.getLsbD 0
        | _ => false
      let o := { o with scalar := some (ssq, bad, flag) }
      let s := (s.setJob (j.setStep o)).heldTapsJudge id n bad
      if bad != 0 then
        if j.dynScale then
          let e := (o.silt.getD (j.openSilt o))
          let t := s.modStep id n fun x => { x with skip := true, silt := some { e with skip := true, pages := [] } }
          let t := (t.updateUndo id n).modStep id n fun x => { x with ready := List.range j.nLayers }
          t.rollbackNewer id
        else s.modStep id n fun x => { x with scalarFail := true }
      else if j.clipEn then
        let c := clipFactorOf (j.run 0x10 4) o.norm
        if c = 0x3F800000 then s
        else
          let e := (o.silt.getD (j.openSilt o))
          let f := BitVec.ofNat 32 c
          let t := s.modStep id n fun x => { x with clipRerun := true, clipFactor := f, silt := some { e with clipRerun := true, clipFactor := f } }
          (t.updateUndo id n).rollbackNewer id
      else s
    | _, _ => s

/-- The replica compare has returned (R36, R303). -/
def State.rootsResult (s : State) (id : W32) (n : W64) (items : List CollItem) : State :=
  s.modStep id n fun o => match items with
    | .root r m :: _ => { o with replicaDone := true, replicaRoot := some r, replicaFail := m != 0 || o.ownRoot != some r }
    | _ => o

/-- Job-scope slots of a phase have returned: RDGET may read them (R134). -/
def State.layerSlotsResult (s : State) (key : CollKey) (items : List CollItem) : State :=
  match s.upd.run with
  | some d =>
    if d.job == key.job && d.step == key.ident && d.layer == key.layer.toNat && d.waiting then
      let put := fun (m : Tbl (List W64)) (i : CollItem) => match i with
        | .slot k _ _ _ _ _ => Tbl.set m k.toNat i.fields
        | _ => m
      let s := s.modJob key.job fun j => { j with slotsBack := (j.slotsBack.filter fun e =>
        !(e.1 == key.ident && e.2.1 == key.layer && e.2.2.1 == key.phase)) ++ [(key.ident, key.layer, key.phase, items)] }
      { s with upd.run := some { d with merged := items.foldl put d.merged, waiting := false } }
    else s
  | none => s

/-- Escrow items of a job up to its assayed step go, and the silt entries that it no longer needs (R80, R336). -/
def State.advanceFree (s : State) (id : W32) : State :=
  s.modJob id fun j => { j with
    silt := freeSilt (s.coverKind j == 2) j.assayed j.silt
    siltDigests := j.siltDigests.filter fun e => j.assayed.toNat ≤ e.1.toNat }

/-- ADVANCE(m), where m lies above the assayed step (R76, R196). -/
def State.advanceFlip (s : State) (id : W32) (m : W64) : State :=
  s.onJob id fun j =>
    if m.toNat ≤ j.assayed.toNat || (j.strata.find m).isNone then s
    else ((s.flipped id fun t => t.advance m).advanceFree id)

/-- The job-wide minimum of an ADVANCE instance: applied while the commit waits, or the go-ahead of a replay (R196, R201). -/
def State.advanceResult (s : State) (id : W32) (k : W64) (items : List CollItem) : State :=
  let key : CollKey := ⟨id, .advance, k, 0, 0⟩
  let s := { s with tor.colls := s.tor.colls.filter fun (c : Coll) => c.key != key }
  s.onJob id fun j =>
    match items with
    | .min m :: _ =>
      (match j.recov.replaying with
      | r :: rest =>
        if r != k then s
        else if k.toNat ≤ m.toNat then (s.setJob { j with recov.replaying := rest }).replayBegin id k
        -- a finding against k: the replay ends at k − 1, and steps from k on are recomputed (R201)
        else ((s.setJob { j with recov := { j.recov with recompute := k, replaying := [] } }).stepsForget id k).rollbackOver id
      | [] => (s.advanceFlip id m).advanceVote id)
    | _ => s

/-! ### The commit sequence (R39, R40, R57 to R59, R70, R309, R336) -/

/-- The step record of a step about to commit, tagged. -/
def State.recordMake (s : State) (j : Job) (o : OpenStep) (w : Stratum) : List Byte :=
  let single := if s.pair.partnerFailed then 32 else 0
  if o.replay then
    let old := (j.record? o.step).getD (List.replicate 256 0)
    let flags := fieldLE old 0x12 2 % 32 / 16 * 16 + fieldLE old 0x12 2 % 8 + 8 + single
    s.tagRecord (putBytes (putBytes (old.take 0xE0) 0x12 (leBytes 2 flags)) 0x40 (digestBytes (j.prevDigest o.step)))
  else
    let loss := (j.lossAfter o).1
    let changed := loss != (j.strata.committed.scalar 448).setWidth 32
    let flags := (if o.skip then 1 else 0) + (if changed then 2 else 0) + (if o.clipRerun then 4 else 0) +
      (if s.coverKind j = 0 then 16 else 0) + single
    s.tagRecord (s.recordBody j o w flags (BitVec.ofNat 64 o.norm) ((o.scalar.map fun x => x.2.1).getD 0) loss)

/-- The escrow item: the record and the STEP_REPORT bodies in site order (R336). -/
def escrowItem (record : List Byte) (reports : Tbl (List Byte)) : List Byte := record.take 0xE0 ++ reports.flatMap Prod.snd

/-- The transfer identifier of an escrow item (log entry 17). -/
def escrowId (n : W64) : W64 := BitVec.ofNat 64 (7 * 2 ^ 60 + n.toNat % 2 ^ 32)

/-- The vote has returned yes: the commit sequence begins (R39). -/
def State.commitBegin (s : State) (id : W32) : State :=
  s.onJob id fun j =>
    match j.open_.head? with
    | some o => s.setJob (j.setStep { o with commit := .copies })
    | none => s

/-- Close the silt entry, build the record and send the escrow item (R79, R309, R336). -/
def State.commitBuild (s : State) (id : W32) (n : W64) : State :=
  s.onJob id fun j =>
    match j.step? n with
    | none => s
    | some o =>
      let w := j.strata.working.getD { j.strata.committed with step := n }
      let e := s.closeSilt j { (o.silt.getD (j.openSilt o)) with skip := o.skip, mirrored := s.coverKind j == 2 }
      let r := s.recordMake j o w
      let o := { o with silt := some e, record := some r }
      let j := ({ (j.setStep o) with silt := (j.silt.filter fun (x : SiltEntry) => x.step != n) ++ [e] } : Job).keepDigest e
      let s := s.setJob j
      match s.escrowPeer j with
      | some d =>
        let t := s.modStep id n fun o => { o with landings := [escrowId n] }
        t.sendTransfer (escrowId n) d 7 id (some (n.setWidth 8)) (escrowItem r o.reports)
      | none => s

/-- The commit flip and what follows it at the boundary (R39 step 5, R49, R54, R76, R196, R334). A skip, a clip rerun, and the loss-scale flag
of a job without dynamic loss scaling are reported with the commit (R44, R45; log entry 38). -/
def State.commitFlip (s : State) (id : W32) (n : W64) : State :=
  s.onJob id fun j =>
    match j.step? n with
    | none => s
    | some o =>
      let w := { (j.strata.working.getD { j.strata.committed with step := n }) with step := n }
      let adv := o.advanceTo
      let s := s.flipped id fun t =>
        let t := t.commit w
        if t.assayed.step.toNat < adv.toNat then t.advance adv else t
      let s := (s.advanceFree id).modJob id fun j => { j with
        partnerChain := (j.partnerChain.filter fun r => j.assayed.toNat ≤ fieldLE r 8 8 && fieldLE r 8 8 != n.toNat) ++ o.partnerRecord.toList
        tables := if o.replay then j.tables else (j.tables.filter fun e => e.1 != n) ++ [(n, o.reports)]
        allocStall := false
        skips := if o.skip && !o.replay then j.skips + 1 else j.skips
        clips := if o.clipRerun && !o.replay then j.clips + 1 else j.clips
        escrowMissing := o.escrowMissing
        open_ := (j.open_.filter fun x => x.step != n).map fun (x : OpenStep) =>
          if x.step == n + 1 && x.phase == .speculative then { x with phase := .open } else x }
      let s := { s with tor.colls := s.tor.colls.filter fun (c : Coll) =>
        !(c.key.job == id && c.key.op != CollOp.barrier && c.key.op != CollOp.advance && c.key.ident == n) }
      if o.replay then s.replayNext id
      else
        let flag := !j.dynScale && o.scalar.any fun x => x.2.2
        let s := if o.skip || o.clipRerun || flag then
            s.evReason 0 .str 0xFFFF id n [if o.skip then 1 else 0, if o.clipRerun then 1 else 0, if flag then 1 else 0]
          else s
        let s := if j.phase == .running then s.sitesSend (j.sites.filter s.siteReach) 0x13 n id [] else s
        let s := ((s.findingsCommit id n).signaturesCommit id n).verdictsLast id
        let s := s.onJob id fun j => s.windowLate j n
        let s := s.holdRelease id
        let s := s.boundary id n
        s.onJob id fun j => match j.after with
          | .hold _ => s.abortNow id
          | _ => s.tryOpen id

/-- The two sides' records of a step differ: neither side flips (R59, R373). -/
def State.recordsDiffer (s : State) (id : W32) (n : W64) : State :=
  let s := s.evReason 1 .pair 6 id n []
  let s := s.modJob id fun j => { j with
    chain := j.chain.filter fun r => fieldLE r 8 8 != n.toNat
    after := .nothing
    open_ := j.open_.map fun (o : OpenStep) => if o.step == n then { o with commit := .none, record := none, partnerRecord := none,
                                                                            recordAcked := false, voted := some true, voteBack := false } else o }
  -- records built anew under JOB_RESUME that differ again leave the step in IN_VOTE, and the resume fails
  let s := s.modJob id fun j => if j.phase == .recovering && (j.recov.running == 0x209 || j.recov.running == 0x20A) then
      { j with inVote := j.step? n, open_ := j.open_.filter fun o => o.step != n, recov.bad := 1 }
    else j
  s.jobAbort id holdInconsistent

/-- Acknowledge the partner's record once the own record is written (R39 step 4, R358). -/
def State.recordAck (s : State) (id : W32) (n : W64) : State := s.pairAck 0x47 n id 0

/-- One act of the commit sequence of the oldest open step, where it is due. -/
def State.commitOne (s : State) (id : W32) : Option State :=
  match s.job? id with
  | none => none
  | some j =>
    match j.open_.head? with
    | none => none
    | some o =>
      match o.commit with
      | .none => none
      | .copies =>
        if !o.landings.isEmpty then none
        else if o.record.isNone then some (s.commitBuild id o.step)
        else some (s.modStep id o.step fun o => { o with commit := .lag })
      | .lag =>
        let top := max j.assayed.toNat o.advanceTo.toNat
        if j.strata.pinCopy.isSome then none
        else if j.lag < o.step.toNat - top then
          if o.lagTold then none
          else some (((s.modStep id o.step fun o => { o with lagTold := true }).raise .strIntStatus 1).evReason 1 .str 3 id o.step [] |>.advanceVote id)
        else
          let w := j.strata.working.getD { j.strata.committed with step := o.step }
          let r := o.record.getD (s.recordMake j o w)
          let t := s.modJob id fun j => { j with chain := (j.chain.filter fun x => fieldLE x 8 8 != o.step.toNat) ++ [r] }
          let t := t.modStep id o.step fun o => { o with record := some r, commit := .exchange }
          let t := t.pairSend 0x47 o.step id r
          some (if o.partnerRecord.isSome then t.recordAck id o.step else t)
      | .exchange =>
        if s.pair.partnerFailed then
          let r := o.record.getD []
          let fl := fieldLE r 0x12 2
          let r' := if fl.testBit 5 then r else s.tagRecord (putBytes (r.take 0xE0) 0x12 (leBytes 2 (fl + 32)))
          let t := s.modJob id fun j => { j with chain := j.chain.map fun x => if fieldLE x 8 8 = o.step.toNat then r' else x }
          some (t.commitFlip id o.step)
        else match o.partnerRecord, o.recordAcked with
          | some p, true => some (if recordsAgree (o.record.getD []) p then s.commitFlip id o.step else s.recordsDiffer id o.step)
          | _, _ => none

/-- Everything of the commit sequence that is due. -/
def State.commitGo (s : State) (id : W32) : State := go 6 s
where
  go : Nat → State → State
  | 0, s => s
  | n + 1, s => match s.commitOne id with
    | some t => go n t
    | none => s

/-- The partner's step record (R39, R358): it is acknowledged once the own record of the step is written. -/
def State.recordRx (s : State) (m : CtlMsg) : State :=
  s.onJob m.jobId fun j =>
    let r := m.bytes.take 256
    match j.step? m.ident with
    | some o =>
      let t := s.modStep j.id m.ident fun o => { o with partnerRecord := some r }
      if o.commit = .exchange then t.recordAck j.id m.ident else t
    | none =>
      if j.inVote.any fun o => o.step == m.ident then
        s.setJob { j with inVote := j.inVote.map fun o => { o with partnerRecord := some r } }
      else if (j.record? m.ident).isSome then s.recordAck j.id m.ident
      else s

/-- The vote has returned (R37, R39, R41, R141). -/
def State.voteResult (s : State) (id : W32) (n : W64) (items : List CollItem) : State :=
  s.onJob id fun j =>
    match j.step? n, items with
    | some o, .and v :: r =>
      let m := match r with
        | .min x :: _ => x
        | _ => 0
      let s := { s with tor.colls := s.tor.colls.filter fun (c : Coll) => !(c.key.job == id && c.key.op == CollOp.advance) }
      let s := s.modStep id n fun o => { o with voteBack := true, advanceTo := m, confirmTime := timeBytes s.outTime }
      if v.getLsbD 0 then (s.commitBegin id).commitGo id
      else
        let steps := j.open_.map OpenStep.step
        if o.kernelFault then s.rollbackThen id steps 1 (.hold (BitVec.ofNat 32 (2 ^ holdKernelFault)))
        else if o.retries < j.retryLimit then
          (s.modJob id fun j => { j with retried := (n, o.retries + 1) }).rollbackThen id steps 1 .recompute
        else s.rollbackThen id steps 1 (.hold (BitVec.ofNat 32 (2 ^ holdRetryExhausted)))
    | _, _ => s

/-! ### Timeouts and the pin (R38, R77) -/

/-- The vote of the oldest open step has not completed within the confirm timeout: a step that lacks a contribution fails confirmation with a
vote of no (R35), and otherwise the job is aborted (R38). -/
def State.confirmTimeout (s : State) (id : W32) : State :=
  s.onJob id fun j =>
    match j.open_.head? with
    | some o =>
      if o.voteBack || o.replay || j.phase != .running then s
      else if o.phase == .open && o.voted.isNone then (s.modStep id o.step fun o => { o with missing := true }).voteCast id
      else (s.evReason 3 .str 0xFFFF id o.step []).jobAbort id holdConfirmTimeout
    | none => s

/-- The escrow acknowledgement has not arrived in time (R337). -/
def State.escrowTimeout (s : State) (id : W32) : State :=
  s.onJob id fun j =>
    match j.open_.head? with
    | some o =>
      if o.commit = .copies && o.landings.contains (escrowId o.step) then
        let t := s.modStep id o.step fun o => { o with landings := o.landings.filter fun x => x != escrowId o.step, escrowMissing := true }
        ((t.modJob id fun j => { j with escrowMissing := true }).evReason 1 .str 8 id o.step []).commitGo id
      else s
    | none => s

/-- A landing that the commit of a step awaits has been acknowledged. -/
def State.commitLanded (s : State) (id : W32) (x : W64) : State :=
  (s.modJob id fun j => { j with open_ := j.open_.map fun (o : OpenStep) => { o with landings := o.landings.filter fun y => y != x } }).commitGo id

/-- The PIN copy is complete: the PIN flip (R76, R77). -/
def State.pinDone (s : State) (id : W32) : State :=
  s.onJob id fun j =>
    match j.strata.pinCopy with
    | none => s
    | some t =>
      let s := s.flipped id fun x => { x with pin := some t, pinCopy := none }
      let s := s.modJob id fun j => { j with bed := j.bed.map fun (b : Bedrock) => { b with step := some t.step } }
      s.commitGo id

end Sys2Proof.Machine
end

