-- ==== Sys2Proof/Machine/Buddy.lean ====
section
/-! DEFINITION. Tray-loss cover between buddies (10_torus_control_plane.md, R305 to R310): seeds, mirrored silt entries and their
application to the shadow; landings of R296 and packets of the pair link (R360, R362). -/
namespace Sys2Proof.Machine

/-! ### Items of seeds and fills (R344, log entry 17) -/

/-- A transfer identifier of R344: item, stratum and index; a seed's has bit 57 set. -/
def itemId (item stratum index : Nat) (seed : Bool := false) : W64 :=
  BitVec.ofNat 64 (item * 2 ^ 60 + stratum * 2 ^ 58 + (if seed then 2 ^ 57 else 0) + index % 2 ^ 32)
def itemKind (id : W64) : Nat := id.toNat / 2 ^ 60
def itemStratum (id : W64) : Nat := id.toNat / 2 ^ 58 % 4
def itemIndex (id : W64) : Nat := id.toNat % 2 ^ 32

/-- The content of a map item: step, root, count, scalar block, then page and leaf digest of each named page. -/
def mapItem (t : Stratum) : List Byte :=
  leBytes 8 t.step.toNat ++ digestBytes t.root ++ leBytes 8 t.map.length ++ t.scalarBytes ++
    t.map.flatMap fun e => leBytes 8 e.1 ++ digestBytes (Tbl.get t.leaf 0 e.1)

/-- The pages that a map item names, with their leaf digests. -/
def mapItemPages (b : List Byte) : List (Nat × Digest) :=
  (List.range (fieldLE b 0x28 8)).map fun i =>
    (fieldLE b (0x30 + 4096 + 40 * i) 8, BitVec.ofNat 256 (fieldLE b (0x30 + 4096 + 40 * i + 8) 32))

/-- The stratum of a map item, with no frames yet. -/
def mapItemStratum (b : List Byte) : Stratum :=
  { step := BitVec.ofNat 64 (fieldLE b 0 8), map := [], poisoned := [], root := BitVec.ofNat 256 (fieldLE b 8 32)
    scalars := ((List.range 512).map fun i => (i, BitVec.ofNat 64 (fieldLE b (0x30 + 8 * i) 8))).filter fun e => e.2 != 0
    leaf := mapItemPages b, area := 0 }

/-- Put a page's bytes into a new frame on a stack; none where the allocation is refused. -/
def State.placePage (s : State) (id : W32) (stack : Nat) (bytes : List Byte) : Option (State × Nat) :=
  (s.job? id).bind fun j => (s.allocFrame j stack).map fun f =>
    let s := s.allocTaken id
    ({ s with mem := memWriteBytes (memClear s.mem (frameAddr f) (2 ^ 21)) (frameAddr f) (sliceBytes bytes 0 (2 ^ 21)) }, f)

/-! ### Seeding (R310) -/

/-- Send the committed stratum to the buddy side: map, then pages, purpose 4. -/
def State.seedSend (s : State) (id : W32) : State :=
  s.onJob id fun j =>
    match s.buddyOf j with
    | some d =>
      if s.coverKind j != 2 then s
      else
        let c := j.strata.committed
        let c := { c with leaf := (s.leaves j c).zipIdx.map fun e => (e.2, e.1) }
        let t := s.sendTransfer (itemId 1 0 0 true) d 4 id none (mapItem c)
        c.map.foldl (fun t e => t.sendTransfer (itemId 2 0 e.1 true) d 4 id none (s.frameBytes (some e.2))) t
    | none => s

/-- Transfers of a purpose that a job still waits for. -/
def State.sending (s : State) (id : W32) (purpose : Nat) : Bool := s.tor.transfers.any fun x => x.job == id && x.purpose == purpose

/-- The shadow is invalid (R310). -/
def State.shadowInvalid (s : State) (id : W32) : State :=
  s.onJob id fun j =>
    let stop := s.upd.run.any fun d => d.mode == 3 && d.job == id
    let s := if stop then { s with upd := { s.upd with run := none, faulted := none, slices := s.upd.slices.map fun (e : Nat × Slice) =>
      (e.1, { e.2 with run := none, todo := [], loops := [], scratch := [], stopped := false }) } } else s
    let s := if stop then { s with acc.tiles := s.acc.tiles.map fun (e : Nat × Tile) =>
      if e.2.state == TileState.kernel && e.2.job == id then (e.1, e.2.release) else e } else s
    (s.modJob id fun j => { j with buddy := { j.buddy with invalid := true, replay := none, work := none } }).evReason 1 .str 7 id
      ((j.buddy.shadow.map Stratum.step).getD 0) []

/-- Install a seed once its map and every page that the map names have landed: frames, and the new shadow. -/
def State.seedSettle (s : State) (id : W32) : State :=
  s.onJob id fun j =>
    match (j.buddy.seed.find? fun e => itemKind e.1 == 1).map Prod.snd with
    | none => s
    | some m =>
      let pages := mapItemPages m
      let page := fun (p : Nat) => (j.buddy.seed.find? fun e => itemKind e.1 == 2 && itemIndex e.1 == p).map Prod.snd
      if pages.any fun p => (page p.1).isNone then s
      else
        let base := { mapItemStratum m with leaf := mapItemPages m }
        let s0 := s.modJob id fun j => { j with buddy := { j.buddy with seed := [], shadow := none, replay := none, work := none } }
        let r := pages.foldl (fun (acc : Option (State × Stratum)) p => acc.bind fun a =>
          (a.1.placePage id (j.home p.1) ((page p.1).getD [])).map fun q =>
            (q.1.modJob id fun j => { j with buddy := { j.buddy with
              work := some { a.2 with map := Tbl.set a.2.map p.1 q.2 } } },
             { a.2 with map := Tbl.set a.2.map p.1 q.2 })) (some (s0, base))
        match r with
        | none => (s.modJob id fun j => { j with buddy := { j.buddy with seed := [] } }).allocRefused j
        | some (t, sh) =>
          let t := t.modJob id fun j => { j with buddy := { j.buddy with
            shadow := some sh, work := none, invalid := false
            mirrored := j.buddy.mirrored.filter fun e => sh.step.toNat < e.step.toNat } }
          if t.rootOf j sh = sh.root then t else t.shadowInvalid id

/-- An item of a seed has landed: a page must have the leaf digest of the landed map. -/
def State.seedLanded (s : State) (l : Landing) : State :=
  s.onJob l.job fun j =>
    let b := l.bytes
    let map := (j.buddy.seed.find? fun e => itemKind e.1 == 1).map Prod.snd
    let bad := itemKind l.transferId == 2 && map.any fun m =>
      !((mapItemPages m).any fun p => p.1 == itemIndex l.transferId && p.2 == leafDigest 0x4C j.id p.1 b)
    if bad then s.evReason 1 .str 7 j.id j.committed [itemIndex l.transferId]
    else
      let keep := j.buddy.seed.filter fun e => e.1 != l.transferId
      (s.setJob { j with buddy := { j.buddy with seed := keep ++ [(l.transferId, b)] } }).seedSettle j.id

/-! ### Mirrored entries (R308, R309) -/

/-- The number nearest to `near` that has the low bits `low` modulo `m`. -/
def nearStep (near : W64) (low m : Nat) : W64 :=
  let up := (low + m - near.toNat % m) % m
  if 2 * up ≤ m || near.toNat + up < m then near + BitVec.ofNat 64 up else near - BitVec.ofNat 64 (m - up)

/-- A mirrored entry as its header gives it (R78, R308). -/
def SiltEntry.ofHeader (b : List Byte) : SiltEntry where
  step := BitVec.ofNat 64 (fieldLE b 8 8)
  closed := false
  mirrored := false
  damaged := (fieldLE b 0x10 2).testBit 2
  clipRerun := (fieldLE b 0x10 2).testBit 1
  skip := (fieldLE b 0x10 2).testBit 0
  clipFactor := BitVec.ofNat 32 (fieldLE b 0x18 4)
  lossScaleIn := BitVec.ofNat 32 (fieldLE b 0x1C 4)
  params := sliceBytes b 0x20 64
  pages := []
  payloadRoot := BitVec.ofNat 256 (fieldLE b 0x60 32)
  prevEntry := BitVec.ofNat 256 (fieldLE b 0x80 32)
  rootIn := BitVec.ofNat 256 (fieldLE b 0xA0 32)
  tag := BitVec.ofNat 256 (fieldLE b 0xC0 32)
  bad := []

/-- The data of a mirror landing: a payload page, and before the first page the header. -/
def State.mirrorLanded (s : State) (job : W32) (id : W64) (b : List Byte) : State :=
  s.onJob job fun j =>
    let withHead := id.getLsbD 59
    let page := id.toNat / 2 ^ 28 % 2 ^ 31
    let n := nearStep (j.committed + 1) (id.toNat % 2 ^ 28) (2 ^ 28)
    let old := j.buddy.mirrored.find? fun e => e.step == n
    let base := old.getD { SiltEntry.ofHeader [] with step := n }
    let e := if withHead then { SiltEntry.ofHeader (b.take 0xE0) with step := n, pages := if fieldLE b 0x10 2 % 2 = 1 then [] else base.pages } else base
    let data := if withHead then b.drop 0xE0 else b
    let put := fun (s : State) (e : SiltEntry) => s.modJob job fun j => { j with buddy := { j.buddy with
      mirrored := (j.buddy.mirrored.filter fun x => x.step.toNat < n.toNat) ++ [e] ++ j.buddy.mirrored.filter fun x => n.toNat < x.step.toNat } }
    if data.isEmpty then put s e
    else match mapFrame e.pages page with
      | some f => put { s with mem := memWriteBytes s.mem (frameAddr f) (sliceBytes data 0 (2 ^ 21)) } e
      | none =>
        match s.placePage job (j.siltHome page) data with
        | none => s.allocRefused j
        | some (t, f) => put t { e with pages := Tbl.set e.pages page f }

/-- A mirrored entry holds everything that its step wrote. -/
def Job.mirrorWhole (j : Job) (e : SiltEntry) : Bool := e.skip || e.pages.length == j.siltPages

/-- Close the mirrored entries of steps that this side has committed (R309). -/
def State.mirrorClose (s : State) (id : W32) : State :=
  s.modJob id fun j => { j with buddy := { j.buddy with mirrored := j.buddy.mirrored.map fun (e : SiltEntry) =>
    if !e.closed && e.step.toNat ≤ j.committed.toNat && j.mirrorWhole e then
      let e := { e with closed := true, payloadRoot := s.payloadRoot j e }
      { e with tag := kmac256 s.keyBytes (e.header j) "RX-SI" }
    else e } }

/-! ### Application to the shadow (R310) -/

/-- Begin to apply the mirrored entry after the shadow's step, up to the assayed step; an entry that has not landed whole is waited for. -/
def State.shadowBegin (s : State) (id : W32) : State :=
  s.onJob id fun j =>
    match j.buddy.shadow with
    | none => s
    | some sh =>
      let k := sh.step + 1
      if j.buddy.invalid || j.buddy.replay.isSome || j.assayed.toNat < k.toNat then s
      else match j.buddy.mirrored.find? fun e => e.step == k && e.closed with
        | none => s
        | some e =>
          if e.damaged then s.shadowInvalid id
          else
            let o : OpenStep := { OpenStep.opened k .confirming e.lossScaleIn 0 with
              replay := true, skip := e.skip, clipRerun := e.clipRerun, clipFactor := e.clipFactor, silt := some e
              closedLayers := if e.skip then [] else List.range j.nLayers }
            s.setJob { j with buddy := { j.buddy with replay := some o, work := some { sh with step := k } } }

/-- The entry has been applied on every layer: the shadow takes its result, and its root must be root_in of the next entry. -/
def State.shadowEnd (s : State) (id : W32) : State :=
  s.onJob id fun j =>
    match j.buddy.replay, j.buddy.work with
    | some o, some w =>
      if o.kernelFault && !(List.range 16).any (fun k => (s.slice k).run.isSome && !(s.slice k).stopped) then s.shadowInvalid id
      else if !(o.skip || o.ready.length = j.nLayers) then s
      else
        let v := j.shadowView
        let (scale, cnt) := v.lossAfter o
        let w := { w with scalars := Tbl.set (Tbl.set w.scalars 448 (scale.setWidth 64)) 449 cnt }
        let w := { w with leaf := (s.leaves v w).zipIdx.map fun (e : Digest × Nat) => (e.2, e.1) }
        let w := { w with root := s.rootOf v w }
        let next := j.buddy.mirrored.find? fun e => e.step == o.step + 1
        let t := s.setJob { j with
          buddy := { j.buddy with shadow := some w, replay := none, work := none
                                  mirrored := j.buddy.mirrored.filter fun e => e.step != o.step }
          slotsBack := j.slotsBack.filter fun e => o.step.toNat < e.1.toNat }
        if o.linkFail || next.any fun e => e.rootIn != w.root then t.shadowInvalid id else t
    | _, _ => s

/-- What is due on the buddy's side of a job. -/
def State.buddySettle (s : State) (id : W32) : State :=
  s.onJob id fun j =>
    if s.coverKind j != 2 then s
    else
      let t := s.mirrorClose id
      let t := (((t.shadowEnd id).shadowBegin id).shadowEnd id).shadowBegin id
      t.modJob id fun j => if j.buddy.invalid then
          { j with buddy := { j.buddy with mirrored := j.buddy.mirrored.filter fun e => j.assayed.toNat < e.step.toNat } }
        else j

/-! ### Data that lands, on the own plane or over the pair link (R304, R308, R360, R362) -/

/-- Pass the data of a transfer to the partner: a head and the data, as a PAIR packet on VC 0, whose header carries no tag (R262; log entry
25). -/
def State.pairData (s : State) (purpose : Nat) (id : W64) (job : W32) (tag : Option Byte) (dest : W16) (data : List Byte) : State :=
  if s.pair.partnerFailed || !(s.port 8).up then s
  else s.queuePkt 8 0 (mkPacket 5 0 0 s.sideNat 0 job s.position dest 0 (padTo 32 (pairHead purpose id data.length tag ++ data)))

/-- A replica chunk result: the first copy closes the chunk's tiles, a second is compared with it (R304, R360). -/
def State.resultLanded (s : State) (l : Landing) (own : Bool) : State :=
  s.onJob l.job fun j =>
    match l.tag.bind j.tag? with
    | none => s
    | some o =>
      let layer := l.transferId.toNat / 2 ^ 28 % 2 ^ 16
      let m := l.transferId.toNat / 2 ^ 44 % 2 ^ 16
      let ts := chunkTiles (j.layerTiles layer) (s.replicaN j) m
      let states := ts.map fun t => (s.tileAt j.id o.step layer (j.tileFirst layer t)).map fun a => (s.tile a).state
      if states.all fun x => x == some TileState.closed then
        if s.chunkBytes j o layer ts == l.bytes then s
        else (s.evInt 1 .pairIntStatus 5 j.id o.step []).jobAbort j.id holdInconsistent
      else if states.any Option.isNone then s
      else
        let t := if own then s.pairData 2 l.transferId l.job l.tag s.position l.bytes else s.bump .pairResultsFromPartner
        t.chunkLanded l

end Sys2Proof.Machine
end

