-- ==== Sys2Proof/Machine/JobStart.lean ====
section
/-! DEFINITION. Starting and tearing down a job (10_torus_control_plane.md, R311 to R316), with the admission of sites (R26, R218). -/
namespace Sys2Proof.Machine

/-! ### START packets (R311) -/

/-- The 80-byte body. -/
def startBody (ty reason member : Nat) (job : W32) (cmd first : W64) (time : List Byte) (gen count outcome : Nat) (digest : Digest) :
    List Byte :=
  leBytes 1 ty ++ leBytes 1 reason ++ leBytes 2 member ++ leBytes 4 job.toNat ++ leBytes 8 cmd.toNat ++ leBytes 8 first.toNat ++
    sliceBytes time 0 14 ++ leBytes 2 gen ++ leBytes 4 count ++ leBytes 1 outcome ++ List.replicate 3 0 ++ digestBytes digest

/-- The body of a member's message of a start. -/
def State.startMsg (_s : State) (j : Job) (r : StartRun) (ty reason member count outcome : Nat) : List Byte :=
  startBody ty reason member j.id r.cmd r.firstStep (if ty = 4 || ty = 8 then r.startTime else []) r.gen.toNat count outcome r.digest

/-- Send a START packet to a plane member of the job peloton. -/
def State.startTo (s : State) (j : Job) (i : Nat) (body : List Byte) : State :=
  match (s.planeOf j.pelSlot)[i]? with
  | some d => s.torSend 0xA d j.id none body
  | none => s

/-- This member's index, its children and its parent on the tree of the job peloton. -/
def State.jobIdx (s : State) (j : Job) : Nat := s.planeIdx j.pelSlot
def State.jobKids (s : State) (j : Job) : List Nat := treeKids (s.planeOf j.pelSlot).length (s.jobIdx j)
def State.jobParent (s : State) (j : Job) : Nat := (s.jobIdx j - 1) / 8

/-- Send to every child. -/
def State.startKids (s : State) (j : Job) (body : List Byte) : State := (s.jobKids j).foldl (fun t i => t.startTo j i body) s

/-- Change the start of a job. -/
def State.modStart (s : State) (id : W32) (f : StartRun → StartRun) : State :=
  s.modJob id fun j => { j with start := j.start.map f }

/-- Time values of messages, in units of 2^−40 ns. -/
def timeOf (b : List Byte) : Nat := (fieldLE b 0 8 * 10 ^ 9 + fieldLE b 8 4) * 2 ^ 40 + fieldLE b 12 2 * 2 ^ 24

/-! ### A member's own checks (R26, R66, R138, R187, R305, R361) -/

/-- A table lists an entry of each side for every position, in the same order (R361). -/
def PelTable.bothSides (t : PelTable) : Bool := t.plane false == t.plane true && 2 * (t.plane false).length == t.members.length

/-- The members_digest of a table (R298). -/
def PelTable.digest (t : PelTable) : Digest := shake256 (t.members.flatMap fun m => leBytes 2 m.toNat)

/-- The job's tables are there, of the generation, and fit the descriptor (R298, R305, R361, R414). -/
def State.pelotonOk (s : State) (j : Job) (gen : W16) : Bool :=
  let fits := fun (t : PelTable) (d : Nat) => t.job == j.id && t.bothSides && t.digest.toNat == d && (t.plane s.sideB).contains s.position
  ((s.pel j.pelSlot).any fun t => t.kind == 0 && t.gen == gen && fits t (j.shape 0x40 32) && (t.plane false).length == j.shape 8 2) &&
    (match j.coverSlot with
     | some c => (s.pel c).any fun t => (t.kind == 1 || t.kind == 2) && fits t (j.shape 0x60 32)
     | none => j.shape 0x60 32 == 0)

/-- The profile table's digest of a profile ID. -/
def Job.profileDigest (j : Job) (id : Nat) : Option Nat :=
  ((List.range (j.shape 0x21 1)).find? fun i => j.shape (128 + 16 * j.nLayers + 32 * j.nKernels + 48 * i) 2 == id).map fun i =>
    j.shape (128 + 16 * j.nLayers + 32 * j.nKernels + 48 * i + 16) 32

/-- The profile of a site is loaded with the digest that the job gives it; tolerance mode needs ASY.CTRL.tol_allowed (R187, R203). -/
def State.siteProfileOk (s : State) (j : Job) (k : Nat) : Bool :=
  let p := (s.siteRow j k).2.2
  match s.profile p, j.profileDigest p with
  | some b, some d => (shake256 b).toNat == d && (fieldLE b 4 1 == 0 || s.fld .asyCtrl 1 1 == 1)
  | _, _ => false

/-- Every profile of the site table is in the profile table, and loaded here with that digest; tolerance mode is admitted only while
ASY.CTRL.tol_allowed is set (R187, R414). -/
def State.profilesOk (s : State) (j : Job) : Bool :=
  let rows := (List.range (8 * j.shape 8 2)).map fun i => j.shape (j.siteTable + 8 * i + 2) 2
  (rows.all fun p => (j.profileDigest p).isSome) && j.sites.all (s.siteProfileOk j)

/-- The check of R26 that a site's capability table fails: 1 interface version or revision, 2 a format, 3 the profile, 4 the stream window;
0 for none. -/
def State.siteCheck (s : State) (j : Job) (k : Nat) : Nat :=
  let cap := Tbl.get s.host.siteCap [] k
  let r := s.siteRow j k
  if !(fieldLE cap 3 1 == 1 && fieldLE cap 2 1 == 0 && (r.2.1 == 0 || r.2.1 == fieldLE cap 4 1)) then 1
  else if !(s.siteStreams k (frFormat r.1) && (fieldLE cap 0xC 4).testBit j.gradFormat &&
    (schedList j.sched k).all fun e => s.siteStreams k (frFormat (s.entryFr j k e))) then 2
  else if !((List.range 4).any fun i => fieldLE cap (0x20 + 2 * i) 2 == r.2.2) then 3
  else if !((schedList j.sched k).all fun e => s.entryCapOk j k e) then 4
  else 0

/-- The reason for which a member refuses before it admits its sites; 0 for none (R311). -/
def State.startCheck (s : State) (j : Job) (gen : W16) (digest : Digest) : Nat :=
  if shake256 j.desc != digest then 2
  else if !s.pelotonOk j gen then 3
  else if !s.quotaHolds j then 5
  else if (List.range j.nKernels).any fun i => (s.kernelSlot (j.kernelDigest i)).isNone then 6
  else if !s.profilesOk j then 7
  else if j.sites.any fun k => !s.siteReach k then 4
  else 0

/-- The check of R26 that failed and the site are reported by an event (log entry 38); check 5 is a site that is not reached or
refused ADMIT. -/
def State.siteRefused (s : State) (j : Job) (k check : Nat) : State :=
  s.evReason 0 .tor 0xFFFF j.id (BitVec.ofNat 64 (s.siteLogical k).toNat) [check, (s.siteLogical k).toNat]

/-- Sites that fail a check are reported. -/
def State.sitesRefused (s : State) (j : Job) (check : Nat → Nat) : State :=
  (j.sites.filter fun k => check k != 0).foldl (fun (t : State) k => t.siteRefused j k (check k)) s

/-- A job that is tearing down still holds sites or frames that the job needs (R316). -/
def State.resourcesHeld (s : State) (j : Job) : Bool :=
  s.jobs.vals.any fun t => t.phase == .tearingDown && t.id != j.id &&
    (t.siteMask &&& j.siteMask != 0 ||
      (List.range 16).any fun k => 36800 < (onStack k s.usedFrames).eraseDups.length + s.quota j.slot && (onStack k t.frames).length != 0)

/-! ### ADMIT (R217, R218) -/

/-- The body of ADMIT: feed cursors of the committed tables, all ones where none. -/
def State.admitBody (s : State) (j : Job) (k : Nat) (steps : List W64) : List Byte :=
  let report := (((j.tables.find? fun e => e.1 == j.committed).map Prod.snd).map fun t => Tbl.get t [] k).getD []
  let cursor := fun (f : Nat) => if report.isEmpty || fieldLE report 0xC 1 ≤ f then List.replicate 8 0xFF else sliceBytes report (0x10 + 8 * f) 8
  leBytes 2 (s.siteLogical k).toNat ++ leBytes 1 steps.length ++ leBytes 1 j.gradFormat ++
    leBytes 2 (max 1 (Config.hangTicks j.id).toNat) ++ leBytes 2 0 ++ leBytes 4 (Config.jobSeed j.id).toNat ++ leBytes 4 0 ++
    sliceBytes (steps.flatMap fun n => leBytes 8 n.toNat) 0 16 ++ (List.range 4).flatMap cursor

/-- The side that leads admits sites (R215, R357): one command ID for each. -/
def State.admitSend (s : State) (j : Job) (ks : List Nat) : State :=
  if !s.leads then s
  else ks.foldl (fun t k =>
    let (x, t) := t.ownIdent
    t.siteSend k 0x10 x j.id (t.admitBody j k [])) s

/-- The side that leads sends LEAVE to the job's sites (R313, R315). -/
def State.leaveSend (s : State) (j : Job) : State :=
  if !s.leads then s
  else (j.sites.filter s.siteReach).foldl (fun t k =>
    let (x, t) := t.ownIdent
    t.siteSend k 0x1B x j.id []) s

/-! ### Phase 1 (R312) -/

/-- A start that has just reached this member. -/
def StartRun.begin_ (cmd first : W64) (gen : W16) (digest : Digest) : StartRun where
  cmd := cmd
  firstStep := first
  gen := gen
  digest := digest
  own := none
  admitted := 0
  admitBad := false
  waiting := true
  ready := []
  answered := false
  plane := none
  refusal := none
  decision := none
  startTime := []
  timeWait := false
  committed := []
  reported := false
  queries := 0
  unanswered := 0
  passQuery := false

/-- Begin a start on a staged job: PREPARE goes to the children at once, and the own checks are made. -/
def State.startBegin (s : State) (id : W32) (cmd first : W64) (gen : W16) (digest : Digest) : State :=
  s.onJob id fun j =>
    let bad := s.startCheck j gen digest
    let r := StartRun.begin_ cmd first gen digest
    let r := if bad = 0 then r else { r with own := some bad, waiting := false }
    let j := { j with phase := .preparing, start := some r }
    let s := s.setJob { j with base := s.areaFor j.fixedFrames }
    let s := if bad = 7 then s.sitesRefused j (fun k => if s.siteProfileOk j k then 0 else 3)
      else if bad = 4 then s.sitesRefused j (fun k => if s.siteReach k then 0 else 5) else s
    if bad = 3 then s else s.startKids j (s.startMsg j r 1 0 (s.jobIdx j) 0 0)

/-- A READY or REFUSE for the other root of the tray (R312). -/
def State.startPartner (s : State) (body : List Byte) : State :=
  if s.pair.partnerFailed then s else s.emit (.pairStart body)

/-- The outcome of a start is reported to the host (R313). -/
def State.startReport (s : State) (id : W32) (code detail result : Nat) : State :=
  s.onJob id fun j =>
    match j.start with
    | none => s
    | some r =>
      if r.reported then s
      else
        ((s.modStart id fun r => { r with reported := true }).raise .torIntStatus 7).finish r.cmd code detail (BitVec.ofNat 64 result)

/-- Members that COMMITTED below this one, itself included. -/
def StartRun.total (r : StartRun) : Nat := 1 + r.committed.vals.sum

/-- Act on COMMIT (R313): forward it, open the first step, answer COMMITTED. -/
def State.startCommit (s : State) (id : W32) (time : List Byte) : State :=
  s.onJob id fun j =>
    match j.start with
    | none => s
    | some r0 =>
      if !(j.phase == .preparing || j.phase == .prepared || j.phase == .inDoubt) then s
      else
        let r := { r0 with decision := some true, startTime := time, timeWait := s.outTime < timeOf time, unanswered := 0 }
        let first := s.firstStratum j r.firstStep
        let st := if j.strata.held then j.strata else { j.strata with committed := first, assayed := first, held := true }
        let j := { j with phase := .running, start := some r, strata := st, params := sliceBytes j.desc (j.desc.length - 128 + 0x30) 64 }
        let s := ((s.setJob j).setRecordWrite id).startKids j (s.startMsg j r 4 0 (s.jobIdx j) 0 0)
        let s := s.openStep id r.firstStep
        let i := s.jobIdx j
        if i = 0 then
          if r.total = (s.planeOf j.pelSlot).length then s.startReport id 0 0 r.total else s
        else s.startTo j (s.jobParent j) (s.startMsg j r 6 0 i r.total 0)

/-- Act on CANCEL (R313): forward it, send LEAVE, release what was reserved. -/
def State.startCancel (s : State) (id : W32) (reason member : Nat) : State :=
  s.onJob id fun j =>
    match j.start with
    | none => s
    | some r0 =>
      if !(j.phase == .preparing || j.phase == .prepared || j.phase == .inDoubt) then s
      else
        let r := { r0 with decision := some false, refusal := some (reason, member), unanswered := 0 }
        let s := s.startKids j (s.startMsg j r 5 reason member 0 0)
        let s := if r.admitted != 0 || r.own != none then s.leaveSend j else s
        let s := { s with tor.transfers := s.tor.transfers.filter fun t => !(t.job == id && t.purpose == 4) }
        let s := s.setJob { j with phase := .staged, start := some r }
        if s.jobIdx j = 0 then s.startReport id (0x300 + reason) member 0 else s

/-- The deciding side decides, and tells the other root (R312, R371). -/
def State.startDecide (s : State) (id : W32) : State :=
  s.onJob id fun j =>
    match j.start with
    | none => s
    | some r =>
      if r.decision.isSome || !s.leads || s.jobIdx j != 0 then s
      else
        let refusal := r.refusal <|> (if s.pair.partnerFailed then some (12, 0) else
          r.plane.bind fun p => if p.1 = 0 then none else some (if p.1 = 12 then (12, p.2) else p))
        match refusal with
        | some (c, m) => (s.startPartner (s.startMsg j r 5 c m 0 0)).startCancel id c m
        | none =>
          if r.answered && r.plane.isSome then
            let t := timeBytes ((s.outTime + j.runDef 0x2C 2 20 * 10 ^ 6 * 2 ^ 40) % timeMod)
            (s.startPartner (s.startMsg j { r with startTime := t } 4 0 0 0 0)).startCommit id t
          else s

/-- The member's answer goes up the tree, or at a root to the deciding side. -/
def State.startAnswer (s : State) (id : W32) (reason member count : Nat) : State :=
  s.onJob id fun j =>
    match j.start with
    | none => s
    | some r =>
      let body := s.startMsg j r (if reason = 0 then 2 else 3) reason member count 0
      let t := s.setJob { j with phase := if reason = 0 then .prepared else j.phase
                                 start := some { r with answered := true, refusal := if reason = 0 then none else some (reason, member) } }
      if s.jobIdx j != 0 then t.startTo j (s.jobParent j) body
      else if s.leads then t.startDecide id
      else t.startPartner body

/-- Everything of a start that is due on this member (R312, R316). -/
def State.startGo (s : State) (id : W32) : State :=
  let s := s.onJob id fun j =>
    match j.start with
    | none => s
    | some r =>
      if j.phase == .preparing && r.own.isNone && r.waiting && !s.resourcesHeld j then
        ((s.setJob { j with start := some { r with waiting := false } }).admitSend j j.sites).seedSend id
      else s
  let s := s.onJob id fun j =>
    match j.start with
    | none => s
    | some r =>
      if j.phase != .preparing || r.own.isSome || r.waiting then s
      else if r.admitBad then s.modStart id fun r => { r with own := some 4 }
      else if j.siteMask &&& ~~~r.admitted != 0 then s
      else if j.sites.any fun k => s.siteCheck j k != 0 then
        (s.sitesRefused j (s.siteCheck j)).modStart id fun r => { r with own := some 4 }
      else if s.coverKind j == 2 && s.sending id 4 then s
      else s.modStart id fun r => { r with own := some 0 }
  let s := s.onJob id fun j =>
    match j.start with
    | none => s
    | some r =>
      if j.phase != .preparing || r.answered then s
      else match r.refusal, r.own with
        | some (c, m), _ => s.startAnswer id c m 0
        | none, some 0 =>
          if (s.jobKids j).all fun i => Tbl.has r.ready i then s.startAnswer id 0 (s.jobIdx j) (1 + r.ready.vals.sum) else s
        | none, some c => s.startAnswer id c (s.jobIdx j) 0
        | none, none => s
  s.startDecide id

/-! ### START packets as they arrive (R311 to R316) -/

/-- The job that a START body names: held here, at the body's generation; otherwise the message is stale (R316). -/
def State.startJob (s : State) (b : List Byte) : Option Job :=
  (s.job? (BitVec.ofNat 32 (fieldLE b 4 4))).bind fun j =>
    if (s.pel j.pelSlot).any fun t => t.gen.toNat == fieldLE b 0x26 2 then some j else none

/-- Do something with the job that a body names, or count the message as stale. -/
def State.startOn (s : State) (b : List Byte) (f : Job → StartRun → State) : State :=
  match s.startJob b with
  | some j => match j.start with
    | some r => f j r
    | none => s.bump .torStaleDiscards
  | none => s.bump .torStaleDiscards

/-- PREPARE: a job that is not staged, or held already, is refused at once. -/
def State.prepareRx (s : State) (k : Packet) : State :=
  let b := k.content
  let id := BitVec.ofNat 32 (fieldLE b 4 4)
  let gen := BitVec.ofNat 16 (fieldLE b 0x26 2)
  let refuse := fun (reason : Nat) (member : Nat) => s.torSend 0xA k.hdr.src id none
    (startBody 3 reason member id (BitVec.ofNat 64 (fieldLE b 8 8)) (BitVec.ofNat 64 (fieldLE b 0x10 8)) [] gen.toNat 0 0
      (BitVec.ofNat 256 (fieldLE b 0x30 32)))
  let own := ((s.tor.peloton.find? fun e => e.2.kind == 0 && e.2.job == id).map fun e => s.planeIdx e.1).getD 0
  match s.job? id with
  | none => refuse 1 own
  | some j =>
    if j.phase != .staged then refuse 9 own
    else if (s.pel j.pelSlot).isNone then refuse 3 own
    else s.startBegin id (BitVec.ofNat 64 (fieldLE b 8 8)) (BitVec.ofNat 64 (fieldLE b 0x10 8)) gen (BitVec.ofNat 256 (fieldLE b 0x30 32))

/-- READY from a child, or from the other root. -/
def State.readyRx (s : State) (b : List Byte) (fromPartner : Bool) : State :=
  s.startOn b fun j _ =>
    let t := if fromPartner then s.modStart j.id fun r => { r with plane := some (0, 0) }
      else s.modStart j.id fun r => { r with ready := Tbl.set r.ready (fieldLE b 2 2) (fieldLE b 0x28 4) }
    t.startGo j.id

/-- REFUSE from a child, or from the other root, whose plane then refuses (reason 12). -/
def State.refuseRx (s : State) (b : List Byte) (fromPartner : Bool) : State :=
  s.startOn b fun j _ =>
    let t := if fromPartner then s.modStart j.id fun r => { r with plane := some (12, fieldLE b 2 2) }
      else s.modStart j.id fun r => { r with refusal := r.refusal <|> some (fieldLE b 1 1, fieldLE b 2 2) }
    t.startGo j.id

/-- A child has not answered in time (R312). -/
def State.childTimeout (s : State) (id : W32) (child : Nat) : State :=
  s.onJob id fun j =>
    match j.start with
    | none => s
    | some r =>
      if j.phase == .preparing && !r.answered && (s.jobKids j).contains child && !Tbl.has r.ready child then
        (s.modStart id fun r => { r with refusal := r.refusal <|> some (10, child) }).startGo id
      else s

/-- prepare_timeout has passed since the decision: the root reports the members that have COMMITTED so far (R313). -/
def State.startedTimeout (s : State) (id : W32) : State :=
  s.onJob id fun j =>
    match j.start with
    | none => s
    | some r => if r.decision == some true && s.jobIdx j = 0 then s.startReport id 0 0 r.total else s

/-- The resources of a job tearing down have not been released within prepare_wait (R316). -/
def State.prepareWaitTimeout (s : State) (id : W32) : State :=
  s.onJob id fun j =>
    if j.phase == .preparing && j.start.any fun r => r.waiting && r.own.isNone then
      (s.modStart id fun r => { r with waiting := false, own := some 8 }).startGo id
    else s

/-- COMMIT, CANCEL and COMMITTED (R313). -/
def State.commitRx (s : State) (b : List Byte) : State := s.startOn b fun j _ => s.startCommit j.id (sliceBytes b 0x18 14)
def State.cancelRx (s : State) (b : List Byte) : State := s.startOn b fun j _ => s.startCancel j.id (fieldLE b 1 1) (fieldLE b 2 2)

def State.committedRx (s : State) (b : List Byte) : State :=
  s.startOn b fun j r =>
    let r := { r with committed := Tbl.set r.committed (fieldLE b 2 2) (fieldLE b 0x28 4) }
    let s := s.setJob { j with start := some r }
    if s.jobIdx j = 0 then if r.total = (s.planeOf j.pelSlot).length then s.startReport j.id 0 0 r.total else s
    else s.startTo j (s.jobParent j) (s.startMsg j r 6 0 (s.jobIdx j) r.total 0)

/-- start_time has come: the member streams (R313). -/
def State.startTime (s : State) (id : W32) : State := s.modStart id fun r => { r with timeWait := false }

/-! ### In doubt (R314, R371) -/

/-- Send QUERY to the root of the plane; an unanswered one is passed to the partner after 3 s; after ten the member is IN_DOUBT. -/
def State.queryOut (s : State) (id : W32) : State :=
  s.onJob id fun j =>
    match j.start with
    | none => s
    | some r =>
      if !(j.phase == .prepared || j.phase == .inDoubt) || r.decision.isSome then s
      else
        let r := { r with queries := r.queries + 1, unanswered := r.unanswered + 1 }
        let s := s.setJob { j with start := some r }
        let s := if r.unanswered = 11 && j.phase == .prepared then
            (s.modJob id fun j => { j with phase := .inDoubt }).evInt 1 .torIntStatus 8 id r.firstStep []
          else s
        let s := if r.unanswered = 4 then s.startPartner (s.startMsg j r 7 0 (s.jobIdx j) 0 0) else s
        s.startTo j 0 (s.startMsg j r 7 0 (s.jobIdx j) 0 0)

/-- A QUERY: the side that decides answers from its journal, kept until the job ID is torn down (R314, R357); a partner's QUERY goes
on to the own plane's root (R371). -/
def State.queryRx (s : State) (b : List Byte) (fromPartner : Bool) : State :=
  s.startOn b fun j r =>
    if fromPartner then
      match r.decision with
      | some d => s.startPartner (s.startMsg j r 8 0 (s.jobIdx j) 0 (if d then 4 else 5))
      | none => (s.modStart j.id fun r => { r with passQuery := true }).startTo j 0 (s.startMsg j r 7 0 (s.jobIdx j) 0 0)
    else if s.leads && s.jobIdx j = 0 then
      let o := match r.decision with
        | some true => 4
        | some false => 5
        | none => 0
      s.startTo j (fieldLE b 2 2) (s.startMsg j r 8 0 0 0 o)
    else s

/-- An OUTCOME (R314). -/
def State.outcomeRx (s : State) (b : List Byte) : State :=
  s.startOn b fun j r =>
    let s := if r.passQuery then s.startPartner b else s
    let s := s.modStart j.id fun r => { r with unanswered := 0, passQuery := false }
    let o := fieldLE b 0x2C 1
    if o = 4 then s.startCommit j.id (sliceBytes b 0x18 14)
    else if o = 5 then s.startCancel j.id 0 0
    else s

/-- The surviving side takes the root role of a start whose root was its partner (R371 step 6). -/
def State.startTakeOver (s : State) (id : W32) : State :=
  s.onJob id fun j =>
    match j.start with
    | none => s
    | some r =>
      if s.jobIdx j != 0 then s
      else match r.decision with
        | some true => if j.phase == .running then s.startKids j (s.startMsg j r 4 0 0 0 0) else s
        | some false => s.startKids j (s.startMsg j r 5 ((r.refusal.map Prod.fst).getD 0) ((r.refusal.map Prod.snd).getD 0) 0 0)
        | none => if j.phase == .preparing || j.phase == .prepared then s.startCancel id 12 0 else s

/-! ### Teardown (R54, R315) -/

/-- A teardown waits from the vote of the current step on, until its commit or its rollback is complete (R54). -/
def Job.mayEnd (j : Job) : Bool := j.open_.head?.all fun o => (o.voted.isNone || o.replay) && o.commit == .none

/-- Before the vote, the open steps of a job that is to end are rolled back under R51, and the acknowledgements awaited (R54). -/
def State.teardownRollback (s : State) (j : Job) : State :=
  s.rollbackThen j.id (j.open_.map OpenStep.step) 1 .nothing

/-- Apply a teardown (R315 steps 1 to 3). -/
def State.teardownApply (s : State) (id : W32) : State :=
  s.onJob id fun j =>
    let steps := j.open_.map OpenStep.step
    let s := (((s.streamDrop id steps).accDrop id steps).updDrop id steps).torDrop id steps
    let s := s.leaveSend j
    let s := { s with
      tor.colls := s.tor.colls.filter fun (c : Coll) => c.key.job != id
      tor.landings := s.tor.landings.filter fun (l : Landing) => l.job != id
      tor.transfers := s.tor.transfers.filter fun (t : Transfer) => t.job != id
      host.siteSent := s.host.siteSent.filter fun (m : SiteSent) => !(m.job == id && m.ty != 0x1B)
      stm.engines := s.stm.engines.map fun (e : Nat × List Engine) => (e.1, e.2.filter fun g => g.job != id)
      asy.samples := s.asy.samples.filter fun (x : Sample) => x.job != id
      asy.taps := s.asy.taps.filter fun (x : Sample) => x.job != id
      asy.heldTaps := s.asy.heldTaps.filter fun (x : Sample) => x.job != id
      asy.verdicts := s.asy.verdicts.filter fun (v : Verdict) => v.job != id
      asy.partnerDone := s.asy.partnerDone.filter fun v => v.1 != id
      asy.lastSent := s.asy.lastSent.filter fun v => v.1 != id
      asy.reported := s.asy.reported.filter fun (k : TapKey) => k.job != id
      asy.sigs := s.asy.sigs.filter fun (g : SigRec) => g.job != id
      asy.history := s.asy.history.filter fun (g : SigHist) => g.job != id
      asy.boosts := s.asy.boosts.filter fun (b : Boost) => b.job != id
      asy.findings := Tbl.erase s.asy.findings j.slot
      asy.clean := Tbl.erase s.asy.clean j.slot }
    let s := if j.recov.running != 0 then s.finish j.recov.command 0x020A else s
    (s.setJob { j with phase := .tearingDown, open_ := [], inVote := none, gates := [], hold := [], holdFull := false, after := .nothing
                       recov := { j.recov with running := 0, items := [], replaying := [] } }).gradCredits

/-- Ask for the teardown of a job: TEARDOWN goes down the tree unless it is this tray's alone; it applies where R54 lets it. A copy
for a job that tears down already only ends the wait for the tree. -/
def State.teardownBegin (s : State) (id : W32) (cmd : W64) (wide : Bool) : State :=
  s.onJob id fun j =>
    if j.phase == .tearingDown || j.teardownCmd.isSome then
      if wide then s else s.setJob { j with gone := (s.jobKids j).map fun i => (i, (Tbl.get j.gone 0 i)) }
    else
      let r := j.start.getD (StartRun.begin_ cmd 0 (((s.pel j.pelSlot).map PelTable.gen).getD 0) (shake256 j.desc))
      let s := if wide then s.startKids j (s.startMsg j { r with cmd := cmd } 9 0 (s.jobIdx j) 0 0) else s
      s.setJob { j with teardownCmd := some cmd, gone := if wide then [] else (s.jobKids j).map fun i => (i, 0) }

/-- The frees of a job that tears down are complete: no LEAVE is awaited, and no reference and no DEVICE page holds its frames. -/
def State.freesDone (s : State) (j : Job) : Bool :=
  !(s.host.siteSent.any fun m => m.job == j.id && m.ty == 0x1B && s.siteReach m.site) &&
    !(s.store.refs.any fun r => r.frames.any fun f => j.frames.contains f) &&
    !(s.host.windows.vals.any fun w => w.job == j.id && !w.device.isEmpty)

/-- The job is gone from this side: windows, slot and what is kept by its slot. -/
def State.jobErase (s : State) (j : Job) : State :=
  { s with jobs := Tbl.erase s.jobs j.slot
           host.windows := s.host.windows.filter fun (e : Nat × Window) => e.2.job != j.id || e.2.job = 0
           host.siteSent := s.host.siteSent.filter fun (m : SiteSent) => m.job != j.id
           store.repair := if s.store.repair.any fun r => r.1 == j.id then none else s.store.repair }

/-- Everything of a teardown that is due (R54, R315). -/
def State.teardownGo (s : State) (id : W32) : State :=
  let s := s.onJob id fun j => if j.teardownCmd.isSome && j.phase == .running && j.mayEnd && j.open_.any (fun o => !o.replay) then s.teardownRollback j else s
  let s := s.onJob id fun j => if j.teardownCmd.isSome && j.phase != .tearingDown && j.mayEnd && j.gatesTrim.gates.isEmpty then s.teardownApply id else s
  s.onJob id fun j =>
    match j.teardownCmd with
    | none => s
    | some cmd =>
      if j.phase != .tearingDown || !s.freesDone j || (s.jobKids j).any (fun i => !Tbl.has j.gone i) then s
      else
        let n := 1 + j.gone.vals.sum
        let r := j.start.getD (StartRun.begin_ cmd 0 (((s.pel j.pelSlot).map PelTable.gen).getD 0) (shake256 j.desc))
        let body := s.startMsg j { r with cmd := cmd } 10 0 (s.jobIdx j) n 0
        let t := if s.jobIdx j = 0 then (s.raise .torIntStatus 7).finish cmd 0 0 (BitVec.ofNat 64 n)
          else (s.startTo j (s.jobParent j) body).finish cmd 0 0 (BitVec.ofNat 64 n)
        t.jobErase j

/-- TEARDOWN and GONE (R315, R316). -/
def State.teardownRx (s : State) (b : List Byte) : State :=
  match s.startJob b with
  | none => s.bump .torStaleDiscards
  | some j => (s.teardownBegin j.id (BitVec.ofNat 64 (fieldLE b 8 8)) true).teardownGo j.id

def State.goneRx (s : State) (b : List Byte) : State :=
  match s.startJob b with
  | none => s.bump .torStaleDiscards
  | some j => (s.setJob { j with gone := Tbl.set j.gone (fieldLE b 2 2) (fieldLE b 0x28 4) }).teardownGo j.id

end Sys2Proof.Machine
end

