-- ==== Sys2Proof/Machine/Recovery.lean ====
section
/-! DEFINITION. Recovery of a job (11_recovery.md, R329 to R354): resuming, site reset, fills, staged routes, commanded rollback; and the
acknowledgements of sites (R215, R217) and of landings (R296) that these and the steps wait for. -/
namespace Sys2Proof.Machine

/-! ### Recovery commands (R329, R330, R333) -/

/-- A recovery command begins on a job. -/
def State.recovBegin (s : State) (id : W32) (opcode : Nat) (cmd : W64) : State :=
  (s.modJob id fun j => { j with phase := .recovering
                                 recov := { j.recov with running := BitVec.ofNat 16 opcode, command := cmd, phase := 0, bad := 0, opened := 0 } }).jobEvent
    id 0

/-- It ends, with an outcome of R333; the job is HELD. -/
def State.recovEnd (s : State) (id : W32) (outcome : Nat) (code : Nat) (detail : Nat := 0) (result : W64 := 0) : State :=
  s.onJob id fun j =>
    if j.recov.running = 0 then s
    else
      let t := s.setJob { j with phase := if j.phase == .recovering then .held else j.phase
                                 recov := { j.recov with running := 0, outcome := BitVec.ofNat 8 outcome, phase := 0 } }
      (t.jobEvent id 0).finish j.recov.command code detail result

/-- The command packet of a job's operation goes down the tree of the job peloton, with its boundary and its bulk data, as a transfer
of purpose 6 (R353, R383, R394; log entry 28). -/
def State.cmdSpread (s : State) (j : Job) (packet : List Byte) (b : W64) : State :=
  let x := BitVec.ofNat 64 (6 * 2 ^ 60 + fieldLE packet 0 1 * 2 ^ 51 + fieldLE packet 8 8 % 2 ^ 51)
  (s.jobKids j).foldl (fun t i => match (t.planeOf j.pelSlot)[i]? with
    | some d => t.sendTransfer x d 6 j.id none (leBytes 8 b.toNat ++ packet)
    | none => t) s

/-! ### Resuming (R338) -/

/-- Begin JOB_RESUME or STEP_RETRY on this member: the first barrier. A member that is not HELD says so. -/
def State.resumeBegin (s : State) (id : W32) (opcode : Nat) (cmd : W64) : State :=
  s.onJob id fun j =>
    let held := j.phase == .held
    let top := (j.escrow.map Prod.fst).foldl max j.committed.toNat
    let t := if held then (s.recovBegin id opcode cmd).modJob id fun j => { j with recov.phase := 1 } else s
    t.collStart id .barrier cmd 0 0 [.min j.committed, .min (BitVec.ofNat 64 (2 ^ 64 - 1 - top)), .or (if held then 0 else 1)]

/-- The position of a member of the job peloton's plane, by plane index; 0xFFFF for none. -/
def State.memberAt (s : State) (j : Job) (i : Nat) : W16 := ((s.planeOf j.pelSlot)[i]?).getD 0xFFFF

/-- The member that a barrier of the resume still waits for, as far as this member sees: itself, else the first child whose UP has not come
(log entry 52). -/
def State.barrierLacks (s : State) (j : Job) : W16 :=
  match s.tor.colls.find? fun c => c.key.job == j.id && c.key.op == .barrier && c.key.ident == j.recov.command && c.result.isNone with
  | some c =>
    if c.own.isNone then s.position
    else (((treeKids (s.planeOf c.slot).length (s.planeIdx c.slot)).find? fun k => !Tbl.has c.ups k).map (s.memberAt j)).getD 0xFFFF
  | none => s.position

/-- The resume fails on this member: what it opened is closed, and the job is HELD. The member that failed is named in failed_position and
in the detail of the reply, where it is known (log entry 52). -/
def State.resumeFail (s : State) (id : W32) (outcome : Nat) (who : W16 := 0xFFFF) : State :=
  s.onJob id fun j =>
    let reasons : W32 := if outcome = 8 then BitVec.ofNat 32 (2 ^ holdInconsistent) else 0
    let steps := (j.open_.filter fun o => !o.replay && o.voted.isNone).map OpenStep.step
    let t := (s.modJob id fun j => { j with recov.reasons := j.recov.reasons ||| reasons }.causePosition who).recovEnd id outcome (0x200 + outcome)
      who.toNat
    if steps.isEmpty then t else t.rollbackThen id steps 3 (.hold reasons)

/-- The first barrier has returned: check, then resolve the step in IN_VOTE (steps 1 and 2). -/
def State.resumeResolve (s : State) (id : W32) (items : List CollItem) : State :=
  s.onJob id fun j =>
    match items with
    | [.min lo, .min hi, .or f] =>
      let top := BitVec.ofNat 64 (2 ^ 64 - 1 - hi.toNat)
      if f.getLsbD 0 || lo.toNat + 1 < top.toNat then
        s.resumeFail id 8 (if j.committed.toNat + 1 < top.toNat then s.position else 0xFFFF)
      else
        let j := { j with recov := { j.recov with phase := 2, cMax := top } }
        if j.committed.toNat < top.toNat then
          match j.inVote with
          | some o =>
            if o.step = top then
              let o := { o with voted := some true, voteBack := true, commit := CommitStage.copies, advanceTo := 0, record := none, landings := [] }
              (s.setJob { j with inVote := none, open_ := [o] }).commitGo id
            else s.setJob { j with recov := { j.recov with bad := 1 } }
          | none => s.setJob { j with recov := { j.recov with bad := 1 } }
        else
          let drop := j.inVote.isSome
          let s := s.setJob { j with inVote := none }
          if drop then s.revert id else s
    | _ => s

/-- The items of the second barrier: what went wrong on a member, and the first member where something did (log entry 52). -/
def State.resumeItems (s : State) (j : Job) : List CollItem :=
  [.or (BitVec.ofNat 64 j.recov.bad), .min (if j.recov.bad = 0 then BitVec.allOnes 64 else BitVec.ofNat 64 (s.jobIdx j))]

/-- Steps 3 and 4: admit what is not admitted, install routes, open the next step, and enter the second barrier. -/
def State.resumeGo (s : State) (id : W32) : State :=
  s.onJob id fun j =>
    let r := j.recov
    if !(r.running == 0x209 || r.running == 0x20A) then s
    else if r.phase = 2 && r.bad != 0 then
      (s.setJob { j with recov.phase := 5 }).collStart id .barrier r.command 0 0 (s.resumeItems j)
    else if r.phase = 2 && j.committed == r.cMax && j.open_.isEmpty && j.gates.isEmpty then
      let s := s.setJob { j with recov.phase := 3 }
      s.admitSend j (j.sites.filter fun k => s.siteReach k && !j.admittedSites.getLsbD k)
    else if r.phase = 3 && j.siteMask &&& ~~~j.admittedSites = 0 then
      let n := r.cMax + 1
      let s := s.setJob { j with recov.phase := 4 }
      let s := if !s.leads then s else r.routes.foldl (fun t e =>
        let (x, t) := t.ownIdent
        t.siteSend e.1 0x17 x id (leBytes 4 (e.2.1.length / 8) ++ leBytes 1 0 ++ leBytes 1 (n.toNat % 256) ++ [0, 0] ++ digestBytes e.2.2)) s
      s.openStep id n
    else if r.phase = 4 && (r.bad != 0 || (j.siteMask &&& ~~~r.opened = 0 &&
        !(s.host.siteSent.any fun m => m.job == id && m.ty == 0x17))) then
      (s.setJob { j with recov.phase := 5 }).collStart id .barrier r.command 0 0 (s.resumeItems j)
    else s

/-- The second barrier has returned: the step streams (step 5). -/
def State.resumeStream (s : State) (id : W32) (bad first : W64) : State :=
  s.onJob id fun j =>
    if j.recov.phase != 5 then s
    else if bad.getLsbD 1 then s.resumeFail id 6 (s.memberAt j first.toNat)
    else if bad != 0 then s.resumeFail id 8 (s.memberAt j first.toNat)
    else
      let r := { j.recov with reasons := j.recov.reasons &&& BitVec.ofNat 32 (2 ^ holdLost), outcome := 1, running := 0, phase := 0
                              routes := [], failedSite := 0xFFFF, failedPosition := 0xFFFF }
      let t := s.setJob { j with phase := .running, after := .nothing, recov := r }
      ((t.jobEvent id 0).finish j.recov.command 0x0201).tryOpen id

/-- A barrier of JOB_RESUME has returned. -/
def State.resumeBarrier (s : State) (id : W32) (cmd : W64) (items : List CollItem) : State :=
  s.onJob id fun j =>
    if j.recov.command != cmd || !(j.recov.running == 0x209 || j.recov.running == 0x20A) then s
    else match items with
      | [.or bad, .min first] => s.resumeStream id bad first
      | _ => if j.recov.phase = 1 then s.resumeResolve id items else s

/-- A barrier has not completed within the command's timeout; a site that is not recovered is named too (R354). -/
def State.resumeTimeout (s : State) (id : W32) (cmd : W64) : State :=
  s.onJob id fun j =>
    if j.recov.command = cmd && (j.recov.running == 0x209 || j.recov.running == 0x20A) then
      let late := j.sites.find? fun k => (j.recov.phase == 3 && !j.admittedSites.getLsbD k) || (j.recov.phase == 4 && !j.recov.opened.getLsbD k)
      let s := match late with
        | some k => s.modJob id fun j => j.causeSite (s.siteLogical k)
        | none => s
      s.resumeFail id 9 (s.barrierLacks j)
    else s

/-! ### Site reset (R339) -/

/-- The side that leads resets the domains; each side trains its own spoke where it is not ACTIVE. -/
def State.siteReset (s : State) (id : W32) (k mask : Nat) (cmd : W64) : State :=
  let t := s.recovBegin id 0x20B cmd
  let t := if t.leads then t.siteSend k 0x15 cmd id (leBytes 2 mask ++ List.replicate 6 0) cmd
    else ({ t with host.siteGen := Tbl.erase t.host.siteGen k }).modRun cmd fun r => { r with stage := 1 }
  if (t.port k).up then t else t.trainStart k false

/-- The reset is over once the site has answered and the spoke has stopped training. -/
def State.siteResetGo (s : State) (id : W32) : State :=
  s.onJob id fun j =>
    if j.recov.running != 0x20B then s
    else match s.run? j.recov.command with
      | none => s
      | some r =>
        let k := fieldLE r.params 0 1
        let st := (s.port k).state
        if r.stage = 0 || !(st == .active || st == .down || st == .disabled) then s
        else
          let res := (Tbl.get s.host.siteGen 0 k).toNat + 256 * (s.port k).widthCode.val
          if r.stage = 1 then s.recovEnd id 2 0x0202 0 (BitVec.ofNat 64 res)
          else if r.stage = 2 then s.recovEnd id 3 0x0203 0 r.result
          else s.recovEnd id 10 0x020A

/-! ### Fills (R342 to R348) -/

/-- A fill opens on a side of the spare (R342). -/
def State.fillArm (s : State) (id : W32) (donor escrow : W16) (cmd : W64) : State :=
  s.onJob id fun j =>
    let t := s.setJob { j with recov := { j.recov with donor := some donor, escrowPeer := some escrow } }
    (t.recovBegin id 0x10A cmd).modJob id fun j => { j with recov := { j.recov with
      fillTotal := BitVec.ofNat 64 (j.recov.items.map fun x => x.bytes.length).sum
      fillDone := BitVec.ofNat 64 (j.recov.items.map fun x => x.bytes.length).sum } }

/-- The items that a source sends, in the order of R343. -/
def State.fillItems (s : State) (j : Job) (target : W16) (contents : Nat) : List FillItem :=
  let escrow := if contents / 2 % 2 = 0 then [] else j.escrow.map fun e => (⟨BitVec.ofNat 64 e.1, itemId 5 0 e.1, e.2⟩ : FillItem)
  let sealed := fun (t : Stratum) => { t with leaf := (s.leaves j t).zipIdx.map fun (e : Digest × Nat) => (e.2, e.1) }
  let map := fun (i : Nat) (t : Stratum) => (⟨0, itemId 1 i 0, mapItem (sealed t)⟩ : FillItem)
  let pages := fun (i : Nat) (t : Stratum) (but : Tbl Nat) => (t.map.filter fun e => mapFrame but e.1 != some e.2).map fun e =>
    (⟨0, itemId 2 i e.1, s.frameBytes (some e.2)⟩ : FillItem)
  let silt := fun (l : List SiltEntry) => l.flatMap fun e =>
    (⟨e.step, itemId 3 0 e.step.toNat, e.header j ++ digestBytes e.tag⟩ : FillItem) ::
      e.pages.map fun p => (⟨e.step, itemId 4 0 p.1, s.frameBytes (some p.2)⟩ : FillItem)
  let state :=
    if contents % 2 = 0 then []
    else if s.coverKind j = 2 && s.buddyOf j == some target then
      match j.buddy.shadow with
      | some sh => map 1 sh :: pages 1 sh [] ++ silt j.buddy.mirrored
      | none => []
    else
      let c := j.strata.committed
      let a := j.strata.assayed
      let vote := match j.inVote, j.strata.working with
        | some o, some w => if o.step = c.step + 1 then some (o, { w with step := o.step }) else none
        | _, _ => none
      [map 0 c, map 1 a] ++ (vote.map fun v => [map 2 v.2]).getD [] ++ pages 0 c [] ++ pages 1 a c.map ++
        (vote.map fun v => pages 2 v.2 c.map).getD [] ++ silt (j.silt.filter fun e => a.step.toNat < e.step.toNat) ++
        (vote.map fun v => silt [s.closeSilt j (v.1.silt.getD (j.openSilt v.1))]).getD []
  escrow ++ state

/-- Send the next item of a fill, or end it (R343). -/
def State.fillNext (s : State) (id : W32) : State :=
  s.onJob id fun j =>
    if j.recov.running != 0x10B then s
    else match j.recov.outItems with
      | [] => s.recovEnd id 0 0 0 j.recov.fillSent
      | x :: _ => s.sendTransfer x.id j.recov.fillTo 5 id none x.bytes

/-- FILL_SEND on a donor or escrow peer. -/
def State.fillSend (s : State) (id : W32) (target : W16) (contents : Nat) (cmd : W64) : State :=
  s.onJob id fun _ =>
    let t := s.recovBegin id 0x10B cmd
    let l := fun (j : Job) => s.fillItems j target contents
    (t.modJob id fun j => { j with recov := { j.recov with
      fillTo := target, fillSent := 0, outItems := l j, fillDone := 0
      fillTotal := BitVec.ofNat 64 ((l j).map fun x => x.bytes.length).sum } }).fillNext id

/-- An item has been verified by the filling side: the next one. `sent` says that its bytes went. -/
def State.fillAcked (s : State) (x : Transfer) : State :=
  (s.modJob x.job fun j => { j with recov := { j.recov with outItems := j.recov.outItems.drop 1
                                                            fillDone := j.recov.fillDone + BitVec.ofNat 64 x.data.length
                                                            fillSent := if x.granted then j.recov.fillSent + BitVec.ofNat 64 x.data.length
                                                              else j.recov.fillSent } }).fillNext x.job

/-- An item of the fill, if verified. -/
def RecoverySt.item (r : RecoverySt) (entry id : W64) : Option (List Byte) := (r.items.find? fun x => x.entry == entry && x.id == id).map FillItem.bytes

/-- The context of an item: the step whose silt entry it belongs to. -/
def RecoverySt.context (r : RecoverySt) (id : W64) (near : W64) : W64 :=
  if itemKind id = 3 || itemKind id = 5 then nearStep near (itemIndex id) (2 ^ 32)
  else if itemKind id = 4 then r.fillEntry else 0

/-- A step near those that a fill carries: that of a landed map. -/
def RecoverySt.near (r : RecoverySt) : W64 :=
  ((r.items.find? fun x => itemKind x.id == 1).map fun x => BitVec.ofNat 64 (fieldLE x.bytes 0 8)).getD
    (((r.items.find? fun x => itemKind x.id == 5).map fun x => x.entry).getD 0)

/-- The fill ends without the state. -/
def State.fillFail (s : State) (id : W32) (outcome : Nat) : State := s.recovEnd id outcome (0x200 + outcome)

/-- The payload root of an entry's landed pages, and whether all have landed. -/
def RecoverySt.payload (r : RecoverySt) (j : Job) (entry : W64) : Option Digest :=
  let l := (List.range j.siltPages).map fun p => r.item entry (itemId 4 0 p)
  if l.any Option.isNone then none
  else some (treeTop (l.zipIdx.map fun e => leafDigest 0x47 j.id e.2 (sliceBytes (e.1.getD []) 0 (2 ^ 21))))

/-- An item of a fill has landed (R345): it is verified, and kept; one that fails ends the fill with DIGEST. -/
def State.fillLanded (s : State) (l : Landing) : State :=
  s.onJob l.job fun j =>
    if j.recov.running != 0x10A then s
    else
      let r := j.recov
      let x := r.context l.transferId r.near
      let b := l.bytes
      let mapOf := r.item 0 (itemId 1 (itemStratum l.transferId) 0)
      let good := match itemKind l.transferId with
        | 2 => mapOf.any fun m => (mapItemPages m).any fun p => p.1 == itemIndex l.transferId && p.2 == leafDigest 0x4C j.id p.1 b
        | 3 => fieldLE b 0 2 == 2 && fieldLE b 4 4 == j.id.toNat && fieldLE b 8 8 == x.toNat
        | 5 => fieldLE b 4 4 == j.id.toNat && fieldLE b 8 8 == x.toNat
        | _ => true
      if !good then s.fillFail j.id 6
      else
        let r := { r with items := (r.items.filter fun y => !(y.entry == x && y.id == l.transferId)) ++ [(⟨x, l.transferId, b⟩ : FillItem)]
                          fillDone := r.fillDone + BitVec.ofNat 64 b.length }
        let bad := itemKind l.transferId = 4 && (match r.payload j x, r.item x (itemId 3 0 x.toNat) with
          | some d, some h => d.toNat != fieldLE h 0x60 32
          | _, _ => false)
        let s := s.setJob { j with recov := r }
        if bad then (s.modJob j.id fun j => { j with recov.items := j.recov.items.filter fun y => !(itemKind y.id == 4 && y.entry == x) }).fillFail j.id 6
        else s

/-- Put a map's pages into frames: a stratum, with what its map and another's share taken from that one. -/
def State.fillStratum (s : State) (id : W32) (stratum : Nat) (base : Option Stratum) : Option (State × Stratum) :=
  (s.job? id).bind fun j =>
    (j.recov.item 0 (itemId 1 stratum 0)).bind fun m =>
      let t := { mapItemStratum m with leaf := mapItemPages m }
      (mapItemPages m).foldl (fun (acc : Option (State × Stratum)) p => acc.bind fun a =>
        match j.recov.item 0 (itemId 2 stratum p.1) with
        | some b => (a.1.placePage id (j.home p.1) b).map fun q =>
            (({ q.1 with store.refs := q.1.store.refs ++ [(⟨0, [q.2]⟩ : ReadRef)] }), { a.2 with map := Tbl.set a.2.map p.1 q.2 })
        | none => (base.bind fun c => mapFrame c.map p.1).map fun f => (a.1, { a.2 with map := Tbl.set a.2.map p.1 f })) (some (s, t))

/-- Put the landed silt entries into frames, oldest first. -/
def State.fillSilt (s : State) (id : W32) (heads : List FillItem) : Option (State × List SiltEntry) :=
  (s.job? id).bind fun j =>
    heads.foldl (fun (acc : Option (State × List SiltEntry)) h => acc.bind fun a =>
      let e := { SiltEntry.ofHeader h.bytes with step := h.entry, closed := true, mirrored := true }
      let pages := if e.skip then [] else (List.range j.siltPages).map fun p => (p, (j.recov.item h.entry (itemId 4 0 p)).getD [])
      (pages.foldl (fun (acc : Option (State × Tbl Nat)) p => acc.bind fun b =>
        (b.1.placePage id (j.siltHome p.1) p.2).map fun q =>
          (({ q.1 with store.refs := q.1.store.refs ++ [(⟨0, [q.2]⟩ : ReadRef)] }), Tbl.set b.2 p.1 q.2)) (some (a.1, []))).map fun b =>
        let e := { e with pages := b.2 }
        (b.1, a.2 ++ [{ e with tag := kmac256 s.keyBytes (e.header j) "RX-SI" }])) (some (s, []))

/-- Frames placed but not yet named are held by references of their own; they end with the flip. -/
def State.fillUnref (s : State) : State := { s with store.refs := s.store.refs.filter fun r => r.holder != 0 }

/-- The head of the chain from the escrowed record of a step, retagged (R345). -/
def State.fillRecord (s : State) (r : RecoverySt) (n : W64) : Option (List Byte) :=
  (r.item n (itemId 5 0 n.toNat)).map fun b => s.tagRecord (b.take 0xE0)

/-- The STEP_REPORT bodies of an escrow item, by site in order. -/
def escrowReports (j : Job) (b : List Byte) : Tbl (List Byte) :=
  go j.sites (b.drop 0xE0)
where
  go : List Nat → List Byte → Tbl (List Byte)
  | [], _ => []
  | k :: r, l => let n := 0x50 + 4 * fieldLE l 0xA 2
    (k, l.take n) :: go r (l.drop n)

/-- Retained strata that a rejoin has carried (R374): items of kind 6 are their maps, those of kind 7 the pages that the committed stratum
does not share. -/
def State.fillRetained (s : State) (id : W32) (c : Stratum) : Option (State × List Stratum) :=
  (s.job? id).bind fun j =>
    (j.recov.items.filter fun x => itemKind x.id == 6).foldl (fun (acc : Option (State × List Stratum)) m => acc.bind fun a =>
      let t := { mapItemStratum m.bytes with leaf := mapItemPages m.bytes }
      ((mapItemPages m.bytes).foldl (fun (acc : Option (State × Tbl Nat)) p => acc.bind fun b =>
        match j.recov.item m.entry (itemId 7 0 p.1) with
        | some bytes => (b.1.placePage id (j.home p.1) bytes).map fun q =>
            (({ q.1 with store.refs := q.1.store.refs ++ [(⟨0, [q.2]⟩ : ReadRef)] }), Tbl.set b.2 p.1 q.2)
        | none => (mapFrame c.map p.1).map fun f => (b.1, Tbl.set b.2 p.1 f)) (some (a.1, []))).map fun b =>
          (b.1, a.2 ++ [{ t with map := b.2 }])) (some (s, []))

/-- A fill is complete: the strata are the side's own with one flip, and the chain has its head (R345). -/
def State.fillFinish (s : State) (id : W32) (c a : Stratum) (silt : List SiltEntry) : State :=
  s.onJob id fun j =>
    match s.fillRecord j.recov c.step with
    | none => s.fillFail id 8
    | some rec =>
      let (s, kept) := (s.fillRetained id c).getD (s, [])
      let s := s.flipped id fun t => { t with working := none, committed := c, assayed := a, retained := kept, held := true }
      let s := s.modJob id fun j => { j with
        silt := silt, chain := [rec], open_ := [], inVote := none
        params := sliceBytes j.desc (j.desc.length - 128 + 0x30) 64
        tables := [(c.step, escrowReports j ((j.recov.item c.step (itemId 5 0 c.step.toNat)).getD []))]
        recov := { j.recov with items := [], donor := none, escrowPeer := none, replaying := [], needsFill := false } }
      s.fillUnref.recovEnd id 4 0x0204

/-- Highest escrowed step among the items. -/
def RecoverySt.escrowTop (r : RecoverySt) : W64 :=
  BitVec.ofNat 64 (((r.items.filter fun x => itemKind x.id == 5).map fun x => x.entry.toNat).foldl max 0)

/-- Every page that a landed map names has landed, or lies in the other map. -/
def RecoverySt.mapWhole (r : RecoverySt) (stratum : Nat) (base : Option (List Byte)) : Bool :=
  (r.item 0 (itemId 1 stratum 0)).any fun m => (mapItemPages m).all fun p =>
    (r.item 0 (itemId 2 stratum p.1)).isSome || base.any fun c => (mapItemPages c).any fun q => q == p

/-- Everything of a fill that is due on the filling side (R343 to R346). -/
def State.fillGo (s : State) (id : W32) : State :=
  s.onJob id fun j =>
    if j.recov.running != 0x10A then s
    else
      let r := j.recov
      match r.replaying with
      | k :: rest =>
        if !j.open_.isEmpty then s else (s.setJob { j with recov.replaying := rest }).replayBegin id k
      | [] =>
        if !j.open_.isEmpty then s
        else if j.strata.held && j.strata.committed.step == r.escrowTop && r.phase = 1 then
          s.fillFinish id j.strata.committed j.strata.assayed j.silt
        else
          let e := r.escrowTop
          let heads := (r.items.filter fun x => itemKind x.id == 3)
          let m1 := r.item 0 (itemId 1 1 0)
          let whole := fun (x : FillItem) => (fieldLE x.bytes 0x10 2).testBit 0 || (r.payload j x.entry).isSome
          if e = 0 || s.tor.landings.any fun l => l.job == id && l.purpose == 5 then s
          else match r.item 0 (itemId 1 0 0), m1 with
            | some m0, some m1 =>
              let c := BitVec.ofNat 64 (fieldLE m0 0 8)
              let a := BitVec.ofNat 64 (fieldLE m1 0 8)
              let vote := (r.item 0 (itemId 1 2 0)).any fun m => fieldLE m 0 8 == c.toNat + 1
              let want := (List.range (c.toNat - a.toNat)).map fun i => a + 1 + BitVec.ofNat 64 i
              let want := if vote then want ++ [c + 1] else want
              let hs := want.map fun n => heads.find? fun x => x.entry == n
              if !r.mapWhole 0 none || !r.mapWhole 1 (some m0) || (vote && !r.mapWhole 2 (some m0)) ||
                  hs.any (fun h => !(h.any whole)) then s
              else if !(e == c || (e == c + 1 && vote)) then s.fillFail id 8
              else
                let hs := (hs.filterMap fun h => h).filter fun h => h.entry.toNat ≤ e.toNat
                match s.fillStratum id 0 none with
                | none => s.fillUnref.fillFail id 10
                | some (s1, t0) => match s1.fillStratum id 1 (some t0) with
                  | none => s1.fillUnref.fillFail id 10
                  | some (s2, t1) => match (if e == c then some (s2, t0) else s2.fillStratum id 2 (some t0)), s2.fillSilt id hs with
                    | some (s3, tc), some (_, _) => match s3.fillSilt id hs with
                      | none => s3.fillUnref.fillFail id 10
                      | some (s4, silt) =>
                        let rootIn := ((silt.head?.map SiltEntry.rootIn).getD tc.root)
                        let want := fieldLE ((r.item e (itemId 5 0 e.toNat)).getD []) 0x20 32
                        if tc.root.toNat != want || t1.root != rootIn || s4.rootOf j tc != tc.root || s4.rootOf j t1 != t1.root then
                          s4.fillUnref.fillFail id 6
                        else s4.fillFinish id tc t1 silt
                    | _, _ => s2.fillUnref.fillFail id 10
            | none, some m1 =>
              let a := BitVec.ofNat 64 (fieldLE m1 0 8)
              let want := (List.range (e.toNat - a.toNat)).map fun i => a + 1 + BitVec.ofNat 64 i
              let hs := want.map fun n => heads.find? fun x => x.entry == n
              if !r.mapWhole 1 none || hs.any (fun h => !(h.any whole)) || want.any fun n => (r.item n (itemId 5 0 n.toNat)).isNone then s
              else
                let hs := hs.filterMap fun h => h
                match s.fillStratum id 1 none with
                | none => s.fillUnref.fillFail id 10
                | some (s1, t1) => match s1.fillSilt id hs with
                  | none => s1.fillUnref.fillFail id 10
                  | some (s2, silt) =>
                    let rootIn := ((silt.head?.map SiltEntry.rootIn).getD t1.root)
                    if t1.root != rootIn || s2.rootOf j t1 != t1.root then s2.fillUnref.fillFail id 6
                    else
                      let chain := want.filterMap fun n => s2.fillRecord r n
                      let s3 := s2.modJob id fun j => { j with
                        silt := silt, chain := chain
                        strata := { j.strata with working := none, committed := t1, assayed := t1, retained := [], held := true }
                        recov := { j.recov with phase := 1, replaying := want } }
                      (s3.setRecordWrite id).fillUnref
            | _, _ => s

/-- The answer to the LAND REQUEST of a fill item that is verified already: ACK, and nothing is sent again (R345). -/
def State.fillHas (_s : State) (j : Job) (k : Packet) : Bool :=
  let id := BitVec.ofNat 64 (fieldLE k.content 8 8)
  (j.recov.item (j.recov.context id j.recov.near) id).isSome

/-! ### Staged routes (R349) -/

/-- The side that leads sends the image in pieces of 1,024 bytes; both record the digest. -/
def State.derailStage (s : State) (id : W32) (k : Nat) (image : List Byte) (digest : Digest) (cmd : W64) : State :=
  let t := (s.recovBegin id 0x20C cmd).modJob id fun j => { j with recov.routes := Tbl.set j.recov.routes k (image, digest) }
  if !t.leads then t.recovEnd id 0 0
  else
    (List.range ((image.length + 1023) / 1024)).foldl (fun t i =>
      let b := (image.drop (1024 * i)).take 1024
      let (x, t) := t.ownIdent
      t.siteSend k 0x16 x id (leBytes 4 (1024 * i) ++ leBytes 4 b.length ++ b) cmd) t

/-- Staging ends with its last acknowledgement. -/
def State.derailGo (s : State) (id : W32) : State :=
  s.onJob id fun j =>
    if j.recov.running == 0x20C && s.leads && !(s.host.siteSent.any fun m => m.ty == 0x16 && m.cmd == j.recov.command) then
      if j.recov.bad = 0 then s.recovEnd id 0 0 else s.recovEnd id 10 0x020A
    else s

/-! ### Commanded rollback (R353) -/

/-- Every silt entry from after `t` up to before `r` is held and undamaged. -/
def Job.siltWhole (j : Job) (t r : W64) : Bool :=
  (List.range (r.toNat - 1 - t.toNat)).all fun i => j.silt.any fun e => e.step == t + 1 + BitVec.ofNat 64 i && !e.damaged

/-- JOB_ROLLBACK names a held stratum and undamaged entries (R353). A filled side, which holds no retained strata, goes back to its assayed step
and replays to the target (R346). -/
def Job.rollbackOk (j : Job) (t r : W64) : Bool :=
  j.assayed.toNat ≤ t.toNat && t.toNat < r.toNat && r.toNat ≤ j.committed.toNat + 1 &&
    ((j.strata.find t).isSome || j.siltWhole j.assayed (t + 1)) && j.siltWhole t r

/-- The rollback is ordered for the boundary `b`: at once on a HELD job; a member already past the boundary aborts the job and applies
it while HELD. -/
def State.rollbackOrder (s : State) (id : W32) (t r b cmd : W64) : State :=
  s.onJob id fun j =>
    if j.phase == .running then
      let s := s.setJob { j with newRollback := some (t, r, b, cmd) }
      if b.toNat ≤ j.committed.toNat then s.jobAbort id holdInconsistent else s
    else s.setJob { j with newRollback := some (t, r, b, cmd) }

/-- A rollback ordered on a job that is HELD is applied (R353). -/
def State.rollbackGo (s : State) (id : W32) : State :=
  s.onJob id fun j =>
    match j.newRollback with
    | some (t, r, _, cmd) =>
      if j.phase == .held && j.gates.isEmpty && j.open_.isEmpty then
        let s := (s.setJob { j with newRollback := none }).recovBegin id 0x208 cmd
        s.rollbackApply id t r cmd
      else s
    | none => s

/-! ### Escrow items and command transfers that land -/

/-- An escrow item of another member (R336). -/
def State.escrowLanded (s : State) (l : Landing) : State :=
  s.modJob l.job fun j => { j with escrow := Tbl.set j.escrow (fieldLE l.bytes 8 8) l.bytes }

/-- Escrow items below the assayed step go (R336). -/
def State.escrowTrim (s : State) (id : W32) : State :=
  s.modJob id fun j => if j.phase == .running then { j with escrow := j.escrow.filter fun e => j.assayed.toNat ≤ e.1 } else j

/-! ### Acknowledgements of sites (R215, R217) -/

/-- A control message from a site whose form is wrong is discarded and counted (R217). -/
def State.ctlMalformed (s : State) (site : Nat) : State := s.bump .spkMalformed site

/-- The generation of a site, from each acknowledgement of ADMIT and RESET_DOMAIN, and its capability table, from an accepted ADMIT
(R212, R227). -/
def State.siteLearn (s : State) (site : Nat) (m : CtlMsg) : State :=
  let ty := m.get 0 1
  let s := if ty = 0x10 ∨ ty = 0x15 then { s with host.siteGen := Tbl.set s.host.siteGen site (BitVec.ofNat 8 (m.get 2 1)) } else s
  if ty = 0x10 ∧ m.get 1 1 = 0 then
    let t := { s with host.siteCap := Tbl.set s.host.siteCap site (sliceBytes m.bytes 8 256) }
    t.modJob m.jobId fun j => { j with
      admittedSites := j.admittedSites ||| (1#8 <<< site)
      start := j.start.map fun (r : StartRun) => { r with admitted := r.admitted ||| (1#8 <<< site) } }
  else s

/-- What an acknowledgement completes. -/
def State.ackApply (s : State) (site : Nat) (m : CtlMsg) (x : SiteSent) : State :=
  let st := m.get 1 1
  let fin := fun (t : State) (ok : Nat) => if x.cmd = 0 then t
    else t.finish x.cmd (if st = 0 then ok else if st = 2 then 0x0101 else 0x0105) 0 (BitVec.ofNat 64 (m.get 4 4))
  if x.ty = 0x10 then
    if st = 0 then s
    else (s.onJob x.job fun j => s.siteRefused j site 5).modJob x.job fun j => { j with
      start := j.start.map fun (r : StartRun) => { r with admitBad := true }
      recov := (if j.recov.phase = 3 then { j.recov with bad := 1, phase := 2 } else j.recov) }
  else if x.ty = 0x11 then
    let t := s.modEngine site x.job x.ident fun g => { g with opened := true }
    t.modJob x.job fun j => { j with recov.opened := j.recov.opened ||| (1#8 <<< site) }
  else if x.ty = 0x12 then s.modJob x.job fun j => j.gateSite (some x.ident) site
  else if x.ty = 0x15 then
    s.modRun x.cmd fun r => { r with stage := if st = 0 then 1 else if st = 5 then 2 else 3, result := BitVec.ofNat 64 (m.get 4 4) }
  else if x.ty = 0x16 then if st = 0 then s else s.modJob x.job fun j => { j with recov.bad := 1 }
  else if x.ty = 0x17 then
    if st = 0 then s else s.modJob x.job fun j => { j with recov.bad := j.recov.bad ||| if st = 6 then 2 else 1 }
  else if x.ty = 0x18 then if st = 0 then s else fin s 0
  else if x.ty = 0x1A then fin s 0
  else if x.ty = 0x1B then s.modJob x.job fun j => { j with admittedSites := j.admittedSites &&& ~~~(1#8 <<< site) }
  else s

/-- An ACK (R215, R217). A refused TAG_OPEN stays unacknowledged and is sent again (log entry 26). -/
def State.ackRx (s : State) (site : Nat) (m : CtlMsg) : State :=
  let ty := m.get 0 1
  if !(m.formOk 8 || (ty == 0x10 && m.get 1 1 == 0 && m.formOk 264)) || m.get 3 1 != 0 then s.ctlMalformed site
  else
    let s := s.siteLearn site m
    match s.host.siteSent.find? fun x => x.site == site && x.ty == ty && x.ident == m.ident with
    | none => s
    | some x =>
      if ty == 0x11 && m.get 1 1 == 1 && ((s.job? x.job).any fun j => (j.step? x.ident).isSome) then s
      else
        ({ s with host.siteSent := s.host.siteSent.filter fun y => !(y.site == site && y.ty == ty && y.ident == m.ident) }).ackApply site m x

/-- No ACK within 1 ms: the messages that await one are sent again with repeat set (R217). -/
def State.ctlRepeat (s : State) (site : Nat) : State :=
  (s.host.siteSent.filter fun x => x.site == site && x.ty != 0x19).foldl (fun t x => t.siteQueue site x.ty true x.ident x.job x.body) s

/-! ### STEP_REPORT, HANG, ABORT_SEEN (R229 to R232, R241, R271) -/

/-- A site's end-of-step report (R241, R358 of the tables). -/
def State.stepReportRx (s : State) (site : Nat) (m : CtlMsg) : State :=
  let n := m.get 0xA 2
  if !m.formOk (0x50 + 4 * n) || m.get 0xE 2 != 0 || m.get 0x4C 4 != 0 then s.ctlMalformed site
  else
    let b := m.bytes.take (0x50 + 4 * n)
    let s := s.bumpBy .asySamplesDroppedSrc (m.get 0x38 4) site
    let s := if m.get 0x48 4 = 0 then s else s.evReason 1 .spk 10 m.jobId (BitVec.ofNat 64 (m.get 0 8)) [site, m.get 0x48 4]
    s.modStep m.jobId (BitVec.ofNat 64 (m.get 0 8)) fun o => { o with reports := Tbl.set o.reports site b }

/-- HANG (R229, R271, R323). -/
def State.hangRx (s : State) (site : Nat) (m : CtlMsg) : State :=
  if !m.formOk 72 || !zeroBytes m.bytes 3 5 then s.ctlMalformed site
  else
    let id := m.jobId
    (s.evReason 2 .spk 0xFFFF id (((s.job? id).map Job.eventIdent).getD 0) [site, m.get 0 2]).siteAbort site holdSiteHang

/-- ABORT_SEEN: a site's tags were closed by a marker, whose bytes it carries (R217, R231, R232). -/
def State.abortSeenRx (s : State) (site : Nat) (m : CtlMsg) : State :=
  if !m.formOk 16 || m.get 3 1 &&& 0xF9 != 0 || !zeroBytes m.bytes 13 3 then s.ctlMalformed site else s.evReason 1 .spk 0xFFFF m.jobId m.ident [site]

/-! ### Landings (R296, R342, R362) -/

/-- Why a LAND REQUEST is refused: a status of R296; none where it is granted. -/
def State.landRefusal (s : State) (j : Job) (k : Packet) : Option Nat :=
  let purpose := fieldLE k.content 1 1
  let len := fieldLE k.content 0x10 8
  let needs := if purpose = 3 || purpose = 4 || purpose = 5 then (len + 2 ^ 21 - 1) / 2 ^ 21 else 0
  let full := needs != 0 && (List.range 16).all fun q => s.quota j.slot < s.usage j q + 1
  if 4096 ≤ s.tor.landings.length then some 1
  else if purpose = 1 || purpose = 2 then (if (j.tag? k.hdr.tag).isSome then none else some 4)
  else if purpose = 3 || purpose = 7 then
    (if j.gates.any fun g => g.steps.any fun n => n.setWidth 8 == k.hdr.tag then some 4 else if full then some 2 else none)
  else if purpose = 4 then (if s.buddyOf j == some k.hdr.src then (if full then some 2 else none) else some 5)
  else if purpose = 5 then
    (if j.recov.running == 0x10A && (j.recov.donor == some k.hdr.src || j.recov.escrowPeer == some k.hdr.src) then
      (if full then some 2 else none) else some 5)
  else if purpose = 6 then none
  else some 5

/-- A LAND REQUEST. -/
def State.landRequest (s : State) (k : Packet) : State :=
  match s.job? k.hdr.jobId with
  | none => s.bump .torStaleDiscards
  | some j =>
    match s.landRefusal j k with
    | some st => s.refuseLanding k st
    | none =>
      let id := BitVec.ofNat 64 (fieldLE k.content 8 8)
      if fieldLE k.content 1 1 = 5 then
        let s := if itemKind id = 3 then s.setJob { j with recov.fillEntry := j.recov.context id j.recov.near } else s
        if s.fillHas j k then s.torSend 0xC k.hdr.src k.hdr.jobId none (landBody 3 5 0 0 id (fieldLE k.content 0x10 8) 0)
        else (s.modJob j.id fun j => { j with recov.fillTotal := j.recov.fillTotal + BitVec.ofNat 64 (fieldLE k.content 0x10 8) }).openLanding k
      else s.openLanding k

/-- What an acknowledged transfer lets go on. -/
def State.transferDone (s : State) (x : Transfer) : State :=
  if x.purpose = 3 || x.purpose = 7 then s.commitLanded x.job x.id
  else if x.purpose = 5 then s.fillAcked x
  else s

/-- An acknowledged landing (R296). The partner hears of one that this side made for it (R362, log entry 25). -/
def State.landAck (s : State) (k : Packet) : State :=
  match s.takeTransfer k with
  | (t, some x) =>
    if x.assist then t.pairData 11 x.id x.job x.tag s.position (leBytes 1 x.purpose) else t.transferDone x
  | (t, none) => t

/-- A refused landing: one refused for room or time is asked for again; a seed or fill that is refused ends (log entry 28). -/
def State.landRefuse (s : State) (k : Packet) : State :=
  let st := fieldLE k.content 0x18 1
  match s.takeTransfer k with
  | (t, some x) =>
    if st = 1 || st = 3 then t.sendTransfer x.id x.dest x.purpose x.job x.tag x.data x.assist
    else if x.purpose = 4 then
      let t := { t with tor.transfers := t.tor.transfers.filter fun y => !(y.job == x.job && y.purpose == 4) }
      let t := t.modJob x.job fun j => if j.phase == .preparing then { j with start := j.start.map fun (r : StartRun) =>
        if r.own.isNone then { r with own := some 11 } else r } else j
      (t.host.runs.filter fun r => r.opcode == 0x20E && r.job == x.job).foldl (fun t r => t.finish r.id (if st = 2 then 0x010A else 0x0105)) t
    else if x.purpose = 5 then (t.modJob x.job fun j => { j with recov.outItems := [] }).recovEnd x.job 10 0x020A
    else t
  | (t, none) => t

/-- A landing has expired; a fill that loses one ends with TIMEOUT (R296, R354). -/
def State.landExpired (s : State) (id : W16) : State :=
  match s.tor.landings.find? fun l => l.id == id with
  | none => s
  | some l =>
    let t := s.landingTimeout id
    if l.purpose != 5 then t
    else
      -- with the own partner failed, a shard held in pairs only has no other source left (log entry 28)
      let lone := s.pair.partnerFailed && (s.job? l.job).any fun j => (s.planeOf (j.coverSlot.getD 64)).length ≤ 2
      if lone then (t.modJob l.job fun j => { j with recov.reasons := j.recov.reasons ||| BitVec.ofNat 32 (2 ^ holdLost) }).fillFail l.job 5
      else t.fillFail l.job 9

/-- BUDDY_SEED completes when every item has landed (R310). -/
def State.seedGo (s : State) (id : W32) : State :=
  if s.sending id 4 then s
  else (s.host.runs.filter fun r => r.opcode == 0x20E && r.job == id && r.stage == 1).foldl (fun t r => t.finish r.id 0) s

/-- A step collective has not completed in time (R303): a reduction or a replica compare fails its check, so that the vote is no (R36); the
vote itself aborts the job (R38). -/
def State.collTimeout (s : State) (key : CollKey) : State :=
  match s.tor.colls.find? fun c => c.key == key && c.result.isNone with
  | none => s
  | some _ =>
    if key.op = .advance then s
    else
      let t := (s.bump .torCollTimeouts).evInt 1 .torIntStatus 6 key.job key.ident [key.op.code]
      match key.op with
      | .vote => t.confirmTimeout key.job
      | .roots => (t.modStep key.job key.ident fun o => { o with replicaDone := true, replicaFail := true }).voteCast key.job
      | .scalar => (t.modStep key.job key.ident fun o => { o with scalarLate := true }).voteCast key.job
      | .layerSlots =>
        let u := (t.modStep key.job key.ident fun o => { o with scalarLate := true }).voteCast key.job
        { u with upd.run := u.upd.run.map fun (d : Dispatcher) =>
            if d.job == key.job && d.step == key.ident && d.layer == key.layer.toNat then { d with waiting := false } else d }
      | _ => t

end Sys2Proof.Machine
end

