-- ==== Sys2Proof/Machine/Xmss.lean ====
section
/-! DEFINITION. Verification of XMSS and XMSS^MT signatures (R440): RFC 8391 with SHAKE256, n = 32 and w = 16, and the set identifiers of
SP 800-208, whose texts the spec does not reproduce (log entry 10, PRESUMED). -/
namespace Sys2Proof.Machine

/-- `n` bytes, most significant first. -/
def beBytes (n v : Nat) : List Byte := (leBytes n v).reverse

/-- Bytes read most significant first. -/
def beField (b : List Byte) (lo n : Nat) : Nat := leNat (sliceBytes b lo n).reverse

/-- The keyed functions: 0 F, 1 H, 2 H_msg, 3 PRF. -/
def xmssHash (which : Nat) (key m : List Byte) : List Byte := digestBytes (shake256 (beBytes 32 which ++ key ++ m))

/-- An address: layer, tree, type, and the three words and the mask number that the type gives. -/
def xmssAdrs (layer tree ty a b c mask : Nat) : List Byte :=
  beBytes 4 layer ++ beBytes 8 tree ++ beBytes 4 ty ++ beBytes 4 a ++ beBytes 4 b ++ beBytes 4 c ++ beBytes 4 mask

/-- Bitwise exclusive or of two strings. -/
def xorBytes (a b : List Byte) : List Byte := List.zipWith (· ^^^ ·) a b

/-- `n` steps of a chain from step `i` on; the address is a function of the step and the mask number. -/
def wotsChain (seed : List Byte) (adrs : Nat → Nat → List Byte) : Nat → Nat → List Byte → List Byte
  | 0, _, x => x
  | n + 1, i, x => wotsChain seed adrs n (i + 1)
      (xmssHash 0 (xmssHash 3 seed (adrs i 0)) (xorBytes x (xmssHash 3 seed (adrs i 1))))

/-- The 67 base-16 digits of a message of 32 bytes and its checksum. -/
def wotsDigits (m : List Byte) : List Nat :=
  let d := m.flatMap fun b => [b.toNat / 16, b.toNat % 16]
  let c := (d.map fun x => 15 - x).sum
  d ++ [c / 256 % 16, c / 16 % 16, c % 16]

/-- The randomised hash of two nodes; the address is a function of the mask number. -/
def xmssNode (seed : List Byte) (adrs : Nat → List Byte) (l r : List Byte) : List Byte :=
  xmssHash 1 (xmssHash 3 seed (adrs 0)) (xorBytes l (xmssHash 3 seed (adrs 1)) ++ xorBytes r (xmssHash 3 seed (adrs 2)))

/-- One level of an L-tree: pairs are hashed and an odd last node goes up. -/
def lTreeLevel (seed : List Byte) (adrs : Nat → Nat → List Byte) : Nat → List (List Byte) → List (List Byte)
  | i, a :: b :: r => xmssNode seed (adrs i) a b :: lTreeLevel seed adrs (i + 1) r
  | _, l => l

/-- The root of an L-tree of at most 2^`fuel` nodes, from height `k` up. -/
def lTree (seed : List Byte) (adrs : Nat → Nat → Nat → List Byte) : Nat → Nat → List (List Byte) → List Byte
  | 0, _, l => l.headD []
  | fuel + 1, k, l => if l.length ≤ 1 then l.headD [] else lTree seed adrs fuel (k + 1) (lTreeLevel seed (adrs k) 0 l)

/-- The root of one tree of height `h` from the one-time signature of leaf `leaf` over `m` and the leaf's authentication path. -/
def xmssRoot (seed : List Byte) (layer tree h leaf : Nat) (m sig : List Byte) : List Byte :=
  let ots := (wotsDigits m).zipIdx.map fun e =>
    wotsChain seed (fun i mask => xmssAdrs layer tree 0 leaf e.2 i mask) (15 - e.1) e.1 (sliceBytes sig (32 * e.2) 32)
  let node := lTree seed (fun k i mask => xmssAdrs layer tree 1 leaf k i mask) 7 0 ots
  (List.range h).foldl (fun node k =>
    let auth := sliceBytes sig (32 * (67 + k)) 32
    let adrs := xmssAdrs layer tree 2 0 k (leaf / 2 ^ (k + 1))
    if leaf / 2 ^ k % 2 = 0 then xmssNode seed adrs node auth else xmssNode seed adrs auth node) node

/-- Verification with `d` layers of height `h`: the set's identifier, the public key, the message and the signature, whose index takes
`n` bytes. -/
def xmssCheck (oid d h n : Nat) (key m sig : List Byte) : Bool :=
  let root := sliceBytes key 4 32
  let seed := sliceBytes key 36 32
  let index := beField sig 0 n
  let m' := xmssHash 2 (sliceBytes sig n 32 ++ root ++ beBytes 32 index) m
  beField key 0 4 == oid && index < 2 ^ (d * h) && sig.length == n + 32 + d * (32 * (67 + h)) &&
    (List.range d).foldl (fun node j => xmssRoot seed j (index / 2 ^ (h * (j + 1))) h (index / 2 ^ (h * j) % 2 ^ h) node
      (sliceBytes sig (n + 32 + j * (32 * (67 + h))) (32 * (67 + h)))) m' == root

/-- Verification with the parameter set of a signer (R440): 1 Kerquel, 2 owner, 3 device. -/
def xmssVerify (signer : Nat) (key m sig : List Byte) : Bool :=
  if signer = 1 then xmssCheck 0x12 1 20 4 key m sig
  else if signer = 2 then xmssCheck 0x2C 4 10 5 key m sig
  else xmssCheck 0x2D 8 5 5 key m sig

end Sys2Proof.Machine
end

