-- ==== Sys2Proof/Machine/Window.lean ====
section
/-! DEFINITION. Bulk windows and window references (R404, R412, R413), and signature blocks (R441 to R443). -/
namespace Sys2Proof.Machine

/-! ### Windows -/

/-- Byte address of an offset in a window: page `p` lies in its frame `p >> 5`. -/
def Window.addr (w : Window) (off : Nat) : Nat := w.frames.getD (off / 2 ^ 21) (2 ^ 20) * 2 ^ 21 + off % 2 ^ 21

/-- Bytes of a window. -/
def State.winBytes (s : State) (w : Window) (off n : Nat) : List Byte := (List.range n).map fun i => memRead s.mem (w.addr (off + i))

/-- Put bytes into a window. -/
def State.winPut (s : State) (w : Window) (off : Nat) (b : List Byte) : State :=
  { s with mem := b.zipIdx.foldl (fun m e => memWrite m (w.addr (off + e.2)) e.1) s.mem }

/-- The window of a reference: none where it is not mapped. -/
def State.window? (s : State) (w : Nat) : Option Window := (s.host.windows.find? fun e => e.1 == w).map Prod.snd

/-- A window reference (R404): window, first page, bytes. -/
def wrefOf (p : List Byte) (off : Nat) : Nat × Nat × Nat := (fieldLE p off 1, fieldLE p (off + 2) 2, fieldLE p (off + 4) 4)

/-- Its form: a window from 0 to 63, a page from 0 to 4,095, the reserved byte 0. -/
def wrefForm (p : List Byte) (off : Nat) : Bool :=
  fieldLE p off 1 < 64 && fieldLE p (off + 1) 1 == 0 && fieldLE p (off + 2) 2 < 4096

/-- Pages that a reference covers. -/
def wrefPages (r : Nat × Nat × Nat) : Nat × Nat × Nat := (r.1, r.2.1, (r.2.2 + 65535) / 65536)

/-- The pages of a reference lie in one mapped window and read DEVICE. -/
def State.wrefReady (s : State) (p : List Byte) (off : Nat) : Bool :=
  let r := wrefOf p off
  match s.window? r.1 with
  | some w => r.2.1 * 65536 + r.2.2 ≤ 2 ^ 28 && (List.range (wrefPages r).2.2).all fun i => w.device.contains (r.2.1 + i)
  | none => false

/-- The bytes that a reference names; zeros where the window is not mapped on this side. -/
def State.wrefBytes (s : State) (p : List Byte) (off : Nat) : List Byte :=
  let r := wrefOf p off
  match s.window? r.1 with
  | some w => s.winBytes w (r.2.1 * 65536) r.2.2
  | none => List.replicate r.2.2 0

/-- Write output to a reference, as far as it reaches. -/
def State.wrefPut (s : State) (p : List Byte) (off : Nat) (b : List Byte) : State :=
  let r := wrefOf p off
  match s.window? r.1 with
  | some w => s.winPut w (r.2.1 * 65536) (b.take r.2.2)
  | none => s

/-! ### Signature blocks -/

/-- A key slot is programmed and not revoked (R443). -/
def State.keyValid (s : State) (k : Nat) : Bool := s.fuse.programmed.getLsbD k && !s.fuse.revoked.getLsbD k

/-- An owner slot is valid. -/
def State.ownerValid (s : State) : Bool := s.keyValid 2 || s.keyValid 3 || s.keyValid 4 || s.keyValid 5

/-- Signature bytes of a signer (R440). -/
def sigBytes (signer : Nat) : Nat := if signer = 1 then 2820 else if signer = 2 then 9893 else 18469

/-- Bytes of a signature block (R441). -/
def sigBlockBytes (signer : Nat) : Nat := 96 + sigBytes signer + if signer = 3 then 3012 else 0

/-- The fields of a block that its signer and object fix (R441, R443). -/
def sigForm (signer otype : Nat) (b : List Byte) : Bool :=
  let slot := fieldLE b 3 1
  fieldLE b 0 2 == 0xA0 && fieldLE b 2 1 == signer && fieldLE b 4 2 == otype && zeroBytes b 6 2 && fieldLE b 8 4 == sigBytes signer &&
    fieldLE b 0xC 4 == (if signer = 3 then 3012 else 0) && zeroBytes b 0x54 12 && b.length == sigBlockBytes signer &&
    (if signer = 1 then slot < 2 else if signer = 2 then 2 ≤ slot && slot < 6 else slot == 0)

/-- The signature itself (R442). -/
def sigValid (signer : Nat) (digest : Digest) (b : List Byte) : Bool :=
  xmssVerify signer (sliceBytes b 0x10 68) (b.take 8 ++ digestBytes digest) (sliceBytes b 0x60 (sigBytes signer))

/-- A block of signer 1 or 2 is accepted (R443). -/
def State.sigFused (s : State) (signer otype : Nat) (digest : Digest) (b : List Byte) : Bool :=
  let slot := fieldLE b 3 1
  sigForm signer otype b && s.keyValid slot && s.fuse.keyHash.getD slot 0 == shake256 (sliceBytes b 0x10 68) && sigValid signer digest b

/-- A block of a device is accepted: its certificate verifies under a Kerquel slot and names its key (R441, R443). -/
def State.sigDevice (s : State) (otype : Nat) (digest : Digest) (b : List Byte) : Bool :=
  let cert := sliceBytes b (96 + 18469) 96
  sigForm 3 otype b && fieldLE cert 0 2 == 0xA1 && zeroBytes cert 2 6 && sliceBytes cert 0x10 68 == sliceBytes b 0x10 68 &&
    zeroBytes cert 0x54 12 && s.sigFused 1 0xA1 (shake256 cert) (b.drop (96 + 18469 + 96)) && sigValid 3 digest b

/-- A block is accepted from one of the signers permitted. -/
def State.sigOk (s : State) (signers : List Nat) (otype : Nat) (digest : Digest) (b : List Byte) : Bool :=
  let k := fieldLE b 2 1
  signers.contains k && if k = 3 then s.sigDevice otype digest b else s.sigFused k otype digest b

/-- A signature was refused: counted, and the interrupt (R443, R458). -/
def State.sigRefused (s : State) : State := (s.bump .secVerifyFailures).raise .secIntStatus 2

end Sys2Proof.Machine
end

