-- ==== Sys2Proof/Machine/Bedrock.lean ====
section
/-! DEFINITION. Bedrock checkpoints and restore (13_bedrock.md). -/
namespace Sys2Proof.Machine

/-! ### Dedup tables (R385) -/

/-- A writer entry: shard, position, side, first page, pages, map_writer. -/
structure WriterEntry where
  shard : Nat
  position : W16
  side : Bool
  first : Nat
  count : Nat
  map : Bool
  deriving DecidableEq, Repr

/-- Positions of a table with their shards, in order. -/
def dedupShards (t : List Byte) : List (W16 × Nat) :=
  (List.range (fieldLE t 8 2)).map fun i => (BitVec.ofNat 16 (fieldLE t (0x40 + 4 * i) 2), fieldLE t (0x42 + 4 * i) 2)

/-- Offset of the writer entries. -/
def dedupWritersAt (t : List Byte) : Nat := 0x40 + 4 * fieldLE t 8 2

/-- The writer entries. -/
def dedupWriters (t : List Byte) : List WriterEntry :=
  (List.range (fieldLE t 0xC 4)).map fun i =>
    let a := dedupWritersAt t + 16 * i
    let w := BitVec.ofNat 16 (fieldLE t (a + 2) 2)
    ⟨fieldLE t a 2, w &&& 0xFFF, w.getLsbD 15, fieldLE t (a + 4) 4, fieldLE t (a + 8) 4, (fieldLE t (a + 12) 1).testBit 0⟩

/-- The shard of a position. -/
def dedupShard (t : List Byte) (p : W16) : Nat := (((dedupShards t).find? fun e => e.1 == p).map Prod.snd).getD 0

/-- Positions of a job, in the order of its peloton's side A members. -/
def State.jobPositions (s : State) (j : Job) : List W16 := ((s.pel j.pelSlot).map fun t => t.plane false).getD []

/-- Every page from `n` on up to `leaves` lies in exactly one range. -/
def coverGo : Nat → List (Nat × Nat) → Nat → Nat → Bool
  | 0, l, n, leaves => l.isEmpty && n == leaves
  | f + 1, l, n, leaves =>
    match l.partition fun e => e.1 == n with
    | ([e], r) => e.2 != 0 && coverGo f r (n + e.2) leaves
    | ([], r) => r.isEmpty && n == leaves
    | _ => false

/-- The root's check of a dedup table. Of replica groups the root knows its own member list: positions that share a shard are all in it,
or none of them is (log entry 29). -/
def State.dedupOk (s : State) (j : Job) (t : List Byte) : Bool :=
  let ps := dedupShards t
  let ws := dedupWriters t
  let shards := (ps.map Prod.snd).eraseDups
  let own := if s.coverKind j = 1 then s.planeOf (j.coverSlot.getD 0) else [s.position]
  fieldLE t 0 2 == 0x72 && fieldLE t 2 2 == 1 && fieldLE t 4 4 == j.id.toNat && zeroBytes t 0x10 48 &&
    t.length == dedupWritersAt t + 16 * ws.length &&
    (List.range ws.length).all (fun i =>
      let a := dedupWritersAt t + 16 * i
      fieldLE t (a + 2) 2 / 2 ^ 12 % 8 == 0 && fieldLE t (a + 12) 1 < 2 && zeroBytes t (a + 13) 3) &&
    ps.length == (s.jobPositions j).length && (s.jobPositions j).all (fun p => (ps.filter fun e => e.1 == p).length == 1) &&
    shards.length == fieldLE t 0xA 2 &&
    shards.all (fun h =>
      let holders := (ps.filter fun e => e.2 == h).map Prod.fst
      (if s.coverKind j = 1 then holders.all (own.contains ·) || holders.all fun p => !own.contains p else holders.length == 1) &&
        (let mine := ws.filter fun w => w.shard == h
         coverGo mine.length (mine.map fun w => (w.first, w.count)) 0 j.leaves &&
          (mine.filter WriterEntry.map).length == 1)) &&
    ws.all fun w => ps.any fun e => e.1 == w.position && e.2 == w.shard

/-! ### Chunks (R380, R386, R387) -/

/-- Bytes of a chunk's payload at most. -/
def chunkMax : Nat := 2 ^ 21

/-- Chunks of an object of `n` bytes. -/
def chunkCount (n : Nat) : Nat := (n + chunkMax - 1) / chunkMax

/-- A chunk header (R386). -/
def chunkHeader (job : W32) (bid step : W64) (owner kind : Nat) (side : Nat) (writer : W16) (index bytes total : Nat) (digest : Digest) :
    List Byte :=
  sliceBytes (leBytes 2 0x71 ++ leBytes 2 1 ++ leBytes 4 job.toNat ++ leBytes 8 bid.toNat ++ leBytes 8 step.toNat ++ leBytes 2 owner ++
    leBytes 1 kind ++ leBytes 1 side ++ leBytes 2 writer.toNat ++ leBytes 2 0 ++ leBytes 4 index ++ leBytes 4 bytes ++ leBytes 8 total ++
    digestBytes digest) 0 128

/-- The owner field of a chunk of this side. -/
def State.chunkOwner (s : State) (b : Bedrock) (kind : Nat) : Nat :=
  if kind = 3 then s.position.toNat else if kind = 4 then 0 else dedupShard b.dedup s.position

/-- A whole object but the state pages: the map object, the member object, the manifest. -/
def Job.bedObject (j : Job) (b : Bedrock) (kind : Nat) : List Byte :=
  if kind = 2 then (j.strata.pin.map mapItem).getD [] else if kind = 3 then b.member else b.manifest.getD []

/-- The payload of a chunk, and the bytes of its object. -/
def State.chunkPayload (s : State) (j : Job) (b : Bedrock) (kind index : Nat) : List Byte × Nat :=
  if kind = 1 then (s.frameBytes (j.strata.pin.bind fun t => mapFrame t.map index), j.leaves * chunkMax)
  else ((((j.bedObject b kind).drop (index * chunkMax)).take chunkMax), (j.bedObject b kind).length)

/-- Bytes that the spec leaves open: free values (log entry 3). -/
def State.freeBytes (s : State) : Nat → List Byte × State
  | 0 => ([], s)
  | n + 1 => let (l, t) := s.freeBytes n; let (b, t) := t.free 8; (l ++ [b], t)

/-- The member object of a step: side A's record, side B's, and the reports. The partner's record of a step that committed on this
side alone is open (R380, log entry 29). -/
def State.memberObject (s : State) (j : Job) (n : W64) : List Byte × State :=
  let own := ((j.record? n).getD []).take 0xE0
  let (other, t) := match j.partnerChain.find? fun r => fieldLE r 8 8 == n.toNat with
    | some r => (r.take 0xE0, s)
    | none => s.freeBytes 0xE0
  let reports := (((j.tables.find? fun e => e.1 == n).map Prod.snd).getD []).flatMap Prod.snd
  ((if s.sideB then other ++ own else own ++ other) ++ reports, t)

/-- Chunks that this side writes, in order; with `both` also those of its partner's entries. -/
def State.bedChunks (s : State) (j : Job) (b : Bedrock) (both : Bool) : List (Nat × Nat) :=
  let mine := (dedupWriters b.dedup).filter fun w => w.position == s.position && (both || w.side == s.sideB)
  let pages := mine.flatMap fun w => (List.range w.count).map fun i => w.first + i
  let upto := (List.range j.leaves).filter fun p => pages.contains p
  upto.map (fun p => (1, p)) ++
    (if mine.any WriterEntry.map then (List.range (chunkCount (j.bedObject b 2).length)).map fun i => (2, i) else []) ++
    (if s.leads then (List.range (chunkCount b.member.length)).map fun i => (3, i) else [])

/-- A free slot. -/
def Targets.slot? (t : Targets) : Option Nat := (List.range t.slots.length).find? fun k => !t.busy.contains k

/-- Put an entry into the bedrock completion ring, and raise vector 1 (R387, R417). -/
def State.ringEntry (s : State) (t : Targets) (slot : Nat) (header : List Byte) : State :=
  (({ s with host.targets := some { t with busy := t.busy ++ [slot], written := t.written + 1 } }).emit
    (.hostWrite (t.ringBase.toNat + 64 * (t.written % 4096)) (leBytes 2 slot ++ List.replicate 14 0 ++ header.take 0x30))).raise
    .hstIntStatus 2

/-- A writer writes its next chunk into a free slot (R387, R388, R397, R398). -/
def State.chunkWrite (s : State) (id : W32) : State :=
  s.onJob id fun j =>
    match j.bed, s.host.targets with
    | some b, some t =>
      (match b.chunks, t.slot? with
      | c :: r, some k =>
        if !s.host.busMaster || !s.host.linkOk then s
        else
          let (p, total) := s.chunkPayload j b c.1 c.2
          let h := chunkHeader j.id b.id (b.step.getD 0) (s.chunkOwner b c.1) c.1 s.sideNat s.position c.2 p.length total (shake256 p)
          let s := s.setJob { j with bed := some { b with chunks := r, busy := b.busy ++ [k] } }
          (s.emit (.hostWrite (t.slots.getD k (0, 0)).1.toNat (h ++ p))).ringEntry t k h
      | _, _ => s)
    | _, _ => s

/-! ### Messages of a bedrock (R383, R384, R389, R392; log entry 29) -/

/-- What a command transfer of purpose 6 carries when it is no command: its number stands in the opcode's place. -/
def bedReport : Nat := 0x8001
def bedSealed : Nat := 0x8002
def bedAbandon : Nat := 0x8003
def bedResend : Nat := 0x8004
def bedWarning : Nat := 0x8005
def bedFailed : Nat := 0x8006

/-- The 256 bytes of such a message. -/
def bedPacket (op : Nat) (job : W32) (bid : W64) (body : List Byte) : List Byte :=
  sliceBytes (leBytes 2 op ++ leBytes 2 1 ++ leBytes 4 job.toNat ++ leBytes 8 bid.toNat ++ List.replicate 48 0 ++ body) 0 256

/-- Down from the root: along the own plane's tree, and to the partner, which sends it along its own. -/
def State.bedDown (s : State) (j : Job) (packet : List Byte) (b : W64) : State :=
  let x := BitVec.ofNat 64 (6 * 2 ^ 60 + fieldLE packet 0 1 * 2 ^ 51 + fieldLE packet 8 8 % 2 ^ 51)
  (s.cmdSpread j packet b).pairData 6 x j.id none s.position (leBytes 8 b.toNat ++ packet)

/-- Up to the root's position: on the own plane; the root's side that does not lead passes it to its partner. -/
def State.bedUp (s : State) (j : Job) (packet : List Byte) : State :=
  let x := BitVec.ofNat 64 (6 * 2 ^ 60 + fieldLE packet 0 1 * 2 ^ 51 + fieldLE packet 8 8 % 2 ^ 51)
  let data := leBytes 8 (2 ^ 64 - 1) ++ packet
  match s.jobIdx j, (s.planeOf j.pelSlot)[0]? with
  | 0, _ => s.pairData 6 x j.id none s.position data
  | _, some d => s.sendTransfer x d 6 j.id none data
  | _, none => s

/-- This side takes the decisions of the job's root. -/
def State.isRoot (s : State) (j : Job) : Bool := s.jobIdx j == 0 && s.leads

/-! ### Sealing (R389 to R392) -/

/-- The 128 bytes of a member report (log entry 29): digest of the member object, stratum root, digest and bytes of the map object,
pinned step, leaves, position, shard, side, flags (member object, map, both sides' entries) and bytes of the member object. -/
def State.memberReport (s : State) (j : Job) (b : Bedrock) : List Byte :=
  let mine := (dedupWriters b.dedup).filter fun w => w.position == s.position && (b.both || w.side == s.sideB)
  let map := mine.any WriterEntry.map
  let wrote := s.leads
  let m := if map then j.bedObject b 2 else []
  sliceBytes ((if wrote then digestBytes (shake256 b.member) else List.replicate 32 0) ++
    (if map then digestBytes ((j.strata.pin.map Stratum.root).getD 0) ++ digestBytes (shake256 m) else List.replicate 64 0) ++
    leBytes 8 m.length ++ leBytes 8 (b.step.getD 0).toNat ++ leBytes 4 (if map then j.leaves else 0) ++ leBytes 2 s.position.toNat ++
    leBytes 2 (dedupShard b.dedup s.position) ++ leBytes 1 s.sideNat ++
    leBytes 1 ((if wrote then 1 else 0) + (if map then 2 else 0) + if b.both then 4 else 0) ++
    leBytes 4 (if wrote then b.member.length else 0)) 0 128

/-- The UNPIN flip and the end of a bedrock on this side (R76, R389, R392). -/
def State.bedEnd (s : State) (id : W32) (code detail : Nat) (result : W64) : State :=
  s.onJob id fun j =>
    match j.bed with
    | none => s
    | some b =>
      let held := j.strata.pin.isSome
      let s := s.setJob { j with bed := none, strata := { j.strata with pinCopy := none } }
      let s := if held then s.flipped id fun t => { t with pin := none } else s
      s.finish b.cmd code detail result

/-- The root abandons the bedrock (R392). -/
def State.bedAbandonNow (s : State) (id : W32) (code detail : Nat) : State :=
  s.onJob id fun j =>
    match j.bed with
    | none => s
    | some b => ((s.bedDown j (bedPacket bedAbandon j.id b.id (leBytes 2 code ++ leBytes 2 detail)) (2 ^ 64 - 1)).bedEnd id code detail 0)

/-- The reports that the root waits for are there: every position's member object, and every writer entry. -/
def Bedrock.complete (b : Bedrock) : Bool :=
  let has := fun (p : W16) (side : Bool) => b.reports.any fun r => fieldLE r 0x74 2 == p.toNat &&
    ((fieldLE r 0x78 1 == if side then 1 else 0) || (fieldLE r 0x79 1).testBit 2)
  (dedupShards b.dedup).all (fun e => b.reports.any fun r => fieldLE r 0x74 2 == e.1.toNat && (fieldLE r 0x79 1).testBit 0) &&
    (dedupWriters b.dedup).all fun w => has w.position w.side

/-- The first position whose member-object writer or whose writers have not reported. -/
def Bedrock.missing (b : Bedrock) : Nat :=
  let whole := fun (p : W16) => (b.reports.any fun r => fieldLE r 0x74 2 == p.toNat && (fieldLE r 0x79 1).testBit 0) &&
    ((dedupWriters b.dedup).filter fun w => w.position == p).all fun w => b.reports.any fun r => fieldLE r 0x74 2 == p.toNat &&
      ((fieldLE r 0x78 1 == if w.side then 1 else 0) || (fieldLE r 0x79 1).testBit 2)
  (((dedupShards b.dedup).map Prod.fst).find? fun p => !whole p).elim 0 BitVec.toNat

/-- Insert by a key, for an ascending order. -/
def insertBy {α : Type} (key : α → Nat) (x : α) : List α → List α
  | [] => [x]
  | y :: r => if key x < key y then x :: y :: r else y :: insertBy key x r

/-- A manifest without its signature (R390). -/
def State.manifestBytes (s : State) (j : Job) (b : Bedrock) : List Byte :=
  let shards := ((dedupShards b.dedup).map Prod.snd).eraseDups.foldr (insertBy fun x => x) []
  let rep := fun (f : List Byte → Bool) => (b.reports.find? f).getD []
  let shape := j.desc.take (j.desc.length - 128)
  sliceBytes (leBytes 2 0x70 ++ leBytes 2 1 ++ leBytes 4 j.id.toNat ++ leBytes 8 b.id.toNat ++ leBytes 8 (b.step.getD 0).toNat ++
      leBytes 2 (dedupShards b.dedup).length ++ leBytes 2 shards.length ++ leBytes 2 s.pwr.strapsAt.id.toNat ++ leBytes 1 s.sideNat ++
      leBytes 1 0 ++ digestBytes (shake256 shape) ++ digestBytes (shake256 b.dedup) ++ timeBytes s.outTime) 0 128 ++
    shards.flatMap (fun h =>
      let r := rep fun r => fieldLE r 0x76 2 == h && (fieldLE r 0x79 1).testBit 1
      leBytes 2 h ++ leBytes 2 0 ++ sliceBytes r 0x70 4 ++ sliceBytes r 0x60 8 ++ sliceBytes r 0x20 32 ++ sliceBytes r 0x40 32 ++
        List.replicate 16 0) ++
    (s.jobPositions j).flatMap fun p =>
      let r := rep fun r => fieldLE r 0x74 2 == p.toNat && (fieldLE r 0x79 1).testBit 0
      leBytes 2 p.toNat ++ leBytes 2 (dedupShard b.dedup p) ++ sliceBytes r 0x7A 4 ++ List.replicate 24 0 ++ sliceBytes r 0 32

/-- The root receives a member report: with the last one it builds the manifest and asks for its signature (R389, R391). -/
def State.memberReportRx (s : State) (id : W32) (bid : W64) (r : List Byte) : State :=
  s.onJob id fun j =>
    match j.bed with
    | none => s
    | some b =>
      if b.id != bid || !s.isRoot j || b.manifest.isSome then s
      else
        let same := fun (x : List Byte) => fieldLE x 0x74 2 == fieldLE r 0x74 2 && fieldLE x 0x78 1 == fieldLE r 0x78 1
        let b := { b with reports := (b.reports.filter fun x => !same x) ++ [sliceBytes r 0 128] }
        let s := s.setJob { j with bed := some b }
        if (b.reports.any fun x => fieldLE x 0x68 8 != fieldLE r 0x68 8) then s.bedAbandonNow id 0x0504 (fieldLE r 0x74 2)
        else if b.complete then
          let m := s.manifestBytes j b
          let s := s.setJob { j with bed := some { b with manifest := some m } }
          { s with sec.mailbox := s.sec.mailbox ++ [.manifest m] }
        else s

/-- The manifest is signed: it is written as chunks of kind 4 (R389, R391). -/
def State.manifestSigned (s : State) (m block : List Byte) : State :=
  let put := fun (b : Bedrock) =>
    if b.manifest == some m then
      { b with manifest := some (m ++ block), signed := true, chunks := (List.range (chunkCount (m ++ block).length)).map fun i => (4, i) }
    else b
  s.modJob (BitVec.ofNat 32 (fieldLE m 4 4)) fun j => { j with bed := j.bed.map put }

/-- The core has refused to sign: the bedrock ends with SIGNATURE (R450). -/
def State.manifestRefused (s : State) (m : List Byte) : State := s.bedAbandonNow (BitVec.ofNat 32 (fieldLE m 4 4)) 0x0108 0

/-- Send the own report, to the root or into its own list. -/
def State.reportSend (s : State) (id : W32) : State :=
  s.onJob id fun j =>
    match j.bed with
    | none => s
    | some b =>
      let r := s.memberReport j b
      if s.isRoot j then s.memberReportRx id b.id r else s.bedUp j (bedPacket bedReport j.id b.id r)

/-- What a completion names besides the step, which is its result: the bedrock's ID and a digest, in an event (R389, R395; log entry 38). -/
def State.reportNamed (s : State) (id : W32) (step bid : W64) (d : Option Digest) : State :=
  s.evReason 0 .str 0xFFFF id step (bid.toNat :: d.elim [] fun d => (List.range 4).map fun i => d.toNat / 2 ^ (64 * i) % 2 ^ 64)

/-- The bedrock of a job goes on: pin, list of chunks, report, seal. -/
def State.bedGo (s : State) (id : W32) : State :=
  s.onJob id fun j =>
    match j.bed with
    | none => s
    | some b =>
      match b.step with
      | none =>
        if j.strata.pin.isNone && j.strata.pinCopy.isNone && (j.phase != .running || b.boundary.toNat ≤ j.committed.toNat) then
          s.setJob { j with strata := j.strata.pinBegin }
        else s
      | some n =>
        if !b.listed then
          let (m, s) := s.memberObject j n
          let b := { b with member := m }
          let both := s.pair.partnerFailed
          s.setJob { j with bed := some { b with listed := true, both := both, chunks := s.bedChunks j b both } }
        else if s.pair.partnerFailed && !b.both then
          let more := (s.bedChunks j b true).filter fun c => !(s.bedChunks j b false).contains c
          s.setJob { j with bed := some { b with both := true, chunks := b.chunks ++ more, ownDone := false } }
        else if !b.chunks.isEmpty || !b.busy.isEmpty then s
        else if !b.ownDone then (s.setJob { j with bed := some { b with ownDone := true } }).reportSend id
        else if b.signed && s.isRoot j then
          let s := s.reportNamed j.id n b.id (b.manifest.map shake256)
          (s.bedDown j (bedPacket bedSealed j.id b.id []) (2 ^ 64 - 1)).bedEnd id 0 0 n
        else s

/-! ### Starting a bedrock (R383, R384) -/

/-- A bedrock as it begins on a side. -/
def Bedrock.begin_ (bid cmd b : W64) (root : Bool) (dedup : List Byte) (timeout : Nat) : Bedrock where
  id := bid
  cmd := cmd
  root := root
  boundary := b
  step := none
  dedup := dedup
  timeoutS := timeout
  listed := false
  both := false
  chunks := []
  member := []
  busy := []
  ownDone := false
  reports := []
  manifest := none
  signed := false

/-- What this side has to write for a bedrock: a writer entry of its own, or the member object (R380, R382). -/
def State.bedRole (s : State) (dedup : List Byte) : Bool :=
  s.leads || (dedupWriters dedup).any fun w => w.position == s.position && w.side == s.sideB

/-- An auto-bedrock that the partner has started uses up the arm on this side too, which keeps it for a switch of roles (R384). -/
def Job.armUsed (j : Job) (bid : W64) : Job :=
  { j with arm := j.arm.bind fun a => if a.idBase = bid then (if a.count = 1 then none else some { a with count := a.count - 1, idBase := a.idBase + 1 })
                                      else some a }

/-- A member takes part from boundary `b` on; one that runs and has committed `b` pins nothing and says so. A side without targets refuses its
role (R382; log entry 29). -/
def State.bedJoin (s : State) (id : W32) (bid cmd b : W64) (dedup : List Byte) (timeout : Nat) : State :=
  s.onJob id fun j =>
    if j.bed.isSome then s
    else if s.host.targets.isNone && s.bedRole dedup then
      s.bedUp j (bedPacket bedFailed j.id bid (leBytes 2 0x010B ++ leBytes 2 s.position.toNat))
    else if j.phase == .running && b.toNat ≤ j.committed.toNat then
      s.bedUp j (bedPacket bedFailed j.id bid (leBytes 2 0x0503 ++ leBytes 2 s.position.toNat))
    else
      (s.setJob { j with bed := some (Bedrock.begin_ bid cmd b (s.jobIdx j == 0) dedup timeout), bedAt := some s.now }).bedGo id

/-- The root starts a bedrock: its members hear of it, and the root takes part. -/
def State.bedStart (s : State) (id : W32) (bid cmd b : W64) (packet dedup : List Byte) (timeout : Nat) (tell : Bool) : State :=
  s.onJob id fun j =>
    let p := sliceBytes packet 0 256 ++ dedup
    let s := if tell then s.bedDown j p b else s.cmdSpread j p b
    s.bedJoin id bid cmd b dedup timeout

/-- A failure warning reaches the root: an armed job starts a bedrock (R384). -/
def State.warningRx (s : State) (id : W32) : State :=
  s.onJob id fun j =>
    if !s.isRoot j then s
    else
      match j.arm with
      | some a =>
        if j.bed.isNone && a.count != 0 && (j.bedAt.all fun t => t + a.minInterval * 10 ^ 9 ≤ s.now) && s.host.targets.isSome &&
            j.restore.isNone && (j.phase == .running || j.phase == .held) then
          let bid := a.idBase
          let s := s.setJob { j with arm := if a.count = 1 then none else some { a with count := a.count - 1, idBase := a.idBase + 1 } }
          s.bedStart id bid 0 (j.committed + 2) (bedPacket 0x0213 id 0 (leBytes 8 bid.toNat ++ leBytes 4 a.timeoutS)) a.dedup a.timeoutS true
        else s.evReason 0 .str 9 id j.eventIdent []
      | none => s.evReason 0 .str 9 id j.eventIdent []

/-- This controller reports a failure warning to the root of each of its jobs (R87, R269, R283, R384). -/
def State.failureWarning (s : State) : State :=
  s.jobs.vals.foldl (fun t j =>
    if j.phase == .staged then t
    else if t.isRoot j then t.warningRx j.id
    else t.bedUp j (bedPacket bedWarning j.id 0 [])) s

/-- SEALED, or ABANDON, reaches a member (R389, R392). -/
def State.sealedRx (s : State) (id : W32) (bid : W64) : State :=
  s.onJob id fun j => if j.bed.any fun b => b.id == bid then s.bedEnd id 0 0 ((j.bed.bind Bedrock.step).getD 0) else s
def State.abandonRx (s : State) (id : W32) (bid : W64) (code detail : Nat) : State :=
  s.onJob id fun j => if j.bed.any fun b => b.id == bid then s.bedEnd id code detail 0 else s

/-- The bedrock's timeout has passed (R392): the root abandons it; a member whose slots have not come back says so. -/
def State.bedTimeout (s : State) (id : W32) : State :=
  s.onJob id fun j =>
    match j.bed with
    | none => s
    | some b =>
      let stuck := !b.busy.isEmpty
      if s.isRoot j then (if stuck then s.bedAbandonNow id 0x0502 s.position.toNat else s.bedAbandonNow id 0x0501 b.missing)
      else if stuck then s.bedUp j (bedPacket bedFailed j.id b.id (leBytes 2 0x0502 ++ leBytes 2 s.position.toNat))
      else s

/-- A member has said that it pins nothing, or that its slots have not come back: the root abandons. -/
def State.bedFailedRx (s : State) (id : W32) (bid : W64) (code detail : Nat) : State :=
  s.onJob id fun j => if s.isRoot j && j.bed.any fun b => b.id == bid then s.bedAbandonNow id code detail else s

/-- The surviving side takes the root role of a bedrock whose root has failed: every member is to send its report again (R392). -/
def State.bedTakeOver (s : State) (id : W32) : State :=
  s.onJob id fun j =>
    match j.bed with
    | some b =>
      if s.isRoot j && !b.signed then
        (s.cmdSpread j (bedPacket bedResend j.id b.id []) (2 ^ 64 - 1)).modJob id fun j =>
          { j with bed := j.bed.map fun (b : Bedrock) => { b with ownDone := false } }
      else s
    | none => s

/-- The report is asked for again. -/
def State.bedResendRx (s : State) (id : W32) : State := s.onJob id fun j => if j.bed.any Bedrock.ownDone then s.reportSend id else s

/-! ### Restoring (R393 to R395) -/

/-- Entry of a shard, and of a position, in a manifest: its offset. -/
def manShard (m : List Byte) (shard : Nat) : Option Nat :=
  ((List.range (fieldLE m 0x1A 2)).find? fun i => fieldLE m (128 + 96 * i) 2 == shard).map fun i => 128 + 96 * i
def manMember (m : List Byte) (p : W16) : Option Nat :=
  let a := 128 + 96 * fieldLE m 0x1A 2
  ((List.range (fieldLE m 0x18 2)).find? fun i => fieldLE m (a + 64 * i) 2 == p.toNat).map fun i => a + 64 * i

/-- Bytes of a manifest before its signature. -/
def manBytes (m : List Byte) : Nat := 128 + 96 * fieldLE m 0x1A 2 + 64 * fieldLE m 0x18 2

/-- The check of a candidate at the root: 0, SIGNATURE or SHAPE (R394). -/
def State.candidateCode (s : State) (j : Job) (m : List Byte) : Nat :=
  let body := m.take (manBytes m)
  if fieldLE m 0 2 != 0x70 || fieldLE m 2 2 != 1 || !s.sigDevice 0x70 (shake256 body) ((m.drop (manBytes m)).take (sigBlockBytes 3)) then 1
  else if fieldLE m 4 4 != j.id.toNat || fieldLE m 0x20 32 != (shake256 (j.desc.take (j.desc.length - 128))).toNat then 2
  else 0

/-- Offsets of this member's entries in the manifest under way: its shard and its member entry. -/
def State.manEntries (s : State) (m : List Byte) : Option (Nat × Nat) :=
  (manMember m s.position).bind fun p => (manShard m (fieldLE m (p + 2) 2)).map fun h => (h, p)

/-- A member begins to read a candidate (R394 step 2). -/
def State.restoreTake (s : State) (id : W32) (cmd : W64) (timeout number : Nat) (m : List Byte) : State :=
  s.onJob id fun j =>
    let r := j.restore.getD ⟨cmd, false, timeout, [], 0, [], [], [], [], [], none, none, false⟩
    let r := { r with number := number, manifest := m, asked := [], got := [], loaded := none, failed := none, entered := false, todo := [] }
    let code := if j.phase != .staged || s.host.targets.isNone then some 3
      else if fieldLE m 0x20 32 != (shake256 (j.desc.take (j.desc.length - 128))).toNat then some 2 else none
    let r := match code, s.manEntries m with
      | none, some (h, p) => { r with todo := ((List.range (chunkCount (fieldLE m (p + 4) 4))).map fun i => (3, i)) ++
          (List.range (chunkCount (fieldLE m (h + 8) 8))).map fun i => (2, i) }
      | none, none => { r with failed := some 3 }
      | c, _ => { r with failed := c }
    s.setJob { j with restore := some r }

/-- The bytes that a chunk asked for must have, and the bytes of its object. -/
def State.askedBytes (s : State) (j : Job) (m : List Byte) (kind index : Nat) : Nat × Nat :=
  match s.manEntries m with
  | none => (0, 0)
  | some (h, p) =>
    if kind = 1 then (chunkMax, j.leaves * chunkMax)
    else
      let n := if kind = 3 then fieldLE m (p + 4) 4 else fieldLE m (h + 8) 8
      (min chunkMax (n - index * chunkMax), n)

/-- The owner of a chunk asked for. -/
def State.askedOwner (s : State) (m : List Byte) (kind : Nat) : Nat :=
  if kind = 3 then s.position.toNat else ((s.manEntries m).map fun e => fieldLE m e.1 2).getD 0

/-- Ask for the next chunks while slots are free. -/
def State.restoreAsk (id : W32) : Nat → State → State
  | 0, s => s
  | n + 1, s =>
    match s.job? id, s.host.targets with
    | some j, some t =>
      (match j.restore with
      | some r =>
        (match r.todo, t.slot? with
        | c :: rest, some k =>
          if r.failed.isSome || !s.host.busMaster || !s.host.linkOk then s
          else
            let (len, total) := s.askedBytes j r.manifest c.1 c.2
            let h := chunkHeader id (BitVec.ofNat 64 (fieldLE r.manifest 8 8)) (BitVec.ofNat 64 (fieldLE r.manifest 0x10 8))
              (s.askedOwner r.manifest c.1) c.1 0 0 c.2 len total 0
            let s := s.setJob { j with restore := some { r with todo := rest, asked := r.asked ++ [(k, c.1, c.2)] } }
            State.restoreAsk id n (s.ringEntry t k h)
        | _, _ => s)
      | none => s)
    | _, _ => s

/-- An object read in chunks, in order. -/
def Restore.object (r : Restore) (kind : Nat) : List Byte :=
  let l := r.got.filter fun g => g.1 == kind
  (List.range l.length).flatMap fun i => ((l.find? fun g => g.2.1 == i).map fun g => g.2.2).getD []

/-- The check of a chunk (R394 codes 3 to 5); 0 where it passes. -/
def State.chunkCode (s : State) (j : Job) (r : Restore) (kind index : Nat) (c : List Byte) : Nat :=
  let m := r.manifest
  let (len, total) := s.askedBytes j m kind index
  if fieldLE c 0 2 != 0x71 || fieldLE c 2 2 != 1 || fieldLE c 0x18 2 != s.askedOwner m kind || fieldLE c 0x1A 1 != kind ||
      fieldLE c 0x20 4 != index || fieldLE c 0x24 4 != len || fieldLE c 0x28 8 != total then 3
  else if fieldLE c 4 4 != j.id.toNat || fieldLE c 8 8 != fieldLE m 8 8 || fieldLE c 0x10 8 != fieldLE m 0x10 8 then 4
  else if fieldLE c 0x30 32 != (shake256 (sliceBytes c 128 len)).toNat then 5
  else 0

/-- The eight reports of a member object, by site. -/
def memberReportsGo : Nat → Nat → List Byte → Tbl (List Byte)
  | 0, _, _ => []
  | f + 1, k, b =>
    if b.isEmpty then []
    else let n := 0x50 + 4 * fieldLE b 0xA 2; (k, b.take n) :: memberReportsGo f (k + 1) (b.drop n)
def memberReports (b : List Byte) : Tbl (List Byte) := memberReportsGo 8 0 (b.drop 448)

/-- The checks of a whole member object (R394 codes 4 to 8). -/
def State.memberCode (s : State) (m b : List Byte) : Nat :=
  match s.manEntries m with
  | none => 3
  | some (h, p) =>
    let a := b.take 224
    let c := sliceBytes b 224 224
    let n := fieldLE m 0x10 8
    let reps := memberReports b
    if fieldLE a 8 8 != n || fieldLE c 8 8 != n || reps.any fun e => fieldLE e.2 0 8 != n then 4
    else if (shake256 b).toNat != fieldLE m (p + 0x20) 32 then 5
    else if !recordsAgree a c then 6
    else if fieldLE a 0x20 32 != fieldLE m (h + 0x10) 32 || fieldLE c 0x20 32 != fieldLE m (h + 0x10) 32 then 7
    else if (rngDigest reps).toNat != fieldLE a 0x60 32 || (rngDigest reps).toNat != fieldLE c 0x60 32 ||
        (cursorDigest reps).toNat != fieldLE a 0x80 32 || (cursorDigest reps).toNat != fieldLE c 0x80 32 then 8
    else 0

/-- The restore of a candidate fails on this member with a code. -/
def State.restoreFail (s : State) (id : W32) (code : Nat) : State :=
  s.modJob id fun j => { j with restore := j.restore.map fun (r : Restore) =>
    { r with failed := some (r.failed.getD code), todo := [], loaded := none, got := [] } }

/-- A chunk asked for has been placed in its slot (R394 step 2, 3). -/
def State.restoreChunk (s : State) (j : Job) (r : Restore) (kind index : Nat) (c : List Byte) : State :=
  let code := s.chunkCode j r kind index c
  if r.failed.isSome then s
  else if code != 0 then s.restoreFail j.id code
  else
    let len := (s.askedBytes j r.manifest kind index).1
    let p := sliceBytes c 128 len
    if kind = 1 then
      match r.loaded with
      | none => s
      | some t =>
        if (Tbl.get t.leaf 0 index) != leafDigest 0x4C j.id index p && Tbl.has t.leaf index then s.restoreFail j.id 5
        else if Tbl.has t.leaf index then
          (match s.placePage j.id (j.home index) p with
          | none => (s.restoreFail j.id 3)
          | some (s, f) => s.modJob j.id fun j => { j with restore := j.restore.map fun (r : Restore) =>
              { r with loaded := some { t with map := Tbl.set t.map index f } } })
        else s
    else
      let r := { r with got := r.got ++ [(kind, index, p)] }
      let s := s.setJob { j with restore := some r }
      let whole := (r.object kind).length = (s.askedBytes j r.manifest kind 0).2
      if !whole then s
      else if kind = 3 then (let k := s.memberCode r.manifest (r.object 3); if k = 0 then s else s.restoreFail j.id k)
      else
        let m := r.object 2
        let h := ((s.manEntries r.manifest).map Prod.fst).getD 0
        if (shake256 m).toNat != fieldLE r.manifest (h + 0x30) 32 then s.restoreFail j.id 5
        else
          let t := { mapItemStratum m with leaf := mapItemPages m }
          s.setJob { j with restore := some { r with loaded := some t, todo := r.todo ++ (List.range j.leaves).map fun p => (1, p) } }

/-- A candidate is read and judged on this member: the barrier (R394 step 4). The candidates of one restore differ in the layer field
of their barrier's instance (log entry 27). -/
def State.restoreGo (s : State) (id : W32) : State :=
  let s := State.restoreAsk id 64 s
  s.onJob id fun j =>
    match j.restore with
    | none => s
    | some r =>
      if r.entered || r.manifest.isEmpty || (r.failed.isNone && !(r.todo.isEmpty && r.asked.isEmpty)) then s
      else
        let h := ((s.manEntries r.manifest).map Prod.fst).getD 0
        let code := match r.failed, r.loaded with
          | some c, _ => c
          | none, some t => if (s.rootOf j t).toNat = fieldLE r.manifest (h + 0x10) 32 then 0 else 5
          | none, none => 3
        let s := s.setJob { j with restore := some { r with entered := true, failed := if code = 0 then none else some code } }
        s.collStart id .barrier r.cmd (BitVec.ofNat 16 r.number) 0
          [.and (if code = 0 then 1 else 0), .min (if code = 0 then 2 ^ 64 - 1 else BitVec.ofNat 64 (code * 2 ^ 32 + s.jobIdx j))]

/-- The codes and members of the candidates that failed, 8 entries of 4 bytes (R416). -/
def Restore.entries (r : Restore) : List Byte :=
  sliceBytes (r.codes.flatMap fun (c : Nat × Nat) => leBytes 1 c.1 ++ [0] ++ leBytes 2 c.2) 0 32

/-- Write them to the output of the command. -/
def State.restoreOut (s : State) (r : Restore) : State :=
  match s.run? r.cmd with
  | some x => s.wrefPut x.params 8 r.entries
  | none => s

/-- The root turns to its next candidate, or ends the restore (R394, R395). -/
def State.restoreNext (id : W32) : Nat → State → State
  | 0, s => s
  | n + 1, s =>
    match s.job? id with
    | none => s
    | some j =>
      match j.restore with
      | none => s
      | some r =>
        match r.candidates with
        | [] =>
          let s := s.restoreOut r
          (s.setJob { j with restore := none }).finish r.cmd (0x0400 + ((r.codes.getLast?.map Prod.fst).getD 0))
            ((r.codes.getLast?.map Prod.snd).getD 0)
        | m :: rest =>
          let code := s.candidateCode j m
          let k := if r.manifest.isEmpty && r.codes.isEmpty then 0 else r.number + 1
          let r := { r with candidates := rest, number := k }
          if code != 0 then
            let s := if code = 1 then s.sigRefused else s
            State.restoreNext id n (s.setJob { j with restore := some { r with codes := r.codes ++ [(code, 0)] } })
          else
            let packet := bedPacket 0x0217 id r.cmd (leBytes 4 r.timeoutS) ++ m
            let s := (s.setJob { j with restore := some r }).cmdSpread j packet (BitVec.ofNat 64 k)
            s.restoreTake id r.cmd r.timeoutS k m

/-- BEDROCK_RESTORE on a side of the root. -/
def State.restoreBegin (s : State) (id : W32) (cmd : W64) (timeout : Nat) (candidates : List (List Byte)) : State :=
  s.onJob id fun j =>
    State.restoreNext id 9 (s.setJob { j with
      restore := some ⟨cmd, true, timeout, candidates, 0, [], [], [], [], [], none, none, false⟩ })

/-- Install the candidate on this member (R395). -/
def State.restoreInstall (s : State) (id : W32) : State :=
  s.onJob id fun j =>
    match j.restore.bind fun r => r.loaded.map fun t => (r, t) with
    | none => s
    | some (r, t) =>
      let n := BitVec.ofNat 64 (fieldLE r.manifest 0x10 8)
      let b := r.object 3
      let rec_ := fun (side : Bool) => if side then sliceBytes b 224 224 else b.take 224
      let h := ((s.manEntries r.manifest).map Prod.fst).getD 0
      let w := { t with step := n, root := BitVec.ofNat 256 (fieldLE r.manifest (h + 0x10) 32) }
      let s := s.setJob { j with restore := none, silt := [], chain := [s.tagRecord (rec_ s.sideB)], partnerChain := [rec_ (!s.sideB)]
                                 tables := [(n, memberReports b)], inVote := none }
      let s := s.flipped id fun x => { x with committed := w, assayed := w, working := none, retained := [], pin := none, pinCopy := none
                                              held := true }
      let s := { s with asy.history := s.asy.history.map fun (h : SigHist) => if h.job == id then { h with seen := 0 } else h }
      let s := s.restoreOut r
      let s := if r.root then s.reportNamed id n (BitVec.ofNat 64 (fieldLE r.manifest 8 8)) none else s
      s.finish r.cmd 0 0 n

/-- The barrier of a candidate has returned (R395). -/
def State.restoreBarrier (s : State) (id : W32) (cmd : W64) (number : W16) (items : List CollItem) : State :=
  s.onJob id fun j =>
    match j.restore, items with
    | some r, .and v :: .min x :: _ =>
      if r.cmd != cmd || r.number != number.toNat then s
      else if v.getLsbD 0 then s.restoreInstall id
      else
        let codes := r.codes ++ [(x.toNat / 2 ^ 32, x.toNat % 2 ^ 16)]
        let s := s.setJob { j with restore := if r.root then some { r with codes := codes, loaded := none, got := [], todo := [] } else none }
        let s := s.quotaCheck
        if r.root then State.restoreNext id 9 s else s
    | _, _ => s

/-- The barrier of a restore has not completed within its timeout: the restore is refused (R395, log entry 29). -/
def State.restoreTimeout (s : State) (id : W32) (cmd : W64) : State :=
  s.onJob id fun j =>
    if j.restore.any fun r => r.cmd == cmd then ((s.setJob { j with restore := none }).quotaCheck).finish cmd 0x0209 else s

/-! ### Slots returned, and transfers of purpose 6 (R387, R394) -/

/-- The host returns a slot: durable, or with the chunk asked for in it. -/
def State.slotReturn (s : State) (k : Nat) (chunk : List Byte) : State :=
  match s.host.targets with
  | none => s
  | some t =>
    if !t.busy.contains k then s
    else
      let s := { s with host.targets := some { t with busy := t.busy.filter fun x => x != k } }
      s.jobs.vals.foldl (fun s j =>
        let s := s.modJob j.id fun j => { j with bed := j.bed.map fun (b : Bedrock) => { b with busy := b.busy.filter fun x => x != k } }
        match j.restore with
        | some r =>
          (match r.asked.find? fun a => a.1 == k with
          | some a =>
            let r := { r with asked := r.asked.filter fun x => x.1 != k }
            let j := { j with restore := some r }
            (s.setJob j).restoreChunk j r a.2.1 a.2.2 chunk
          | none => s)
        | none => s) s

/-- What a landed transfer of purpose 6 carries, once it has gone on down the tree where it goes down. -/
def State.bedTransfer (s : State) (id : W32) (b : W64) (p : List Byte) (fromPartner : Bool) : State :=
  s.onJob id fun j =>
    let op := fieldLE p 0 2
    let cmd := BitVec.ofNat 64 (fieldLE p 8 8)
    let body := p.drop 64
    let up := op = bedReport || op = bedWarning || op = bedFailed
    if up && !s.isRoot j && !fromPartner then s.bedUp j (p.take 256)
    else
      let s := if up then s else s.cmdSpread j p b
      if op = bedReport then s.memberReportRx id cmd (body.take 128)
      else if op = bedSealed then s.sealedRx id cmd
      else if op = bedAbandon then s.abandonRx id cmd (fieldLE body 0 2) (fieldLE body 2 2)
      else if op = bedResend then s.bedResendRx id
      else if op = bedWarning then s.warningRx id
      else if op = bedFailed then s.bedFailedRx id cmd (fieldLE body 0 2) (fieldLE body 2 2)
      else if op = 0x0213 then (s.modJob id fun j => if fromPartner then j.armUsed (BitVec.ofNat 64 (fieldLE body 0 8)) else j).bedJoin id
        (BitVec.ofNat 64 (fieldLE body 0 8)) 0 b (p.drop 256) (fieldLE body 8 4)
      else if op = 0x0217 then s.restoreTake id cmd (fieldLE body 0 4) b.toNat (p.drop 256)
      else if op = 0x0208 then s.rollbackOrder id (BitVec.ofNat 64 (fieldLE body 0 8)) (BitVec.ofNat 64 (fieldLE body 8 8)) b cmd
      else if op = 0x0209 || op = 0x020A then s.resumeBegin id op cmd
      else s

end Sys2Proof.Machine
end

