-- ==== Sys2Proof/Machine/Pair.lean ====
section
/-! DEFINITION. The pair (12_pair_operation.md): its control messages, what one side passes to the other, transfers that land, and
rejoining. Commands and the journal are in Machine/Host.lean; declaring the partner failed is in Machine/Watch.lean. -/
namespace Sys2Proof.Machine

/-! ### Messages (R358) -/

/-- The reserved fields of a pair message's body are 0 (R10, R358). -/
def CtlMsg.pairRsv (m : CtlMsg) (ty : Nat) : Bool :=
  let z := zeroBytes m.bytes
  let items := fun (at_ n : Nat) => (List.range n).all fun i => z (at_ + 48 * i + 2) 6
  match ty with
  | 0x40 => m.get 0 1 < 5 && m.get 1 1 < 2 && z 2 2
  | 0x45 => z 3 1 && z 9 7 && items 16 (m.get 1 1)
  | 0x48 => m.get 0 1 < 4 && z 2 6
  | 0x49 => m.get 4 1 < 2 && z 5 3 && (List.range (m.get 0 4)).all fun i => z (8 + 8 * i + 4) 4
  | 0x4A => collOk 0x81 (m.bytes.take m.length.toNat)
  | 0x4B | 0x4F => z 2 6
  | _ => true

/-- A message of the pair in the form that its type gives. -/
def CtlMsg.pairForm (m : CtlMsg) (ty : Nat) : Bool :=
  let n := match ty with
    | 0x14 => 64 | 0x40 => 12 | 0x41 => 512 | 0x42 => 8 | 0x43 => 8 | 0x44 => 16 | 0x45 => 16 + 48 * m.get 1 1 | 0x46 => 32 | 0x47 => 256
    | 0x48 => 8 | 0x49 => 8 + 8 * m.get 0 4 | 0x4A => 32 + 48 * m.get 2 1 | 0x4B => 8 | 0x4F => 16 | _ => m.length.toNat
  m.formOk n && m.pairRsv ty

/-- Messages whose effect belongs to a step attempt: a rollback forgets that they were applied. -/
def stepMessage (ty : Nat) : Bool := ty == 0x14 || ty == 0x45 || ty == 0x46 || ty == 0x47 || ty == 0x49 || ty == 0x4A

/-- Receive a message that is acknowledged on receipt: its effect once, known again by type, ident and body, and a directive by its site
too, where it is marked as a repeat (R358, log entry 30). A side whose partner is declared failed takes none. -/
def State.pairRx (s : State) (ty : Nat) (m : CtlMsg) (ack : Bool) (act : State → State) (mark : List Byte := []) : State :=
  if s.pair.partnerFailed || s.pair.role == .withdrawn then s
  else if !m.pairForm ty then (if pairAcked ty then s.pairAck ty m.ident m.jobId 2 else s)
  else
    let body := m.bytes.take m.length.toNat ++ mark
    let seen := m.flags.getLsbD 0 && s.pair.applied.contains (ty, m.ident, body)
    let s := if seen then s
      else act { s with pair.applied := ((ty, m.ident, body) :: s.pair.applied).take 4096 }
    if ack then s.pairAck ty m.ident m.jobId 0 else s

/-- Forget the messages of rolled back steps. -/
def State.pairForget (s : State) (steps : List W64) : State :=
  { s with pair.applied := s.pair.applied.filter fun a => !(stepMessage a.1 && inSteps steps a.2.1)
           pair.sent := s.pair.sent.filter fun x => !(stepMessage x.ty && x.ty != 0x47 && inSteps steps x.ident) }

/-- GATE_CLOSE: the partner has closed tags of a step (R51): what is still open here is closed too, and what follows is what this side's
own vote would lead to. -/
def State.gateCloseRx (s : State) (m : CtlMsg) : State :=
  s.onJob m.jobId fun j =>
    let mask := m.get 0 1
    let reason := m.get 1 1
    let steps := (if mask % 2 = 1 then [m.ident] else []) ++
      if mask / 2 % 2 = 1 then [if mask % 2 = 1 then m.ident + 1 else m.ident] else []
    let mine := (j.open_.map OpenStep.step).filter fun n => inSteps steps n
    let mine := if (j.open_.head?.any fun o => inSteps mine o.step) then j.open_.map OpenStep.step else mine
    if mine.isEmpty then s
    else if reason = 3 then s.jobAbort j.id holdRemoteAbort (some true)
    else if reason = 2 then s.rollbackThen j.id mine 2 .restream
    else
      match j.open_.head? with
      | none => s
      | some o =>
        if o.commit != .none then s
        else if o.kernelFault then s.rollbackThen j.id mine 1 (.hold (BitVec.ofNat 32 (2 ^ holdKernelFault)))
        else if o.retries < j.retryLimit then
          (s.modJob j.id fun j => { j with retried := (o.step, o.retries + 1) }).rollbackThen j.id mine 1 .recompute
        else s.rollbackThen j.id mine 1 (.hold (BitVec.ofNat 32 (2 ^ holdRetryExhausted)))

/-- ITEMS: the partner's items of a collective (R359). -/
def State.itemsRx (s : State) (m : CtlMsg) : State :=
  match collOpOf (m.get 0 1), s.job? m.jobId with
  | some op, some _ =>
    let n := m.get 1 1
    let key : CollKey := ⟨m.jobId, op, m.ident, BitVec.ofNat 16 (m.get 6 2), op.phaseOf (m.bytes.getD 8 0) n⟩
    let c := s.coll key (m.get 2 1)
    (s.setColl { c with partner := some (itemsOf m.bytes 16 n) }).collTry key
  | _, _ => s

/-- The key that a sent ITEMS message names. -/
def PairSent.itemsKey (x : PairSent) : Option CollKey :=
  (collOpOf (fieldLE x.body 0 1)).map fun op =>
    ⟨x.job, op, x.ident, BitVec.ofNat 16 (fieldLE x.body 6 2), op.phaseOf (x.body.getD 8 0) (fieldLE x.body 1 1)⟩

/-- JOB_ALARM: the alarm goes out on this plane too (step 4 of R285). -/
def State.jobAlarmRx (s : State) (m : CtlMsg) : State :=
  if m.get 0 1 = 2 then s.onJob m.jobId fun j => if j.phase == .running then s.jobAbort j.id holdRemoteAbort (some true) else s
  else if m.get 0 1 = 3 then
    let t := s.originate 3 0 0 ((List.range 8).filter fun k => s.jobs.vals.any fun j => j.sites.contains k) true
    t.jobs.vals.foldl (fun t j => t.jobAbort j.id holdRemoteAbort (some false)) t
  else s

/-- No PAIR_ACK within 1 ms: the message again, with repeat (R358). -/
def State.pairRepeat (s : State) (ty : Nat) (ident : W64) : State :=
  (s.pair.sent.filter fun x => x.ty == ty && x.ident == ident).foldl (fun t x => t.pairQueue ty true ident x.job x.body x.site) s

/-- An entry read from its bytes. -/
def entryOf (b : List Byte) : JEntry :=
  ⟨fieldLE b 0 8, BitVec.ofNat 64 (fieldLE b 8 8), BitVec.ofNat 32 (fieldLE b 0x10 4), fieldLE b 0x14 1, fieldLE b 0x15 1 != 0,
    sliceBytes b 0x40 256, sliceBytes b 0x140 32⟩

/-- JOURNAL_RESEND: the partner lacks entries from a number on (R364). -/
def State.journalResend (s : State) (m : CtlMsg) : State :=
  if !m.pairForm 0x42 then s
  else
    (s.host.journal.filter fun e => m.get 0 8 ≤ e.seqNo && s.pairWaits 0x41 e.id).foldl (fun t e =>
      ((t.entryRead e).bump .pairJournalResends).pairQueue 0x41 true e.id e.job (t.entryBytes { e with state := 1 })) s

/-- A message of a class is acknowledged: the oldest that waits under its type and ident. -/
def State.pairTake (s : State) (ty : Nat) (ident : W64) : State × Option PairSent :=
  match s.pair.sent.find? fun x => x.ty == ty && x.ident == ident with
  | none => (s, none)
  | some x => ({ s with pair.sent := s.pair.sent.erase x }, some x)

/-- What an acknowledgement of the partner lets go on, journal, boundary and handover apart. -/
def State.ackedByPartner (s : State) (x : PairSent) : State :=
  if x.ty = 0x45 then
    match x.itemsKey with
    | some key =>
      ({ s with tor.colls := s.tor.colls.map fun (c : Coll) => if c.key == key then { c with acked := true } else c }).collTry key
    | none => s
  else if x.ty = 0x47 then (s.modStep x.job x.ident fun o => { o with recordAcked := true }).commitGo x.job
  else if x.ty = 0x48 then s.modJob x.job fun j => j.gatePartner (some x.ident)
  else s

/-! ### Rejoining (R374, R375; log entry 31) -/

/-- An item of a rejoin: its identifier gives its kind in bits 63 to 60. -/
def State.joinSend (s : State) (kind : Nat) (index : Nat) (job : W32) (data : List Byte) : State :=
  let t := s.pairData 8 (itemId kind 0 index) job none s.position data
  { t with pair.rejoinBytes := t.pair.rejoinBytes + data.length }

/-- The system area's part of a job: slot, descriptor, schedule table and parameters. -/
def Job.joinBytes (j : Job) : List Byte :=
  leBytes 1 j.slot ++ leBytes 3 0 ++ leBytes 4 j.desc.length ++ leBytes 4 j.sched.length ++ leBytes 4 0 ++ sliceBytes j.params 0 64 ++
    j.desc ++ j.sched

/-- A closed silt entry with its record and reports, as items (R374 step 4). -/
def State.joinEntry (s : State) (j : Job) (e : SiltEntry) : List FillItem :=
  let rec_ := ((j.record? e.step).getD []).take 0xE0
  let reps := (((j.tables.find? fun x => x.1 == e.step).map Prod.snd).getD []).flatMap Prod.snd
  (⟨e.step, itemId 3 0 e.step.toNat, e.header j ++ digestBytes e.tag⟩ : FillItem) ::
    (e.pages.map fun p => (⟨e.step, itemId 4 0 p.1, s.frameBytes (some p.2)⟩ : FillItem)) ++
    [(⟨e.step, itemId 5 0 e.step.toNat, rec_ ++ reps⟩ : FillItem)]

/-- An item that belongs to a job's state: its entry's step, its identifier, its bytes. -/
def State.joinItem (s : State) (j : Job) (x : FillItem) : State :=
  s.joinSend 1 0 j.id (leBytes 8 x.entry.toNat ++ leBytes 8 x.id.toNat ++ x.bytes)

/-- The state of a job that the survivor copies (R374 step 3). -/
def State.joinJob (s : State) (j : Job) : State :=
  let c := j.strata.committed
  let sealed := fun (t : Stratum) => { t with leaf := (s.leaves j t).zipIdx.map fun (e : Digest × Nat) => (e.2, e.1) }
  let kept := j.strata.retained.flatMap fun t => (⟨t.step, itemId 6 0 0, mapItem (sealed t)⟩ : FillItem) ::
    ((t.map.filter fun e => mapFrame c.map e.1 != some e.2).map fun e => (⟨t.step, itemId 7 0 e.1, s.frameBytes (some e.2)⟩ : FillItem))
  let head := (j.silt.find? fun e => e.step == c.step).elim
    [(⟨c.step, itemId 5 0 c.step.toNat, ((j.record? c.step).getD []).take 0xE0 ++
      (((j.tables.find? fun x => x.1 == c.step).map Prod.snd).getD []).flatMap Prod.snd⟩ : FillItem)] fun e => (s.joinEntry j e).drop (1 + e.pages.length)
  let items := kept ++ s.fillItems { j with inVote := none } s.position 1 ++ head
  let t := items.foldl (fun t x => t.joinItem j x) s
  { t with pair.joinSent := Tbl.set t.pair.joinSent j.slot c.step }

/-- The survivor finds its partner JOINING: it copies the system area and then the state of each job (R374 steps 2 and 3). -/
def State.joinCopy (s : State) : State :=
  if s.pair.role != .sole || s.pair.rejoin.isSome || !(s.port 8).up then s
  else
    -- pairData sends nothing while the partner is declared failed: the copy is the exception
    let s := { s with pair.rejoin := some (0, 1), pair.rejoinBytes := 0, pair.joinStep := [], pair.joinSent := [], pair.partnerFailed := false }
    let s := s.host.journal.foldl (fun t e => t.joinSend 10 e.seqNo 0 (t.entryBytes e)) s
    let s := s.joinSend 9 0 0 ((List.range 16).flatMap fun k => leBytes 2 (s.quota k))
    let s := s.tor.peloton.foldl (fun t e => t.joinSend 9 (1 + e.1) 0
      (leBytes 4 e.2.job.toNat ++ leBytes 2 e.2.gen.toNat ++ leBytes 2 e.2.kind ++ leBytes 4 e.2.members.length ++
        e.2.members.flatMap fun m => leBytes 2 m.toNat)) s
    let s := s.jobs.vals.foldl (fun t j => t.joinSend 8 j.slot j.id j.joinBytes) s
    let s := s.jobs.vals.foldl (fun t j => if j.strata.held then t.joinJob j else t) s
    { s with pair.partnerFailed := true }

/-- Run with the partner reachable for data, as the copy needs it. -/
def State.joining (s : State) (f : State → State) : State :=
  let t := f { s with pair.partnerFailed := false }
  { t with pair.partnerFailed := true }

/-- The window counts of a job's sites: a count, then site, step, entry and bytes of each entry that the site's window still holds (R160). -/
def State.windowBytes (s : State) (job : W32) : List Byte :=
  let l := (List.range 8).flatMap fun k => ((s.engines k).filter fun g => g.job == job).flatMap fun g =>
    g.charged.map fun c => leBytes 1 k ++ leBytes 8 g.step.toNat ++ leBytes 4 c.1 ++ leBytes 4 c.2
  leBytes 4 l.length ++ l.flatten

/-- The joining side takes them as its own. -/
def State.windowTake (s : State) (job : W32) (b : List Byte) : State :=
  (List.range (fieldLE b 0 4)).foldl (fun t i =>
    let e := b.drop (4 + 17 * i)
    t.windowCharge (fieldLE e 0 1) job (BitVec.ofNat 64 (fieldLE e 1 8)) (fieldLE e 9 4) (fieldLE e 13 4)) s

/-- What the survivor owes the joining side: each commit's entry, the join step, and the join itself (R374 steps 4 to 6). -/
def State.joinGo (s : State) : State :=
  match s.pair.role, s.pair.rejoin with
  | .sole, some (_, 1) =>
    let s := s.jobs.vals.foldl (fun t j =>
      let last := Tbl.get t.pair.joinSent 0 j.slot
      if !j.strata.held || !Tbl.has t.pair.joinSent j.slot then t
      else
        let new := j.silt.filter fun e => last.toNat < e.step.toNat && e.step.toNat ≤ j.committed.toNat
        let t := t.joining fun t => new.foldl (fun t e => (t.joinEntry j e).foldl (fun t x => t.joinItem j x) t) t
        { t with pair.joinSent := Tbl.set t.pair.joinSent j.slot j.committed }) s
    let busy := s.jobs.vals.filter fun j => j.phase == .running
    let s := busy.foldl (fun (t : State) (j : Job) =>
      let n := Tbl.get t.pair.joinStep 0 j.slot
      -- caught up at a commit, marked in bit 63: the next commit j names the join step j + 2
      if n.getLsbD 63 && n.toNat < j.committed.toNat + 2 ^ 63 then
        let t := t.joining fun t => t.joinSend 12 0 j.id (leBytes 8 (j.committed + 2).toNat)
        { t with pair.joinStep := Tbl.set t.pair.joinStep j.slot (j.committed + 2) }
      else t) s
    let due := busy.all fun (j : Job) => (s.pair.joinStep.find? fun e => e.1 == j.slot).any fun e =>
      !e.2.getLsbD 63 && e.2.toNat ≤ j.committed.toNat + 1
    if due && s.jobs.vals.all fun j => !j.strata.held || Tbl.has s.pair.joinStep j.slot then
      let s := { s with pair.rejoin := some (0, 3), pair.partnerFailed := false
                        pair.joinStep := s.jobs.vals.map fun (j : Job) => (j.slot, j.committed + 1) }
      s.jobs.vals.foldl (fun (t : State) (j : Job) =>
        t.joinSend 13 0 j.id (leBytes 8 j.committed.toNat ++ leBytes 8 j.assayed.toNat ++
          leBytes 8 (Tbl.get t.asy.clean 0 j.slot).toNat ++ t.windowBytes j.id)) s
    else s
  | .sole, some (_, 3) =>
    if s.jobs.vals.all fun j => j.phase != .running || (Tbl.get s.pair.joinStep 0 j.slot).toNat ≤ j.committed.toNat then
      ({ s with pair.role := .active, pair.partnerRole := .standby, pair.rejoin := none }).raise .pairIntStatus 3
    else s
  | .joining, some (c, 3) =>
    if s.jobs.vals.all fun j => j.phase != .running || (Tbl.get s.pair.joinStep 0 j.slot).toNat ≤ j.committed.toNat then
      (({ s with pair.role := .standby, pair.partnerRole := .active, pair.rejoin := none }).raise .pairIntStatus 3).finish c 0
    else s
  | _, _ => s

/-- A rejoin ends without success: the joining side is WITHDRAWN, the survivor stays SOLE (R375). -/
def State.joinFail (s : State) (code : Nat) : State :=
  match s.pair.role, s.pair.rejoin with
  | .joining, some (c, _) => (((s.raise .pairIntStatus 3).finish c code).withdraw.modRun c id)
  | .sole, some _ => ({ s with pair.rejoin := none, pair.partnerFailed := true, pair.joinStep := [], pair.joinSent := [] }).raise .pairIntStatus 3
  | _, _ => s

/-- A job as the joining side takes it from the system area: it waits for its state like a fill (R345, R374). -/
def Job.ofJoin (id : W32) (b : List Byte) : Job where
  id := id
  slot := fieldLE b 0 1
  phase := .held
  desc := sliceBytes b 80 (fieldLE b 4 4)
  sched := sliceBytes b (80 + fieldLE b 4 4) (fieldLE b 8 4)
  newSched := none
  deferred := none
  params := sliceBytes b 16 64
  newParams := none
  newRollback := none
  strata := Strata.empty
  silt := []
  chain := []
  partnerChain := []
  tables := []
  open_ := []
  inVote := none
  gates := []
  after := .nothing
  hold := []
  holdFull := false
  siltDigests := []
  base := 0
  skips := 0
  clips := 0
  retried := (0, 0)
  start := none
  recov := { RecoverySt.init with running := 0x10A }
  bed := none
  arm := none
  bedAt := none
  restore := none
  buddy := ⟨none, [], true, none, none, []⟩
  slotsBack := []
  newPel := []
  escrow := []
  escrowMissing := false
  admittedSites := 0
  teardownCmd := none
  gone := []
  overQuota := false
  allocStall := false
  streaming := 0
  directed := 0
  directive := []

/-- Kernels and profiles that a job names are loaded on this side (R374). -/
def State.jobLoaded (s : State) (j : Job) : Bool :=
  ((List.range j.nKernels).all fun i => (s.kernelSlot (j.kernelDigest i)).isSome) && s.profilesOk j

/-- An item of a rejoin arrives (R374). -/
def State.joinRx (s : State) (id : W64) (job : W32) (b : List Byte) : State :=
  let s := { s with pair.rejoinBytes := s.pair.rejoinBytes + b.length }
  match itemKind id with
  | 11 => if s.pair.role == .sole && s.pair.rejoin.isSome then
      (s.onJob job fun j => if Tbl.has s.pair.joinStep j.slot then s
        else { s with pair.joinStep := Tbl.set s.pair.joinStep j.slot (BitVec.ofNat 64 (fieldLE b 0 8 + 2 ^ 63)) }) else s
  | k =>
    if s.pair.role != .joining then s
    else if k = 10 then
      let e := entryOf b
      if s.host.journal.any fun x => x.id == e.id then s
      else { s with host.journal := s.host.journal ++ [e], host.nextSeq := max s.host.nextSeq (e.seqNo + 1)
                    pair.journalNext := max s.pair.journalNext (e.seqNo + 1) }.entryWrite e
    else if k = 9 then
      if itemIndex id = 0 then
        s.quotaPut ((List.range 16).filterMap fun i => let q := fieldLE b (2 * i) 2; if q = 0 then none else some (i, q))
      else
        let t : PelTable := ⟨BitVec.ofNat 32 (fieldLE b 0 4), BitVec.ofNat 16 (fieldLE b 4 2), fieldLE b 6 2,
          (List.range (fieldLE b 8 4)).map fun i => BitVec.ofNat 16 (fieldLE b (12 + 2 * i) 2)⟩
        { s with tor.peloton := Tbl.set s.tor.peloton (itemIndex id - 1) t }
    else if k = 8 then
      let j := Job.ofJoin job b
      if !s.jobLoaded j then s.joinFail 0x0109
      else
        let s := s.onJob job fun o => if o.strata.pin.isSome then s.flipped job fun t => { t with pin := none } else s
        s.setJob { j with base := s.areaFor j.fixedFrames }
    else if k = 1 then
      let x : FillItem := ⟨BitVec.ofNat 64 (fieldLE b 0 8), BitVec.ofNat 64 (fieldLE b 8 8), b.drop 16⟩
      s.modJob job fun j => { j with recov := { j.recov with
        items := (j.recov.items.filter fun y => !(y.entry == x.entry && y.id == x.id)) ++ [x] } }
    else if k = 12 then
      s.onJob job fun j => { s with pair.joinStep := Tbl.set s.pair.joinStep j.slot (BitVec.ofNat 64 (fieldLE b 0 8)) }
    else if k = 13 then
      s.onJob job fun j =>
        let n := BitVec.ofNat 64 (fieldLE b 0 8)
        if j.committed != n then s.joinFail 0x020A
        else
          let s := (s.setJob { j with phase := .running, recov := { j.recov with running := 0, items := [] }, streaming := n }).advanceFlip job
            (BitVec.ofNat 64 (fieldLE b 8 8))
          let s := s.windowTake job (b.drop 24)
          { s with pair.rejoin := s.pair.rejoin.map fun r => (r.1, 3), pair.partnerFailed := false
                   pair.joinStep := Tbl.set s.pair.joinStep j.slot (n + 1)
                   asy.clean := Tbl.set s.asy.clean j.slot (BitVec.ofNat 64 (fieldLE b 16 8)) }
    else s

/-- What is due for a job on the joining side: once its copy stands, each further entry is replayed as it comes (R81, R374 step 4). -/
def State.joinReplay (s : State) (id : W32) : State :=
  s.onJob id fun j =>
    if s.pair.role != .joining || s.pair.rejoin.any (fun r => r.2 == 3) || !j.strata.held || !j.open_.isEmpty then s
    else
      let k := j.committed + 1
      let heads := j.recov.items.filter fun x => itemKind x.id == 3 && x.entry == k
      let whole := fun (x : FillItem) => (fieldLE x.bytes 0x10 2).testBit 0 || (j.recov.payload j x.entry).isSome
      match heads.head?, j.recov.item k (itemId 5 0 k.toNat) with
      | some h, some rec_ =>
        if !whole h then s
        else (match s.fillSilt id [h] with
          | some (t, [e]) =>
            let t := t.fillUnref.modJob id fun j => { j with
              silt := j.silt ++ [e], chain := j.chain ++ [t.tagRecord (rec_.take 0xE0)]
              tables := j.tables ++ [(k, escrowReports j rec_)]
              recov := { j.recov with running := 0x10A, items := j.recov.items.filter fun x => x.entry != k } }
            t.replayBegin id k
          | _ => s.joinFail 0x020A)
      | _, _ =>
        -- everything sent so far is applied: the survivor hears at which commit
        let told := Tbl.has s.pair.joinSent j.slot
        if told || j.recov.items.any fun x => x.entry.toNat ≤ k.toNat then s
        else
          let s := { s with pair.joinSent := Tbl.set s.pair.joinSent j.slot j.committed }
          s.joinSend 11 0 id (leBytes 8 j.committed.toNat)

/-! ### Data that lands (R296, R304, R308, R343, R360, R362) -/

/-- The page or payload that a repair asks the partner for (R85): job, silt or page, page, step. -/
def State.repairAsk (s : State) : State :=
  match s.store.repair with
  | some (job, silt, page, step, _) =>
    if s.store.repairAsked then s
    else
      let s := { s with store.repairAsked := true }
      s.pairData 9 0 job none s.position (leBytes 1 (if silt then 1 else 0) ++ List.replicate 3 0 ++ leBytes 4 page ++ leBytes 8 step.toNat)
  | none => s

/-- The partner asks for a page: it is sent if this side holds it undamaged. -/
def State.repairAnswer (s : State) (job : W32) (b : List Byte) : State :=
  s.onJob job fun j =>
    let page := fieldLE b 4 4
    let step := BitVec.ofNat 64 (fieldLE b 8 8)
    let f := if fieldLE b 0 1 = 1 then (j.silt.find? fun e => e.step == step && !e.damaged).bind fun e => mapFrame e.pages page
      else ((j.strata.committed :: j.strata.assayed :: j.strata.retained ++ j.strata.pin.toList).find? fun x =>
        x.step == step && !x.poisoned.contains page).bind fun x => mapFrame x.map page
    s.pairData 10 0 job none s.position (match f with
      | some f => s.frameBytes (some f)
      | none => [])

/-- A landing is complete: its data goes to what its purpose names. -/
def State.landed (s : State) (l : Landing) (own : Bool) : State :=
  if l.assisted && own && !s.pair.partnerFailed then s.pairData l.purpose l.transferId l.job l.tag s.position l.bytes
  else if l.purpose = 1 then s.chunkLanded l
  else if l.purpose = 2 then s.resultLanded l own
  else if l.purpose = 3 then
    let s := if own && !l.assisted then s.pairData 3 l.transferId l.job l.tag s.position l.bytes else s
    s.mirrorLanded l.job l.transferId l.bytes
  else if l.purpose = 4 then s.seedLanded l
  else if l.purpose = 5 then s.fillLanded l
  else if l.purpose = 6 then s.bedTransfer l.job (BitVec.ofNat 64 (fieldLE l.bytes 0 8)) (l.bytes.drop 8) (!own)
  else if l.purpose = 7 then s.escrowLanded l
  else s

/-- Data that the partner passes over the pair link (R85, R360, R362, R374; log entry 25). Step data whose tag is not open here is discarded
and counted (R48); the mirror and the escrow item of the step that has just committed here are still due at a sender that commits it
after them (R309, R336). -/
def State.pairDataRx (s : State) (k : Packet) : State :=
  let c := k.content
  let purpose := fieldLE c 1 1
  let id := BitVec.ofNat 64 (fieldLE c 8 8)
  let n := fieldLE c 0x10 8
  let data := sliceBytes c 32 n
  let tag := if c.getD 0x19 0 = 1 then some (c.getD 0x1A 0) else none
  let stale := tag.any fun g => !((s.job? k.hdr.jobId).any fun j =>
    (j.tag? g).isSome || ((purpose == 3 || purpose == 7) && j.committed.setWidth 8 == g))
  let l : Landing := ⟨0, 0, purpose, k.hdr.src, k.hdr.jobId, id, BitVec.ofNat 64 n, tag, [(0, data)], false⟩
  if stale && purpose != 11 then s.bump .spkTagDiscards 8
  else if purpose = 8 then s.joinRx id k.hdr.jobId data
  else if purpose = 9 then s.repairAnswer k.hdr.jobId data
  else if purpose = 10 then s.repairCopy data
  else if purpose = 11 then s.transferDone ⟨id, k.hdr.dst, fieldLE data 0 1, k.hdr.jobId, tag, [], true, false⟩
  else if k.hdr.dst = s.position then s.landed l false
  else s.sendTransfer id k.hdr.dst purpose k.hdr.jobId tag data true

/-- An XFER packet on a torus port, or data of the partner on the pair link (R296). -/
def State.xferRx (s : State) (p : Nat) (k : Packet) : State :=
  if p = 8 then (if k.hdr.kind = 5 then s.pairDataRx k else s)
  else if k.hdr.kind != 7 then s
  else match s.land k with
    | (t, some l) => t.landed l true
    | (t, none) => t

end Sys2Proof.Machine
end

