-- ==== Sys2Proof/Machine/Load.lean ====
section
/-! DEFINITION. What a side checks of the objects that host software loads: kernel images (R129, R137, R138), profiles (R183, R187),
peloton tables (R298, R299, R306), job descriptors (R414, R415) and layer schedule tables (R151). Each check answers a code of R411, 0 where
the object is good. -/
namespace Sys2Proof.Machine

/-! ### Kernel images -/

/-- A stream descriptor of R129. -/
def streamDescOk (d : List Byte) : Bool :=
  let kind := fieldLE d 0 1
  let plane := fieldLE d 1 1
  let fr := fieldLE d 2 1
  let flags := fieldLE d 4 2
  kind ≤ 6 && zeroBytes d 6 2 && zeroBytes d 0x18 8 && flags < 16 && (kind == 3 || flags == 0) &&
    (kind == 4 || kind == 5 || zeroBytes d 8 16) &&
    (kind == 0 || (frValid fr && !formatMx (frFormat fr) && fieldLE d 3 1 < 4 &&
      (if kind = 3 then plane == 0 else if kind = 4 ∨ kind = 5 then plane < 16 else plane < 8)))

/-- The header, descriptors and entries of an image (R137). -/
def imageOk (b : List Byte) : Bool :=
  let phases := fieldLE b 6 1
  let words := fieldLE b 0x18 2
  fieldLE b 0 2 == 0x10 && fieldLE b 2 2 == 1 && 1 ≤ phases && phases ≤ 4 && 1 ≤ fieldLE b 7 1 && fieldLE b 7 1 ≤ 16 &&
    1 ≤ words && words ≤ 4096 && fieldLE b 0x1A 1 ≤ 16 && fieldLE b 0x1B 1 ≤ 32 && fieldLE b 0x1C 1 % 4 == 0 &&
    zeroBytes b 0x1D 3 && zeroBytes b 0x28 24 &&
    (List.range 4).all (fun p => let at_ := 8 + 4 * p
      if p < phases then fieldLE b at_ 2 < words && fieldLE b (at_ + 2) 2 < words else zeroBytes b at_ 4) &&
    (List.range 16).all fun k => let d := sliceBytes b (0x40 + 32 * k) 32
      streamDescOk d && (k < fieldLE b 7 1 || fieldLE d 0 1 == 0)

/-- KERNEL_LOAD: the signature first, then every field (R138). -/
def State.kernelCheck (s : State) (b : List Byte) : Nat :=
  let stop := 0x240 + 4 * fieldLE b 0x18 2
  if b.length < 0x240 then 0x0101
  else if !s.sigOk [1, 2] 0x10 (shake256 (b.take stop)) (b.drop stop) then 0x0108
  else if imageOk b then 0 else 0x0101

/-- A job that this side holds references a kernel slot: its table names the digest of the image there. -/
def State.kernelUsed (s : State) (k : Nat) : Bool :=
  match (s.host.kernels.find? fun e => e.1 == k).map Prod.snd with
  | some b => s.jobs.vals.any fun j => (List.range j.nKernels).any fun i => j.kernelDigest i == (shake256 b).toNat
  | none => false

/-! ### Profiles -/

/-- A profile descriptor of 64 bytes (R183). -/
def profileOk (b : List Byte) : Bool :=
  let f := fun (o : Nat) => fieldLE b o 1
  b.length == 64 && fieldLE b 0 2 != 0 && fieldLE b 2 2 == 1 && f 4 < 2 && formatValid (f 5) && formatValid (f 6) && frValid (f 7) &&
    frRound (f 7) != 2 && f 8 < 16 && (f 9 == 0 || (2 ≤ f 9 && f 9 ≤ 64)) && f 0xA < 2 && f 0xB ≤ 8 && f 0xC < 2 && f 0xD ≤ 32 && f 0xE < 2 &&
    f 0xF < 2 && f 0x10 ≤ 4 && (if f 0x10 = 1 then 24 ≤ f 0x11 && f 0x11 ≤ 64 else f 0x11 == 0) && f 0x12 < 2 && f 0x13 ≤ 4 && f 0x14 < 2 &&
    f 0x15 < 2 && f 0x16 < 2 && (if f 4 = 1 then 1 ≤ f 0x17 else f 0x17 == 0) && zeroBytes b 0x1C 36 &&
    (f 0x10 < 2 || (f 5 == 9 && f 6 == 9)) && (f 0x15 == 0 || (f 0xB == 5 && formatMx (f 5) && formatMx (f 6)))

/-- PROFILE_LOAD: the owner's signature, Kerquel's while no owner slot is valid (R443), then the descriptor (R187). -/
def State.profileCheck (s : State) (b : List Byte) : Nat :=
  if !s.sigOk [if s.ownerValid then 2 else 1] 0x20 (shake256 (b.take 64)) (b.drop 64) then 0x0108 else if profileOk (b.take 64) then 0 else 0x0101

/-- A job names the profile of a slot (R205). -/
def State.profileNamed (s : State) (k : Nat) : Bool :=
  match (s.host.profiles.find? fun e => e.1 == k).map Prod.snd with
  | some b => s.jobs.vals.any fun j => (j.profileDigest (fieldLE b 0 2)).isSome
  | none => false

/-- A running job names the profile of a slot. -/
def State.profileUsed (s : State) (k : Nat) : Bool :=
  match (s.host.profiles.find? fun e => e.1 == k).map Prod.snd with
  | some b => s.jobs.vals.any fun j => j.phase == .running && (j.profileDigest (fieldLE b 0 2)).isSome
  | none => false

/-! ### Peloton tables -/

/-- A peloton table as its bytes give it. -/
def pelOf (b : List Byte) : PelTable :=
  ⟨BitVec.ofNat 32 (fieldLE b 4 4), BitVec.ofNat 16 (fieldLE b 8 2), fieldLE b 0xC 1,
    (List.range (fieldLE b 0xA 2)).map fun i => BitVec.ofNat 16 (fieldLE b (64 + 2 * i) 2)⟩

/-- Two positions are torus neighbours, one hop apart. -/
def State.oneHop (s : State) (p q : W16) : Bool := (List.range 6).any fun i => s.stepFrom p i == q && p != q

/-- The members of a plane pair up as neighbours (R306). -/
def State.pairsOk (s : State) : List W16 → Bool
  | [] => true
  | p :: q :: r => s.oneHop p q && State.pairsOk s r
  | [_] => false

/-- A running job uses the table of a slot. -/
def State.pelUsers (s : State) (slot : Nat) : List Job :=
  s.jobs.vals.filter fun j => j.phase == .running && (j.pelSlot == slot || j.coverSlot == some slot)

/-- PELOTON_LOAD (R299). -/
def State.pelCheck (s : State) (b : List Byte) : Nat :=
  let t := pelOf b
  let n := t.members.length
  let slot := fieldLE b 0xD 1
  let me : W16 := s.position ||| (if s.sideB then 0x8000 else 0)
  let form := fieldLE b 0 2 == 0x60 && fieldLE b 2 2 == 1 && t.gen != 0 && 1 ≤ n && n ≤ 8704 && t.kind ≤ 3 && slot < 64 &&
    zeroBytes b 0xE 2 && zeroBytes b 0x30 16 && b.length == 64 + 2 * n &&
    t.members.all (fun m => m &&& 0x7000 == 0) && t.members.eraseDups.length == n && t.digest.toNat == fieldLE b 0x10 32
  let mine := 2 ≤ t.kind || (s.tor.position.isSome && t.members.contains me)
  let buddy := t.kind != 2 || (s.pairsOk (t.plane false) && s.pairsOk (t.plane true))
  let newer := (s.pelUsers slot).isEmpty || (s.pel slot).all fun o => o.gen.toNat < t.gen.toNat
  if form && mine && buddy && newer then 0 else 0x0101

/-! ### Job descriptors -/

/-- A field of the run section is all ones, which stands for its default, or lies in its range. -/
def runIn (r : List Byte) (lo n a b : Nat) : Bool :=
  let v := fieldLE r lo n
  v == 256 ^ n - 1 || (a ≤ v && v ≤ b)

/-- The run section (R415). -/
def runOk (r : List Byte) : Bool :=
  let window := if fieldLE r 3 1 = 0xFF then 4 else fieldLE r 3 1
  let timeout := if fieldLE r 0x24 4 = 2 ^ 32 - 1 then 2000 else fieldLE r 0x24 4
  let pos := fun (o : Nat) => 0 < fieldLE r o 4 && fieldLE r o 4 < 0x7F800000
  runIn r 0 2 1 1000 && runIn r 2 1 0 3 && runIn r 3 1 1 9 && runIn r 4 1 window 10 && runIn r 5 1 0 8 && runIn r 6 1 1 64 &&
    fieldLE r 7 1 / 64 == 0 && fieldLE r 7 1 % 2 == 0 && ((fieldLE r 7 1).testBit 5 || fieldLE r 8 8 != 0) &&
    pos 0x10 && pos 0x14 && 0 < fieldLE r 0x18 4 && fieldLE r 0x18 4 < 0x3F800000 && 0x3F800000 ≤ fieldLE r 0x1C 4 &&
    fieldLE r 0x1C 4 ≤ 0x7F800000 && runIn r 0x24 4 100 60000 && runIn r 0x28 4 0 timeout && runIn r 0x2C 2 5 1000 &&
    fieldLE r 0x2E 1 < 64 && (fieldLE r 0x2F 1 < 64 || fieldLE r 0x2F 1 == 0xFF) && zeroBytes r 0x70 16

/-- Layers in ascending element order, without gaps, each starting at a multiple of 512 (R130, R414). -/
def layersOk (d : List Byte) (nk : Nat) : Nat → Nat → Nat → Bool
  | 0, at_, stop => at_ == stop
  | n + 1, at_, stop =>
    let o := 128 + 16 * (fieldLE d 0xA 2 - (n + 1))
    fieldLE d o 8 == at_ && at_ % 512 == 0 && 1 ≤ fieldLE d (o + 8) 4 && fieldLE d (o + 12) 1 < nk && zeroBytes d (o + 13) 3 &&
      layersOk d nk n (at_ + fieldLE d (o + 8) 4) stop

/-- The profile table: ascending IDs, reserved bytes 0. -/
def profileRowsOk (d : List Byte) (o : Nat) : Nat → Nat → Bool
  | 0, _ => true
  | n + 1, last =>
    let a := o + 48 * (fieldLE d 0x21 1 - (n + 1))
    last < fieldLE d a 2 && zeroBytes d (a + 2) 14 && profileRowsOk d o n (fieldLE d a 2)

/-- The shape section and the length of a descriptor (R414). -/
def descOk (d : List Byte) : Bool :=
  let f := fun (o : Nat) => fieldLE d o 1
  let np := fieldLE d 8 2
  let nl := fieldLE d 0xA 2
  let nk := f 0xD
  let npr := f 0x21
  let prof := 128 + 16 * nl + 32 * nk
  let site := prof + 48 * npr
  fieldLE d 0 2 == 0x90 && fieldLE d 2 2 == 1 && fieldLE d 4 4 != 0 && 1 ≤ np && np ≤ 4096 && 1 ≤ nl && nl ≤ 4096 && 1 ≤ f 0xC && f 0xC ≤ 8 &&
    1 ≤ nk && nk ≤ 8 && ((1 ≤ f 0xE && f 0xE ≤ 3) || (0x14 ≤ f 0xE && f 0xE ≤ 0x19)) && (f 0xF == 1 || f 0xF == 2) && f 0x20 ≤ 16 && 1 ≤ npr &&
    npr ≤ 64 && zeroBytes d 0x22 6 &&
    (List.range 8).all (fun p => if p < f 0xC then f (0x10 + p) ≤ 3 else f (0x10 + p) == 0xFF) &&
    (List.range 16).all (fun a => if a < f 0x20 then f (0x30 + a) ≤ 3 else f (0x30 + a) == 0xFF) &&
    d.length == site + 64 * np + 128 && layersOk d nk nl 0 (fieldLE d 0x18 8) && profileRowsOk d prof npr 0 &&
    (List.range (8 * np)).all (fun i => let o := site + 8 * i
      frValid (f o) && f (o + 1) ≤ 3 && zeroBytes d (o + 4) 4 &&
        (List.range npr).any fun k => fieldLE d (prof + 48 * k) 2 == fieldLE d (o + 2) 2) &&
    runOk (d.drop (d.length - 128))

/-- Streams of an image name in fr the format of the plane that they bind (R414). -/
def Job.kernelFits (j : Job) (img : List Byte) : Bool :=
  (List.range 16).all fun k =>
    let d := sliceBytes img (0x40 + 32 * k) 32
    let kind := fieldLE d 0 1
    let plane := fieldLE d 1 1
    if kind = 1 ∨ kind = 2 ∨ kind = 6 then plane < j.nPlanes && frFormat (fieldLE d 2 1) == j.shape (0x10 + plane) 1
    else if kind = 4 ∨ kind = 5 then plane < j.nAux && frFormat (fieldLE d 2 1) == j.shape (0x30 + plane) 1
    else true

/-- The kernels of a job that are loaded here fit its planes. -/
def State.kernelsFit (s : State) (j : Job) : Bool :=
  s.host.kernels.vals.all fun b =>
    !((List.range j.nKernels).any fun i => j.kernelDigest i == (shake256 b).toNat) || j.kernelFits b

/-- A job as JOB_STAGE leaves it. -/
def Job.staged (slot : Nat) (desc sched : List Byte) : Job :=
  { Job.ofJoin (BitVec.ofNat 32 (fieldLE desc 4 4)) [] with
    slot := slot, phase := .staged, desc := desc, sched := sched
    params := sliceBytes desc (desc.length - 128 + 0x30) 64
    recov := RecoverySt.init
    buddy := ⟨none, [], false, none, none, []⟩ }

/-- JOB_STAGE: descriptor, kernels and schedule (R130, R151, R414, R415). -/
def State.stageCheck (s : State) (job : W32) (desc sched : List Byte) : Nat :=
  let j := Job.staged 0 desc sched
  if !descOk desc || (job != 0 && job != j.id) || !s.kernelsFit j then 0x0101
  else match s.schedCheck j sched with
    | 0 => 0
    | 1 => 0x0109
    | _ => 0x0101

/-- SCHEDULE_LOAD (R163). -/
def State.schedCode (s : State) (j : Job) (t : List Byte) : Nat :=
  match s.schedCheck j t with
  | 0 => 0
  | 1 => 0x0109
  | _ => 0x0101

end Sys2Proof.Machine
end

