-- ==== Sys2Proof/Machine/Recorder.lean ====
section
/-! DEFINITION. The event recorder, freeze frames, debug facilities, the sideband drop and the I3C target (18_observability.md). -/
namespace Sys2Proof.Machine

/-! ### Records (R482 to R486, R498) -/

/-- The repeat window of the open record ends (R483). -/
def State.repeatExpiry (s : State) : State := s.evClose

/-- The least severity that interrupts over I3C (R498). -/
def State.ibi (s : State) (r : EvRec) : State :=
  if s.fld .evrCtrl 0 1 = 1 ∧ s.fld .evrCtrl 1 3 ≤ r.sev ∧ s.side.i3cEvents ∧ s.side.i3cAddr.isSome then s.emit (.ibi r.seqNo) else s

/-- A queued record is in NOR (R480, R484): reservations of the root-of-trust core go first, and nothing is programmed during an
erase. -/
def State.recordDone (s : State) : State :=
  if s.sec.reserving || s.ev.clearing then s
  else match s.ev.queue with
    | [] => s
    | r :: rest =>
      let full := 65536 ≤ s.ev.nor.length
      let nor := (if full then s.ev.nor.drop 1 else s.ev.nor) ++ [r]
      let t := { s with ev.queue := rest, ev.nor := nor, ev.headSeq := (nor.head?.map EvRec.seqNo).getD 0 }
      let t := if full then (t.bump .evrOverwritten).raise .evrIntStatus 1 else t
      let t := if 1 ≤ r.sev then t.raise .evrIntStatus 0 else t
      t.ibi r

/-- A checkpoint 60,000 ms ahead (R482). -/
def State.opCheckpoint (s : State) : State := { s with ev.checkpoint := max s.ev.checkpoint (s.opMs + 60000) }

/-- The recorder is erased (R485); the number 0 is kept for the record of code 0x30. -/
def State.evClear (s : State) : State :=
  { s with ev.nor := [], ev.queue := [], ev.openRec := none, ev.lastClosed := none, ev.wilost := [], ev.wilostNext := 0
           ev.headSeq := 0, ev.nextSeq := 1, ev.clearing := true }

/-- The erase is over: the record of code 0x30, then what was detected meanwhile. -/
def State.eraseDone (s : State) : State :=
  if !s.ev.clearing then s
  else
    let time := if s.selDomain.locked then some (timeBytes s.outTime) else none
    let r : EvRec := ⟨0, false, 0, s.opMs, s.ev.cycles, 0xF, 0xF30, 0, 0, 0, time, none, detailWords (leBytes 4 s.sec.clearSeq) []⟩
    ({ s with ev.clearing := false, ev.queue := r :: s.ev.queue }).raise .evrIntStatus 3

/-! ### Freeze frames (R490) -/

/-- Store a collected frame as a Wilost record of kind 5; SITE_FREEZE of its site completes. -/
def State.freezeStore (s : State) (site : Nat) (b : List Byte) : State :=
  let job := s.jobs.vals.find? fun j => j.admittedSites.getLsbD site
  let id := (job.map Job.id).getD 0
  let step := (job.map Job.eventIdent).getD 0
  let w := s.wilostRec 5 id step (s.siteLogical site).toNat (siteId s.pwr.strapsAt.id site).toNat
    [(27, cborBytes b), (28, cborNat (fieldLE b 4 2)), (29, cborNat (fieldLE b 1 1))]
  let t := ({ s with ev.collect := Tbl.erase s.ev.collect site }).evReason 0 .spk 0xFFFF id step [site] (some w)
  (t.host.runs.filter fun r => r.opcode == 0x212 && fieldLE r.params 0 1 == site).foldl (fun t r => t.finish r.id 0) t

/-- A piece of a frame, in offset order; the reserved bytes of the frame's header, which the first piece carries, are 0 (R490, R10). -/
def State.freezeData (s : State) (site : Nat) (m : CtlMsg) : State :=
  let n := m.length.toNat - 8
  let off := m.get 0 4
  let total := m.get 4 4
  let rsv := off == 0 && (m.get 14 2 != 0 || !zeroBytes m.bytes 24 16)
  if !m.formOk m.length.toNat || m.length.toNat < 9 || 1024 < n || rsv then s.bump .spkMalformed site
  else
    let asked := s.host.runs.any fun r => r.opcode == 0x212 && fieldLE r.params 0 1 == site
    let old := (s.ev.collect.find? fun e => e.1 == site).map Prod.snd
    let got := match old with
      | some (b, _) => if b.length = off then some (b ++ sliceBytes m.bytes 8 n) else none
      | none => if off = 0 ∧ (asked ∨ s.leads) then some (sliceBytes m.bytes 8 n) else none
    match got with
    | none => s
    | some b => if total ≤ b.length then s.freezeStore site b else { s with ev.collect := Tbl.set s.ev.collect site (b, total) }

/-- A piece has been missing for 100 ms: the partial frame is stored. -/
def State.freezeTimeout (s : State) (site : Nat) : State :=
  match s.ev.collect.find? fun e => e.1 == site with
  | some (_, b, _) => s.freezeStore site b
  | none => s

/-! ### Facilities and trace (R491, R492, R502) -/

/-- A record of the trace. -/
def traceRec (type core count : Nat) (value : W64) : List Byte :=
  leBytes 1 type ++ leBytes 1 core ++ leBytes 2 count ++ leBytes 8 value.toNat ++ List.replicate 4 0

/-- Put a record into a core's FIFO of 256 records, or drop and count it. -/
def State.tracePut (s : State) (core : Nat) (r : List Byte) : State :=
  let q := Tbl.get s.ev.traceFifo [] core
  if 256 ≤ q.length then
    ({ s with ev.traceLoss := Tbl.modify s.ev.traceLoss 0 core (· + 1) }.bump .dbgTraceDropped).raise .dbgIntStatus 0
  else { s with ev.traceFifo := Tbl.set s.ev.traceFifo core (q ++ [r]), ev.traceSince := Tbl.modify s.ev.traceSince 0 core (· + 1) }

/-- A traced core takes a branch or a trap: its record, and every 4,096 records a sync with the PC that the event shows. -/
def State.traceEvent (s : State) (core : Nat) (trap : Bool) (count : W16) (value : W64) : State :=
  if !s.ev.tracing || !s.ev.traceCores.getLsbD core then s
  else
    let s := s.tracePut core (traceRec (if trap then 2 else 1) core count.toNat value)
    if 4096 ≤ Tbl.get s.ev.traceSince 0 core then
      ({ s with ev.traceSince := Tbl.set s.ev.traceSince core 0 }).tracePut core
        (traceRec 3 core 0 (if trap then value &&& 0x00FFFFFFFFFFFFFF else value))
    else s

/-- Write the oldest record of a core's FIFO to the pages of the trace; a loss record takes the space that frees. -/
def State.traceDrain (s : State) (core : Nat) : State :=
  match Tbl.get s.ev.traceFifo [] core, s.window? s.ev.traceWindow with
  | r :: rest, some w =>
    let room := s.ev.tracePages * 65536
    if !s.ev.tracing then s
    else if !s.ev.traceWrap && room < s.ev.traceBytes + 16 then
      ({ s with ev.tracing := false, ev.traceStopped := true }).raise .dbgIntStatus 1
    else
      let s := { s with ev.traceWrapped := s.ev.traceWrapped || room ≤ s.ev.traceBytes }
      let s := s.winPut w (s.ev.tracePage * 65536 + s.ev.traceBytes % max room 1) r
      let lost := Tbl.get s.ev.traceLoss 0 core
      let rest := if lost = 0 then rest else rest ++ [traceRec 4 core (min lost 65535) 0]
      { s with ev.traceBytes := s.ev.traceBytes + 16, ev.traceLoss := Tbl.set s.ev.traceLoss core 0
               ev.traceFifo := Tbl.set s.ev.traceFifo core rest }
  | _, _ => s

/-- The trace advances: one record of each core. -/
def State.traceTick (s : State) : State :=
  if s.ev.tracing then (List.range 8).foldl State.traceDrain s else s

/-- The parameter block of the trace is in form, and its window is a mapped SCRATCH window. -/
def State.traceOk (s : State) (b : List Byte) : Bool :=
  b.length == 64 && fieldLE b 1 1 < 2 && zeroBytes b 3 1 && zeroBytes b 8 56 && fieldLE b 6 2 != 0 &&
    fieldLE b 4 2 + fieldLE b 6 2 ≤ 4096 && (s.window? (fieldLE b 0 1)).any fun w => w.kind == 1

/-- Set the pages of the trace DEVICE, or give them back. -/
def State.tracePagesSet (s : State) (on : Bool) : State :=
  let l := (List.range s.ev.tracePages).map fun i => s.ev.tracePage + i
  { s with host.windows := s.host.windows.map fun (e : Nat × Window) =>
      if e.1 = s.ev.traceWindow then
        (e.1, { e.2 with device := (e.2.device.filter fun p => !l.contains p) ++ if on then l else [] })
      else e }

/-- Start the trace with its parameter block: each core's first record is a sync, whose PC the model does not hold. -/
def State.traceStart (s : State) (b : List Byte) : State :=
  let s := { s with
    ev.tracing := true, ev.traceStopped := false, ev.traceWrapped := false, ev.traceWindow := fieldLE b 0 1, ev.traceWrap := fieldLE b 1 1 == 1
    ev.traceCores := BitVec.ofNat 8 (fieldLE b 2 1), ev.tracePage := fieldLE b 4 2, ev.tracePages := fieldLE b 6 2, ev.traceBytes := 0
    ev.traceFifo := [], ev.traceSince := [], ev.traceLoss := [] }
  let s := s.tracePagesSet true
  ((List.range 8).filter fun c => s.ev.traceCores.getLsbD c).foldl (fun t c =>
    let (pc, t) := t.free 64
    t.tracePut c (traceRec 3 c 0 pc)) s

/-- OBSERVE_SET: the mask, exactly (R491). -/
def State.observeSet (s : State) (mask : W64) (b : List Byte) : State :=
  let old := s.ev.facilities
  let s := s.wrFld .updCtrl 0 1 (if mask.getLsbD 0 then 1 else 0)
  let s := s.wrFld .strCtrl 1 1 (if mask.getLsbD 4 then 1 else 0)
  let sites := (List.range 8).filter fun k => s.jobs.vals.any fun j => j.admittedSites.getLsbD k
  let brx := (if mask.getLsbD 2 then 2 else 0) + if mask.getLsbD 3 then 4 else 0
  let s := if (old ||| mask) &&& 0xC = 0 then s
    else sites.foldl (fun t k =>
      let (x, t) := t.ownIdent
      t.siteSend k 0x1A x 0 (leBytes 4 4 ++ leBytes 4 brx)) s
  let s := if mask.getLsbD 1 then (if s.ev.tracing then s else (if s.ev.traceStopped then s.tracePagesSet false else s).traceStart b)
    else if s.ev.tracing || s.ev.traceStopped then
      ({ s with ev.tracing := false, ev.traceStopped := false }).tracePagesSet false
    else s
  let s := { s with ev.facilities := mask }
  if old = mask then s else s.raise .dbgIntStatus 2

/-! ### The sideband drop (R493 to R497) -/

/-- Set or clear a bit of SBB.PRESENCE. -/
def State.heard (s : State) (bit : Nat) (on : Bool) : State :=
  let p := if on then s.side.presence ||| BitVec.ofNat 11 (2 ^ bit) else s.side.presence &&& ~~~BitVec.ofNat 11 (2 ^ bit)
  if p = s.side.presence then s else ({ s with side.presence := p }).raise .sbbIntStatus 0

/-- This drop's address. -/
def State.drop (s : State) : Nat := if s.sideB then 2 else 1

/-- Send a frame. -/
def State.sbSend (s : State) (type : Nat) (payload : List Byte) : State :=
  if s.side.driverOff || s.pair.fenced then s
  else (({ s with side.frame := some (type, payload, 0), side.waiting := false }).sbFrame s.drop type payload).bump .sbbFramesTx

/-- The 12 bytes of a heartbeat leave on the sideband (R367, R378). -/
def State.sbHeartbeatTx (s : State) : State :=
  if s.fld .pairCtrl 0 1 = 1 ∧ s.pair.role != .withdrawn then s.sbSend 1 (s.heartbeatBody s.pair.halting) else s

/-- Arbitration is lost: the frame waits for an idle bus (R494). -/
def State.sbArbLoss (s : State) : State :=
  if s.side.frame.isSome && !s.side.waiting then ({ s with side.waiting := true }).bump .sbbArbLost else s

/-- A read-back mismatch aborts the frame with 16 dominant bits; it is tried again up to 3 times (R494). -/
def State.sbMismatch (s : State) : State :=
  match s.side.frame with
  | some (ty, p, n) =>
    if s.side.waiting then s
    else
      let t := (s.emit (.sidebandAbort s.drop)).bump .sbbAborts
      if n < 3 then { t with side.frame := some (ty, p, n + 1), side.waiting := true }
      else { t with side.frame := none, side.waiting := false }
  | none => s

/-- The idle wait is over: the frame goes again. -/
def State.sbRetry (s : State) : State :=
  match s.side.frame with
  | some (ty, p, _) => if s.side.waiting && !s.side.driverOff then ({ s with side.waiting := false }).sbFrame s.drop ty p else s
  | none => s

/-- The bus is stuck: the drop disables its driver (R495); while it is off the episode goes on and is counted once. -/
def State.sbStuck (s : State) : State :=
  if s.side.driverOff then s else (({ s with side.driverOff := true }).bump .sbbStuck).raise .sbbIntStatus 2

/-- After 10 ms: the drop drives again if the bus is free; either way a Degrade event names it. -/
def State.sbRecheck (s : State) (freed : Bool) : State :=
  if !s.side.driverOff then s
  else ({ s with side.driverOff := !freed }).evReason 1 .sbb 0xFFFF 0 0 [s.drop]

/-- A frame that is discarded: bad on the wire or too long, or unknown (R495, R496). The BMC counts as heard on any frame (R497). -/
def State.sbDiscard (s : State) (src : Byte) (bad : Bool) (payload : List Byte) : State :=
  if bad || 64 < payload.length then s.bump .sbbCrcErrors
  else
    let t := ((s.bump .sbbUnknown).raise .sbbIntStatus 1).detect 1 .sbb 0x33 0 0 (sliceBytes (src :: payload) 0 64)
    if src = 8 then t.heard 2 true else t

/-- A PRESENCE frame of a site; a payload of another length is unknown (R497). -/
def State.presenceRx (s : State) (site : Nat) (payload : List Byte) : State :=
  if payload.length != 4 then s.sbDiscard (BitVec.ofNat 8 (16 + site)) false payload
  else
    let t := (s.bump .sbbFramesRx).heard (3 + site) true
    { t with side.siteFlags := Tbl.set t.side.siteFlags site (payload.getD 3 0) }

/-- A BMC notice: a Notice event of code 0x33. -/
def State.bmcNotice (s : State) (payload : List Byte) : State :=
  if payload.length != 6 then s.sbDiscard 8 false payload
  else ((s.bump .sbbFramesRx).heard 2 true).detect 0 .sbb 0x33 0 0 (sliceBytes (8 :: payload) 0 64)

/-- A drop has not been heard for 3 of its intervals. -/
def State.presenceTimeout (s : State) (d : Nat) : State := s.heard d false

/-! ### The I3C target (R498) -/

/-- Dynamic address, by ENTDAA or SETDASA; none is taken while one is held. -/
def State.i3cAssign (s : State) (a : BitVec 7) : State := if s.side.i3cAddr.isSome then s else { s with side.i3cAddr := some a }
def State.i3cReset (s : State) : State := { s with side.i3cAddr := none }
def State.i3cEvents (s : State) (on : Bool) : State := if s.side.i3cAddr.isNone then s else { s with side.i3cEvents := on }

/-- The answer to a command code whose value the spec does not give: a free value of `n` bytes. -/
def State.i3cGet (s : State) (n : Nat) : State :=
  if s.side.i3cAddr.isNone then s
  else
    let (v, t) := s.free (8 * n)
    t.emit (.i3c (leBytes n v.toNat))

/-- A private write of 4 bytes sets the offset. -/
def State.i3cWrite (s : State) (off : W32) : State := if s.side.i3cAddr.isNone then s else { s with side.i3cOffset := off }

end Sys2Proof.Machine
end

