-- ==== Sys2Proof/Machine/Trust.lean ====
section
/-! DEFINITION. Trust and signatures (16_trust.md): firmware and boot, the root-of-trust core's signatures, attestation, authorisations. -/
namespace Sys2Proof.Machine

/-! ### Firmware (R444 to R447) -/

/-- Bytes of an image's header and code. -/
def fwBody (b : List Byte) : Nat := 64 + fieldLE b 0xC 4

/-- The owner signers of an object: owner keys, or Kerquel's while no owner slot is valid (R443). -/
def State.ownerSigners (s : State) : List Nat := [if s.ownerValid then 2 else 1]

/-- An image's signatures under step 3 of R444. -/
def State.fwSigned (s : State) (b : List Byte) : Bool :=
  let n := fwBody b
  let d := shake256 (b.take n)
  s.sigOk [1] 0xC0 d ((b.drop n).take (sigBlockBytes 1)) &&
    (!s.ownerValid || s.sigOk [2] 0xC0 d ((b.drop (n + sigBlockBytes 1)).take (sigBlockBytes 2)))

/-- Its header (R445). -/
def fwForm (b : List Byte) : Bool :=
  fieldLE b 0 2 == 0xC0 && fieldLE b 2 2 == 1 && zeroBytes b 0x10 48 && fwBody b ≤ b.length && b.length ≤ 2 ^ 23

/-- An image passes: 0; 2 its signatures or its form fail, 3 its svn is too low. -/
def State.fwCheck (s : State) (b : List Byte) : Nat :=
  if !fwForm b || !s.fwSigned b then 2 else if fieldLE b 8 4 < s.fuse.svnMin then 3 else 0

/-- FW_STAGE's code (R446): the signatures first. -/
def State.fwCode (s : State) (b : List Byte) : Nat :=
  if b.length < 64 || 2 ^ 23 < b.length || b.length < fwBody b then 0x0101
  else if !s.fwSigned b then 0x0108
  else if s.fwCheck b = 0 then 0 else 0x0101

/-- The bank of a number. -/
def SecSt.bank (x : SecSt) (b : Bool) : FwBank := if b then x.bank1 else x.bank0

/-- Write an image to a bank, its marker last. -/
def State.fwWrite (s : State) (bank : Bool) (b : List Byte) : State :=
  if bank then { s with sec.bank1 := ⟨b, true⟩ } else { s with sec.bank0 := ⟨b, true⟩ }

/-- A staged image goes into the bank that does not run, which boots next. -/
def State.fwStage (s : State) (b : List Byte) : State :=
  ({ s.fwWrite (!s.sec.bootBank) b with sec.staged := true }).raise .secIntStatus 1

/-- The fuse map as the measurement takes it: its rows in the order of R467 (log entry 11). -/
def State.fuseBytes (s : State) : List Byte :=
  leBytes 9 s.fuse.unitBad.toNat ++ leBytes 8 s.fuse.serial.toNat ++ leBytes 2 s.fuse.vendorId.toNat ++
    s.fuse.keyHash.flatMap digestBytes ++ leBytes 1 s.fuse.revoked.toNat ++ leBytes 8 (2 ^ s.fuse.svnMin - 1) ++
    digestBytes Config.macSeed ++ Config.fuseSecrets ++     leBytes 1 (if s.fuse.mfgLock then 1 else 0)

/-- The bank that boots: that marked last, which a staging makes the other one. -/
def SecSt.bootFirst (x : SecSt) : Bool := if x.staged then !x.bootBank else x.bootBank

/-- The ends of the records of a reservation sector that pass their CRC (R449). -/
def resvEnds (l : List ResvRec) : List Nat := (l.filter (·.crcOk)).map (·.blockEnd)

/-- The highest end among the records of both sectors that pass their CRC (R449); 0 with none. -/
def SecSt.highestEnd (x : SecSt) : Nat := (resvEnds (x.resv0 ++ x.resv1)).foldl max 0

/-- The sequence number of the next record: one above every one that the sectors hold. -/
def SecSt.resvSeq (x : SecSt) : Nat := ((x.resv0 ++ x.resv1).map (·.seq + 1)).foldl max 0

/-- A sector may be erased while the other holds a valid record whose end is above every end in it (R449). -/
def resvErasable (l other : List ResvRec) : Bool := (resvEnds other).any fun e => (resvEnds l).all (· < e)

/-- A record goes to the sector in use; where that is full the other one is erased first, or, if only that is allowed, the full one (R449).
With neither allowed no record is written. -/
def SecSt.resvPut (x : SecSt) (r : ResvRec) : SecSt :=
  let cur := if x.resvAt then x.resv1 else x.resv0
  let other := if x.resvAt then x.resv0 else x.resv1
  let put := fun (at1 : Bool) (l : List ResvRec) =>
    if at1 then { x with resv1 := l, resvAt := true } else { x with resv0 := l, resvAt := false }
  if cur.length < Config.resvRecords then put x.resvAt (cur ++ [r])
  else if other.isEmpty || resvErasable other cur then put (!x.resvAt) [r]
  else if resvErasable cur other then put x.resvAt [r]
  else x

/-- A boot bank whose signatures are refused is counted (R443). -/
def State.bankRefused (s : State) (k : FwBank) : State :=
  if k.marker && fwForm k.bytes && !s.fwSigned k.bytes then s.sigRefused else s

/-- The root-of-trust core's boot (R444): measurements, the passing bank, the session key (R451). It says whether a bank passed. -/
def State.boot (s : State) : State × Bool :=
  let s := { s with sec.m0 := shake256 (digestBytes Config.romDigest ++ s.fuseBytes), sec.m1 := 0, sec.m2 := 0, sec.recovery := false
                    sec.keyNo := none, sec.release := 0, sec.svn := 0, sec.nextIndex := s.sec.highestEnd, sec.reservedEnd := s.sec.highestEnd
                    sec.mailbox := [], sec.reserving := false }
  let first := s.sec.bootFirst
  let judge := fun (b : Bool) => let k := s.sec.bank b
    if k.marker then s.fwCheck k.bytes else 2
  let pass := fun (s : State) (b : Bool) (result : Nat) =>
    let img := (s.sec.bank b).bytes
    ({ s with sec.bootBank := b, sec.bootResult := Fin.ofNat 4 result, sec.staged := false
              sec.m1 := shake256 (img.take (fwBody img)), sec.release := BitVec.ofNat 32 (fieldLE img 4 4), sec.svn := fieldLE img 8 4
              sec.keyNo := some s.sec.keysDrawn, sec.keysDrawn := s.sec.keysDrawn + 1 }, true)
  let a : Nat := judge first
  let b : Nat := judge (!first)
  if a = 0 then pass s first 0
  else if b = 0 then pass (s.bankRefused (s.sec.bank first)) (!first) 1
  else
    let s := (s.bankRefused (s.sec.bank first)).bankRefused (s.sec.bank (!first))
    ({ s with sec.recovery := true, sec.bootResult := if a = 3 ∧ b = 3 then 3 else 2 }, false)

/-- SEC.CTRL.svn_commit: the fuses never fall (R446, R467). -/
def State.svnCommit (s : State) : State := { s with fuse.svnMin := max s.fuse.svnMin (min s.sec.svn 64) }

/-- M2 is extended by the digest of an accepted kernel or profile (R447). -/
def State.measure (s : State) (d : Digest) : State := { s with sec.m2 := shake256 (digestBytes s.sec.m2 ++ digestBytes d) }

/-! ### Signing (R448 to R450, R455) -/

/-- A request for the root-of-trust core: a reservation comes first where the next index lies at the reserved end. -/
def State.rotGo (s : State) : State :=
  if s.sec.mailbox.isEmpty || s.sec.reserving then s
  else { s with sec.reserving := decide (s.sec.reservedEnd ≤ s.sec.nextIndex ∧ s.sec.nextIndex + 1 < 2 ^ 40 - 1) }

/-- A reservation record is programmed and read back; a record that fails its CRC is written again (R449). -/
def State.reservationDone (s : State) (crcOk : Bool) : State :=
  if !s.sec.reserving then s
  else
    let put := { s with sec := s.sec.resvPut ⟨s.sec.resvSeq, s.sec.reservedEnd + 1024, crcOk⟩ }
    if crcOk && put.sec.highestEnd == s.sec.reservedEnd + 1024 then
      { put with sec.reservedEnd := s.sec.reservedEnd + 1024, sec.reserving := false }
    else put

/-- The device public key: 68 bytes. -/
def deviceKey : List Byte := (List.range 17).flatMap fun k => leBytes 4 (Config.devicePublicKey k).toNat

/-- A device signature block over a digest with an index (R441, R442). -/
def deviceBlock (otype : Nat) (d : Digest) (index : Nat) : List Byte :=
  let head := leBytes 2 0xA0 ++ leBytes 1 3 ++ leBytes 1 0 ++ leBytes 2 otype ++ leBytes 2 0
  head ++ leBytes 4 18469 ++ leBytes 4 3012 ++ deviceKey ++ List.replicate 12 0 ++
    sliceBytes (Config.xmssSign index (head ++ digestBytes d)) 0 18469 ++ sliceBytes Config.deviceCertificate 0 3012

/-- The attestation record (R448). -/
def State.attestRecord (s : State) (nonce : List Byte) : List Byte :=
  leBytes 2 0x80 ++ leBytes 2 1 ++ leBytes 2 s.pwr.strapsAt.id.toNat ++ leBytes 1 s.sideNat ++ leBytes 1 0xB1 ++
    leBytes 8 s.fuse.serial.toNat ++ leBytes 4 s.sec.release.toNat ++ leBytes 4 s.sec.svn ++ leBytes 4 s.fuse.svnMin ++
    leBytes 1 (((List.range 6).filter s.keyValid).map (2 ^ ·)).sum ++ leBytes 1 s.pair.role.code ++ leBytes 2 0 ++
    digestBytes s.sec.m0 ++ digestBytes s.sec.m1 ++ digestBytes s.sec.m2 ++ sliceBytes nonce 0 32 ++ timeBytes s.outTime ++
    List.replicate 18 0

/-- The oldest request ends: signed with the next index, or refused once the indices are used up (R450). -/
def State.signatureDone (s : State) : State :=
  match s.sec.mailbox with
  | [] => s
  | q :: rest =>
    if s.sec.reserving then s
    else
      let index := s.sec.nextIndex
      let s := { s with sec.mailbox := rest }
      let s := if 2 ^ 40 - 1 ≤ index + 1 then
          let t := s.raise .secIntStatus 0
          match q with
          | .attest cmd _ => t.finish cmd 0x0108
          | .manifest m => t.manifestRefused m
        else
          let t := ({ s with sec.nextIndex := index + 1 }).bump .secSignatures
          match q with
          | .attest cmd rec_ =>
            let out := rec_ ++ deviceBlock 0x80 (shake256 rec_) index
            let t := match t.run? cmd with
              | some r => t.wrefPut r.params 32 out
              | none => t
            t.finish cmd 0
          | .manifest m => t.manifestSigned m (deviceBlock 0x70 (shake256 m) index)
      s.rotGo

/-! ### Authorisations (R454) -/

/-- The conditions that an authorisation of R454 and one of R470 share: type, unit, power cycle and sequence; its offsets differ. -/
def State.authFields (s : State) (b : List Byte) (at_ : Nat) : Bool :=
  fieldLE b 0 2 == 0xB0 && fieldLE b at_ 8 == s.fuse.serial.toNat && fieldLE b (at_ + 8) 4 == s.ev.cycles &&
    fieldLE b (at_ + 12) 4 == s.sec.clearSeq

/-- An authorisation to clear the recorder. -/
def State.clearAuth (s : State) (b : List Byte) : Bool :=
  s.authFields b 8 && fieldLE b 2 2 == 1 && zeroBytes b 4 4 && zeroBytes b 0x18 16 &&
    s.sigOk s.ownerSigners 0xB0 (shake256 (b.take 40)) (b.drop 40)

/-- EVR_CLEAR, accepted: the authorisation is consumed, then the recorder is cleared. -/
def State.evrClear (s : State) : State := (({ s with sec.clearSeq := s.sec.clearSeq + 1 }).raise .secIntStatus 4).evClear

end Sys2Proof.Machine
end

