-- ==== Sys2Proof/Machine/HostCmd.lean ====
section
/-! DEFINITION. The commands of R416: their classes, roles and parameters, what a side checks of each that it can decide alone (R406
step 5), and what each does once accepted. Slots, the journal and acceptance are in Machine/Host.lean. -/
namespace Sys2Proof.Machine

/-! ### The opcode table (R405, R416) -/

/-- The classes of R405. -/
inductive CmdClass where
  | query | side | pair
  deriving DecidableEq, Repr

/-- A row of the opcode table: class, roles as a mask over the codes of R378, bytes of parameters, and whether the outcome comes under
R408 ("ring") rather than in the slot reply. -/
structure OpInfo where
  cls : CmdClass
  roles : BitVec 5
  size : Nat
  ring : Bool
  deriving DecidableEq, Repr

/-- The opcode table. BEDROCK_RESTORE has 8 bytes more for each manifest. -/
def opInfo (op : Nat) : Option OpInfo :=
  match op with
  | 0x0001 => some ⟨.query, 31, 0, false⟩ | 0x0002 => some ⟨.query, 31, 8, false⟩ | 0x0003 => some ⟨.query, 31, 8, false⟩
  | 0x0004 => some ⟨.query, 31, 16, false⟩ | 0x0005 => some ⟨.side, 31, 16, true⟩ | 0x0101 => some ⟨.side, 31, 8, false⟩
  | 0x0102 => some ⟨.side, 31, 1, false⟩ | 0x0103 => some ⟨.side, 31, 16, true⟩ | 0x0104 => some ⟨.side, 31, 1, false⟩
  | 0x0105 => some ⟨.side, 31, 16, true⟩ | 0x0106 => some ⟨.side, 31, 1, false⟩ | 0x0107 => some ⟨.side, 15, 2, true⟩
  | 0x0108 => some ⟨.side, 15, 2, true⟩ | 0x0109 => some ⟨.side, 7, 16, false⟩ | 0x010A => some ⟨.side, 7, 4, false⟩
  | 0x010B => some ⟨.side, 7, 3, true⟩ | 0x010C => some ⟨.side, 16, 0, true⟩ | 0x010D => some ⟨.side, 7, 16, false⟩
  | 0x010E => some ⟨.side, 31, 16, false⟩ | 0x010F => some ⟨.side, 31, 8, false⟩ | 0x0110 => some ⟨.side, 31, 8, true⟩
  | 0x0111 => some ⟨.side, 31, 40, true⟩ | 0x0201 => some ⟨.pair, 5, 4, false⟩ | 0x0202 => some ⟨.pair, 5, 24, true⟩
  | 0x0203 => some ⟨.pair, 5, 8, true⟩ | 0x0204 => some ⟨.pair, 5, 0, true⟩ | 0x0205 => some ⟨.pair, 5, 1, true⟩
  | 0x0206 => some ⟨.pair, 5, 16, true⟩ | 0x0207 => some ⟨.pair, 5, 64, true⟩ | 0x0208 => some ⟨.pair, 5, 16, true⟩
  | 0x0209 => some ⟨.pair, 5, 4, true⟩ | 0x020A => some ⟨.pair, 5, 4, true⟩ | 0x020B => some ⟨.pair, 5, 4, true⟩
  | 0x020C => some ⟨.pair, 5, 48, true⟩ | 0x020D => some ⟨.pair, 5, 16, true⟩ | 0x020E => some ⟨.pair, 5, 0, true⟩
  | 0x020F => some ⟨.pair, 5, 2, true⟩ | 0x0210 => some ⟨.pair, 5, 0, false⟩ | 0x0211 => some ⟨.pair, 5, 12, true⟩
  | 0x0212 => some ⟨.pair, 5, 1, true⟩ | 0x0213 => some ⟨.pair, 5, 24, true⟩ | 0x0214 => some ⟨.pair, 5, 32, false⟩
  | 0x0215 => some ⟨.pair, 5, 0, false⟩ | 0x0216 => some ⟨.pair, 5, 0, false⟩ | 0x0217 => some ⟨.pair, 5, 16, true⟩
  | 0x0218 => some ⟨.pair, 1, 0, true⟩ | 0x0219 => some ⟨.pair, 5, 1, false⟩
  | _ => none

/-- Bytes of parameters of a command. -/
def paramSize (op : Nat) (size : Nat) (p : List Byte) : Nat := if op = 0x0217 then 16 + 8 * fieldLE p 0 1 else size

/-- Opcodes that name a job (R416). -/
def opJob (op : Nat) (job : W32) : Bool :=
  op == 0x0003 || op == 0x010A || op == 0x010B || (0x0204 ≤ op && op ≤ 0x020E) || (0x0213 ≤ op && op ≤ 0x0217) || (op == 0x0101 && job != 0)

/-- Recovery commands (R329, R330). -/
def opRecovery (op : Nat) : Bool :=
  op == 0x010A || op == 0x010B || op == 0x0208 || op == 0x0209 || op == 0x020A || op == 0x020B || op == 0x020C

/-- Offsets of the window references among the parameters. -/
def opRefs (op : Nat) (p : List Byte) : List Nat :=
  match op with
  | 0x0003 => [0] | 0x0004 => [8] | 0x0005 => [8] | 0x0103 => [8] | 0x0105 => [8] | 0x0109 => [8] | 0x010D => [8]
  | 0x010E => if (fieldLE p 0 1).testBit 1 then [8] else []
  | 0x010F => [0] | 0x0110 => [0] | 0x0111 => [32] | 0x0202 => [8, 16] | 0x0203 => [0] | 0x0206 => [8] | 0x020C => [8] | 0x0213 => [16]
  | 0x0214 => [24] | 0x0217 => 8 :: (List.range (fieldLE p 0 1)).map fun i => 16 + 8 * i
  | _ => []

/-- Ranges of the parameters, their reserved bytes and their window references. -/
def paramsOk (op : Nat) (p : List Byte) : Bool :=
  let f := fieldLE p
  (opRefs op p).all (wrefForm p) && (match op with
    | 0x0004 => f 0 1 < 8 && zeroBytes p 1 7
    | 0x0005 => f 0 1 < 8 && 1 ≤ f 1 1 && f 1 1 ≤ 64 && zeroBytes p 2 2 && f 4 4 % 4 == 0
    | 0x0101 => f 0 1 < 64 && (f 1 1 == 1 || (f 1 1 == 2 && 1 ≤ f 2 1 && f 2 1 ≤ 3)) && zeroBytes p 3 1
    | 0x0102 => f 0 1 < 64
    | 0x0103 => f 0 1 < 8 && zeroBytes p 1 7
    | 0x0104 => f 0 1 < 8
    | 0x0105 => f 0 1 < 64 && zeroBytes p 1 7
    | 0x0106 => f 0 1 < 64
    | 0x0107 => f 1 1 < 3
    | 0x0108 => f 0 1 < 64 && f 1 1 < 3
    | 0x0109 => f 12 4 % 16 == 0 && 2 ≤ f 12 4 / 16 && f 12 4 / 16 ≤ 64
    | 0x010A => f 0 2 < 4096 && f 2 2 < 4096
    | 0x010B => f 0 2 < 4096 && 1 ≤ f 2 1 && f 2 1 ≤ 3
    | 0x010D => f 0 1 < 2 && zeroBytes p 1 1 && f 2 2 < 4096 && zeroBytes p 4 4 && f 12 4 == 65536
    | 0x010E => f 0 8 < 32
    | 0x0201 => f 0 1 < 16 && zeroBytes p 1 1
    | 0x0202 => f 0 1 < 16 && zeroBytes p 1 7
    | 0x0205 => f 0 1 < 2
    | 0x0206 => f 0 1 < 2 && zeroBytes p 1 7
    | 0x0209 => f 0 4 ≤ 60000
    | 0x020A => f 0 4 ≤ 60000
    | 0x020B => f 0 1 < 8 && zeroBytes p 1 1
    | 0x020C => f 0 1 < 8 && zeroBytes p 1 7
    | 0x020D => f 0 1 < 2 && zeroBytes p 1 3
    | 0x020F => f 0 2 < 4096
    | 0x0211 => f 0 1 < 8 && zeroBytes p 1 3 && f 4 4 % 4 == 0
    | 0x0212 => f 0 1 < 8
    | 0x0213 => f 8 4 ≤ 86400 && zeroBytes p 12 4
    | 0x0214 => f 8 4 ≤ 86400 && (f 12 4 == 0 || (60 ≤ f 12 4 && f 12 4 ≤ 604800)) && 1 ≤ f 16 1 && zeroBytes p 17 7
    | 0x0217 => 1 ≤ f 0 1 && f 0 1 ≤ 8 && zeroBytes p 1 3 && f 4 4 ≤ 86400
    | 0x0219 => f 0 1 < 2
    | _ => true)

/-- A timeout in seconds whose 0 stands for the default (R383, log entry 19). -/
def secondsOr (v d : Nat) : Nat := if v = 0 then d else v

/-! ### Checks that a side decides alone (R406 step 5) -/

/-- The code of the first check that fails. -/
def firstCode : List (Bool × Nat) → Nat
  | [] => 0
  | (bad, c) :: r => if bad then c else firstCode r

/-- A start of the job lies between PREPARE and its outcome. -/
def Job.starting (j : Job) : Bool := j.phase == .preparing || j.phase == .prepared || j.phase == .inDoubt

/-- The root tray's side of the job: plane index 0. -/
def State.rootOfJob (s : State) (j : Job) : Bool := s.jobIdx j == 0

/-- Targets are in use by a bedrock or a restore (R382). -/
def State.targetsUsed (s : State) : Bool := s.jobs.vals.any fun j => j.bed.isSome || j.restore.isSome

/-- The job's state is one that the opcode requires (R329 and the rules of each opcode). -/
def State.stateOk (s : State) (op : Nat) (j : Job) (p : List Byte) : Bool :=
  let live := j.phase == .running || j.phase == .held || j.phase == .recovering
  match op with
  | 0x010A => j.phase == .held || j.phase == .staged
  | 0x010B => j.phase == .held
  | 0x0204 => j.phase == .staged && s.rootOfJob j && (j.strata.held || !j.restoring) && j.restore.isNone
  | 0x0205 => fieldLE p 0 1 == 1 || s.rootOfJob j
  | 0x0206 => j.phase != .tearingDown && !j.starting && j.newSched.isNone
  | 0x0207 => live && j.newParams.isNone
  | 0x0208 => (j.phase == .running || j.phase == .held) && s.rootOfJob j && j.newRollback.isNone
  | 0x0209 => j.phase == .held && s.rootOfJob j && !j.recov.needsFill
  | 0x020A => j.phase == .held && s.rootOfJob j && !j.recov.needsFill
  | 0x020B => j.phase == .held
  | 0x020C => j.phase == .held
  | 0x020D => live
  | 0x020E => live && s.coverKind j == 2 && j.strata.held
  | 0x0213 => (j.phase == .running || j.phase == .held) && s.rootOfJob j && j.bedrocks
  | 0x0214 => live && s.rootOfJob j && j.bedrocks
  | 0x0216 => j.bed.isSome && s.rootOfJob j
  | 0x0217 => j.phase == .staged && j.restoring && s.rootOfJob j
  | _ => true

/-- A spare may take a position (R291). -/
def State.positionOk (s : State) (p : W16) : Bool :=
  let t := { s with tor.position := some p }
  s.pwr.strapsAt.spare && s.tor.position.isNone && p.toNat < 4096 && posCoord p 1 == s.pwr.strapsAt.y.toNat && posCoord p 2 == s.pwr.strapsAt.z.toNat &&
    t.neighState 0 == 1 && t.neighState 1 == 1 && (List.range 6).all fun i => !(t.port (9 + i)).up || t.neighState i == 1

/-- A page or payload that PAGE_REPAIR may name is poisoned or damaged (R85). -/
def Job.repairable (j : Job) (silt : Bool) (page : Nat) (step : W64) : Bool :=
  if silt then j.silt.any fun e => e.step == step && e.damaged && page < j.siltPages
  else (j.strata.committed :: j.strata.assayed :: j.strata.retained ++ j.strata.pin.toList).any fun x => x.step == step && x.poisoned.contains page

/-- Frames of a stack that no quota reserves and no window has taken (R413). -/
def State.unreserved (s : State) (k : Nat) : Nat :=
  36800 - s.quotaSum - (onStack k ((s.host.windows.vals.filter fun w => w.job = 0 ∧ w.kind = 1).flatMap Window.frames)).length

/-- A quota would break the sum of R63 on some stack, frames counted that no quota covers: those of SCRATCH windows of no job, and those
that a job holds above its own quota. -/
def State.quotaExceeds (s : State) (slot frames : Nat) : Bool :=
  (List.range 16).any fun k =>
    let free := s.unreserved k
    let excess := (s.jobs.vals.map fun j => if j.slot = slot then s.usage j k - max (s.quota slot) frames else s.usage j k - s.quota j.slot).sum
    free + s.quota slot < frames + excess

/-- Frames are lacking for a SCRATCH window: 8 on each stack (R413). -/
def State.windowLacks (s : State) (job : W32) : Bool :=
  (List.range 16).any fun k =>
    if job = 0 then s.unreserved k < 8
    else match s.job? job with
      | some j => s.quota j.slot < s.usage j k + 8
      | none => true

/-- The stratum that a STRATUM window shows. -/
def Job.shown (j : Job) (which : Nat) : Option Stratum :=
  if !j.strata.held then none
  else if which = 1 then some j.strata.committed else if which = 2 then some j.strata.assayed else j.strata.pin

/-- Busy objects, states of objects, quotas and targets: the code for an opcode. -/
def State.objectCode (s : State) (op : Nat) (job : W32) (p : List Byte) : Nat :=
  let f := fieldLE p
  match op with
  | 0x0101 => firstCode [((s.window? (f 0 1)).isSome, 0x0105),
      (f 1 1 == 2 && job == 0, 0x0106), (f 1 1 == 2 && ((s.job? job).bind fun j => j.shown (f 2 1)).isNone, 0x0105),
      (f 1 1 == 1 && s.windowLacks job, 0x010A)]
  | 0x0102 => firstCode [((s.window? (f 0 1)).any fun w => !w.device.isEmpty, 0x0104)]
  | 0x0103 => firstCode [(s.kernelUsed (f 0 1), 0x0104)]
  | 0x0104 => firstCode [(s.kernelUsed (f 0 1), 0x0104)]
  | 0x0105 => firstCode [(s.profileUsed (f 0 1), 0x0104)]
  | 0x0106 => firstCode [(s.profileUsed (f 0 1), 0x0104)]
  | 0x0109 => firstCode [(s.targetsUsed, 0x0104)]
  | 0x010C => firstCode [(s.pwr.essentialLost || s.pwr.strapUnstable || s.pair.rejoin.isSome, 0x0105)]
  | 0x010D =>
    let t := Tbl.get s.acc.tiles Tile.free (f 2 2)
    firstCode [(!(t.state == .free || (f 0 1 == 0 && t.state == .closed)), 0x0112)]
  | 0x0201 => firstCode [(s.quotaExceeds (f 0 1) (f 2 2), 0x010A)]
  | 0x0202 => firstCode [(s.jobs.any fun e => e.1 == f 0 1, 0x0105)]
  | 0x0208 => firstCode [((s.job? job).any fun j => !j.rollbackOk (BitVec.ofNat 64 (f 0 8)) (BitVec.ofNat 64 (f 8 8)), 0x0105)]
  | 0x020D => firstCode [(s.store.repair.isSome, 0x0104), (s.pair.partnerFailed, 0x0105),
      ((s.job? job).any fun j => !j.repairable (f 0 1 == 1) (f 4 4) (BitVec.ofNat 64 (f 8 8)), 0x0105)]
  | 0x020F => firstCode [(!s.positionOk (BitVec.ofNat 16 (f 0 2)), 0x0105)]
  | 0x0210 => firstCode [(!s.jobs.isEmpty, 0x0104), (!s.pwr.strapsAt.spare || s.tor.position.isNone, 0x0105)]
  | 0x0213 => firstCode [((s.job? job).any fun j => j.bed.isSome, 0x0104), (s.host.targets.isNone, 0x010B)]
  | 0x0214 => firstCode [(s.host.targets.isNone, 0x010B)]
  | 0x0217 => firstCode [((s.job? job).any fun j => j.restore.isSome, 0x0104), (s.host.targets.isNone, 0x010B)]
  | 0x0218 => firstCode [(s.pair.switching.isSome, 0x0104),
      (s.pair.partnerRole != .standby || s.jobs.vals.any (fun j => j.phase == .recovering || j.starting), 0x0105)]
  | 0x0219 => firstCode [(s.pair.role == .sole && (f 0 1 == 1) == s.sideB, 0x0105)]
  | _ => 0

/-- Checks of what a window holds. -/
def State.contentCode (s : State) (op : Nat) (job : W32) (p : List Byte) : Nat :=
  let f := fieldLE p
  match op with
  | 0x0103 => s.kernelCheck (s.wrefBytes p 8)
  | 0x0105 => s.profileCheck (s.wrefBytes p 8)
  | 0x0109 =>
    let b := s.wrefBytes p 8
    if (List.range (f 12 4 / 16)).all fun i => 2 ^ 21 + 128 ≤ fieldLE b (16 * i + 8) 8 then 0 else 0x0101
  | 0x010E => if (f 0 1).testBit 1 && !s.traceOk (s.wrefBytes p 8) then 0x0101 else 0
  | 0x010F => if s.clearAuth (s.wrefBytes p 0) then 0 else 0x010E
  | 0x0110 => s.fwCode (s.wrefBytes p 0)
  | 0x0202 =>
    let d := s.wrefBytes p 8
    if (s.job? (BitVec.ofNat 32 (fieldLE d 4 4))).isSome then 0x0105 else s.stageCheck job d (s.wrefBytes p 16)
  | 0x0203 => s.pelCheck (s.wrefBytes p 0)
  | 0x0206 => match s.job? job with
    | some j => s.schedCode j (s.wrefBytes p 8)
    | none => 0x0106
  | 0x020C =>
    let cap := Tbl.get s.host.siteCap [] (f 0 1)
    if f 12 4 = 0 ∨ f 12 4 % 8 != 0 then 0x0101
    else if !cap.isEmpty && 8 * fieldLE cap 0x1C 4 < f 12 4 then 0x0109 else 0
  | 0x0213 => match s.job? job with
    | some j => if s.dedupOk j (s.wrefBytes p 16) then 0 else 0x0101
    | none => 0x0106
  | 0x0214 => match s.job? job with
    | some j => if s.dedupOk j (s.wrefBytes p 24) then 0 else 0x0101
    | none => 0x0106
  | _ => 0

/-- The admission of a command (R406 step 5): 0, or the code of its refusal. -/
def State.admitCode (s : State) (op : Nat) (job : W32) (gen : W16) (p : List Byte) : Nat :=
  if !paramsOk op p then 0x0101
  else match (if opJob op job then some (s.job? job) else none) with
    | some none => 0x0106
    | some (some j) =>
      firstCode [(opRecovery op && j.recov.running != 0, 0x0104), (!s.stateOk op j p, 0x0105),
        (j.phase == .running && (s.pel j.pelSlot).all (fun t => t.gen != gen), 0x0107),
        (s.objectCode op job p != 0, s.objectCode op job p), ((opRefs op p).any fun o => !s.wrefReady p o, 0x0110),
        (s.contentCode op job p != 0, s.contentCode op job p)]
    | none =>
      firstCode [(s.objectCode op job p != 0, s.objectCode op job p), ((opRefs op p).any fun o => !s.wrefReady p o, 0x0110),
        (s.contentCode op job p != 0, s.contentCode op job p)]

/-- The partner's own checks of a class P command (R163, R291, R406). -/
def State.partnerCode (s : State) (op : Nat) (job : W32) (p : List Byte) : Nat :=
  if opJob op job && (s.job? job).isNone then 0x0106
  else firstCode [((opRefs op p).any fun o => op != 0x0217 && !s.wrefReady p o, 0x0110),
    ((op == 0x0201 || op == 0x0202 || op == 0x020F) && s.objectCode op job p != 0, 0x010D),
    (s.contentCode op job p != 0, s.contentCode op job p)]

/-- What a refusal at admission leaves besides its reply and the interrupt bit of its unit (R443, R458). -/
def State.refusalMarks (s : State) (op code : Nat) (p : List Byte) : State :=
  let s := if code = 0x0108 then s.sigRefused else s
  match op with
  | 0x010F =>
    let b := s.wrefBytes p 0
    if code = 0x010E && !s.sigOk s.ownerSigners 0xB0 (shake256 (b.take 40)) (b.drop 40) then s.sigRefused else s
  | _ => s

/-! ### What the commands do -/

/-- The answer of a command whose work has ended: code, detail, result. -/
abbrev CmdEnd := Option (Nat × Nat × W64)

/-- Done, with nothing to report. -/
def cmdOk : CmdEnd := some (0, 0, 0)

/-- JOB_STATUS: the recovery status (R331) and the cadences (R55). A job that has not started has no state code: a free value. -/
def State.jobStatus (s : State) (j : Job) (p : List Byte) : State :=
  let (st, s) := if j.phase == .staged || j.phase == .preparing || j.phase == .prepared then
      let (v, t) := s.free 8
      (v.toNat, t)
    else (j.phase.code, s)
  let cover := (if s.coverKind j = 0 then 1 else 0) + (if j.escrowMissing then 2 else 0) + (if j.buddy.invalid then 4 else 0)
  let r := j.recov
  s.wrefPut p 0 (leBytes 4 j.id.toNat ++ leBytes 1 st ++ [r.outcome] ++ leBytes 2 cover ++ leBytes 4 r.reasons.toNat ++
    leBytes 2 r.failedSite.toNat ++ leBytes 2 r.failedPosition.toNat ++ leBytes 8 j.committed.toNat ++ leBytes 8 j.assayed.toNat ++
    leBytes 8 ((j.inVote.map OpenStep.step).getD 0).toNat ++ leBytes 8 r.command.toNat ++ leBytes 8 r.fillDone.toNat ++
    leBytes 8 r.fillTotal.toNat ++ leBytes 8 j.streaming.toNat ++ leBytes 8 j.committed.toNat ++ leBytes 8 j.assayed.toNat)

/-- SITE_CAP: the table last received; free bytes where none has been. -/
def State.siteCapOut (s : State) (p : List Byte) : State :=
  match s.host.siteCap.find? fun e => e.1 == fieldLE p 0 1 with
  | some (_, b) => s.wrefPut p 8 (sliceBytes b 0 256)
  | none =>
    let (b, t) := s.freeBytes 256
    t.wrefPut p 8 b

/-- Frames of a SCRATCH window, frame `k` on stack `k` mod 16, zeroed. -/
def State.scratchFrames (w : Nat) (job : W32) : Nat → State → State
  | 0, s => s
  | n + 1, s =>
    let old := (s.window? w).getD ⟨1, job, [], []⟩
    let f := (s.freeFrame (old.frames.length % 16)).getD (2 ^ 20)
    State.scratchFrames w job n { s with
      host.windows := Tbl.set s.host.windows w { old with frames := old.frames ++ [f] }, mem := memClear s.mem (frameAddr f) (2 ^ 21) }

/-- The reference under which a STRATUM window keeps its frames. -/
def windowRef (w : Nat) : Nat := 1000 + w

/-- WINDOW_MAP (R413). -/
def State.windowMap (s : State) (job : W32) (p : List Byte) : State :=
  let f := fieldLE p
  let w := f 0 1
  if f 1 1 = 1 then State.scratchFrames w job 128 { s with host.windows := Tbl.set s.host.windows w ⟨1, job, [], []⟩ }
  else s.onJob job fun j =>
    match j.shown (f 2 1) with
    | none => s
    | some t =>
      let l := ((List.range 128).map fun i => f 4 4 + i).filter fun i => i < j.leaves
      let frames := l.map fun i => (mapFrame t.map i).getD (2 ^ 20)
      { s with host.windows := Tbl.set s.host.windows w ⟨2, job, frames, []⟩
               store.refs := s.store.refs ++ [(⟨windowRef w, frames.filter (· != 2 ^ 20)⟩ : ReadRef)] }

/-- WINDOW_UNMAP (R413). -/
def State.windowUnmap (s : State) (w : Nat) : State :=
  ({ s with host.windows := Tbl.erase s.host.windows w }).refEnd (windowRef w)

/-- A load or an unload takes effect (R138). -/
def State.kernelPlace (s : State) (slot : Nat) : Option (List Byte) → State
  | some img => ({ s with host.kernels := Tbl.set s.host.kernels slot img }).raise .updIntStatus 0
  | none => { s with host.kernels := Tbl.erase s.host.kernels slot }

/-- The result of KERNEL_LOAD: the image's kernel_id. -/
def kernelId (img : List Byte) : W64 := BitVec.ofNat 64 (fieldLE img 4 2)

/-- A load or an unload of command `r` takes effect now where every job is between steps, else it waits (R138). -/
def State.kernelChange (s : State) (r : CmdRun) (slot : Nat) (img : Option (List Byte)) : State × CmdEnd :=
  if s.kernelsIdle && s.host.kernelDue.isEmpty then (s.kernelPlace slot img, some (0, 0, (img.map kernelId).getD 0))
  else ({ s with host.kernelDue := s.host.kernelDue ++ [(⟨slot, img, r.id⟩ : KernelDue)] }, none)

/-- KERNEL_LOAD (R138, R447, R148): the image without its signature; M2 takes its digest on acceptance. -/
def State.kernelLoad (s : State) (r : CmdRun) : State × CmdEnd :=
  let b := s.wrefBytes r.params 8
  let img := b.take (0x240 + 4 * fieldLE b 0x18 2)
  (s.measure (shake256 img)).kernelChange r (fieldLE r.params 0 1) (some img)

/-- The loads and unloads that waited take effect, in order, and the loads complete (R138). -/
def State.kernelsGo (s : State) : State :=
  if !s.kernelsIdle || s.host.kernelDue.isEmpty then s
  else s.host.kernelDue.foldl (fun (t : State) (d : KernelDue) =>
    (t.kernelPlace d.slot d.image).finish d.cmd 0 0 ((d.image.map kernelId).getD 0)) { s with host.kernelDue := [] }

/-- PROFILE_LOAD (R187, R447). -/
def State.profileLoad (s : State) (p : List Byte) : State :=
  let b := (s.wrefBytes p 8).take 64
  ({ s with host.profiles := Tbl.set s.host.profiles (fieldLE p 0 1) b }).measure (shake256 b)

/-- SPOKE_TRAIN, or TORUS_TRAIN from port 9 on (R260, R280): each named port trains, or is disabled. -/
def State.trainMask (s : State) (base mask action : Nat) : State :=
  ((List.range 8).filter fun k => mask.testBit k).foldl (fun t k =>
    let q := base + k
    if action = 2 then
      (if q < 8 then t.disableWrite q true
       else if (t.port q).up then (t.failLinks q).leaveActive q .disabled else t.portStop q .disabled)
    else
      let t := if q < 8 then t.wrFld .spkCtrl 0 1 0 q else t
      t.trainStart q (action = 1)) s

/-- The ports of a training command have stopped training: it completes with a width code for each. -/
def State.trainGo (s : State) (r : CmdRun) : State :=
  let base := if r.opcode = 0x0107 then 0 else 9
  let l := (List.range 8).filter fun k => (fieldLE r.params 0 1).testBit k
  if l.any fun k => let st := (s.port (base + k)).state
      !(st == .active || st == .down || st == .disabled) then s
  else s.finish r.id 0 0 (BitVec.ofNat 64 (l.map fun k =>
    (if (s.port (base + k)).up then (s.port (base + k)).widthCode.val else 0) * 16 ^ k).sum)

/-- BEDROCK_TARGETS (R382). -/
def State.setTargets (s : State) (p : List Byte) : State :=
  let b := s.wrefBytes p 8
  let l := (List.range (fieldLE p 12 4 / 16)).map fun i =>
    (BitVec.ofNat 64 (fieldLE b (16 * i) 8), BitVec.ofNat 64 (fieldLE b (16 * i + 8) 8))
  { s with host.targets := some ⟨BitVec.ofNat 64 (fieldLE p 0 8), l, 0, []⟩ }

/-- TILE_COPY (R108, R109, R416): a write leaves the tile FREE with its contents. -/
def State.tileCopy (s : State) (p : List Byte) : State :=
  let n := fieldLE p 2 2
  let t := Tbl.get s.acc.tiles Tile.free n
  if fieldLE p 0 1 = 0 then
    s.wrefPut p 8 ((List.range 16384).flatMap fun i => leBytes 4 (Tbl.get t.elems 0 i).toNat)
  else
    let b := s.wrefBytes p 8
    let elems : Tbl W32 := (List.range 16384).filterMap fun i =>
      let v := fieldLE b (4 * i) 4
      if v = 0 then none else some (i, BitVec.ofNat 32 v)
    { s with acc.tiles := if elems.isEmpty then Tbl.erase s.acc.tiles n else Tbl.set s.acc.tiles n { Tile.free with elems := elems } }

/-- REGION_QUOTA (R63, R65). -/
def State.regionQuota (s : State) (slot frames : Nat) (cmd : W64) : State :=
  let s := s.quotaPut (if frames = 0 then Tbl.erase s.store.quota slot else Tbl.set s.store.quota slot frames)
  let s := s.jobs.vals.foldl (fun (t : State) (j : Job) =>
    if j.slot = slot then
      let t := if !j.overQuota && (List.range 16).any fun k => t.quota slot < t.usage j k then
          (t.modJob j.id fun j => { j with overQuota := true }).evInt 1 .strIntStatus 2 j.id cmd
            ([frames] ++ (List.range 16).map (fun k => t.usage j k) ++ [cmd.toNat])
        else t
      if j.phase != .staged && !t.quotaHolds j then t.evReason 1 .str 0xFFFF j.id cmd [frames] else t
    else t) s
  s.quotaCheck

/-- JOB_STAGE (R414). -/
def State.jobStage (s : State) (p : List Byte) : State :=
  s.setJob (Job.staged (fieldLE p 0 1) (s.wrefBytes p 8) (s.wrefBytes p 16))

/-- The first step of a start (R55, R415). -/
def Job.firstStart (j : Job) : W64 := if j.restoring then j.committed + 1 else BitVec.ofNat 64 (j.run 8 8)

/-- The packet of a running command, from the journal. -/
def State.packetOf (s : State) (id : W64) : List Byte := ((s.host.journal.find? fun e => e.id == id).map JEntry.packet).getD []

/-- JOB_RESUME and STEP_RETRY at the root: the command goes down the tree, and the first barrier begins (R338). -/
def State.resumeCmd (s : State) (j : Job) (r : CmdRun) : State :=
  (s.cmdSpread j (s.packetOf r.id) 0).resumeBegin j.id r.opcode r.id

/-- Commands that apply at a commit boundary (R54, R365): a table of a running job, a schedule, parameters, a rollback, a bedrock. -/
def State.boundaryOp (s : State) (r : CmdRun) : Bool :=
  r.opcode == 0x0206 || r.opcode == 0x0207 || r.opcode == 0x0208 || r.opcode == 0x0213 ||
    (r.opcode == 0x0203 && !(s.pelUsers (fieldLE (s.wrefBytes r.params 0) 0xD 1)).isEmpty)

/-- The boundary that the side that leads names: after the commit of the current step, or the next where that commit is with the partner;
R353 and R383 name theirs. -/
def State.boundaryOf (s : State) (r : CmdRun) : W64 :=
  let j? := if r.opcode = 0x0203 then (s.pelUsers (fieldLE (s.wrefBytes r.params 0) 0xD 1)).head? else s.job? r.job
  match j? with
  | none => 0
  | some j =>
    if j.phase != .running then j.committed
    else if r.opcode = 0x0208 then j.committed + 1
    else if r.opcode = 0x0213 then j.committed + 2
    else if j.open_.head?.any fun o => o.commit == .exchange then j.committed + 2
    else j.committed + 1

/-- Apply a command at its boundary, or order it for the boundary (R54, R163, R299, R353, R365, R383). -/
def State.applyAt (s : State) (r : CmdRun) (b : W64) : State :=
  let p := r.params
  if r.opcode = 0x0203 then
    let t := s.wrefBytes p 0
    let slot := fieldLE t 0xD 1
    match (s.pelUsers slot).head? with
    | some j => (s.setJob { j with newPel := j.newPel ++ [(slot, pelOf t, b, r.id)] }).pelApply j.id
    | none => ({ s with tor.peloton := Tbl.set s.tor.peloton slot (pelOf t) }).finish r.id 0
  else match s.job? r.job with
    | none => s.finish r.id 0x0106
    | some j =>
      let now := j.phase != .running
      if r.opcode = 0x0206 then
        let t := s.wrefBytes p 8
        if now then ((s.setJob { j with sched := t, deferred := none }).raise .stmIntStatus 1).finish r.id 0 0 (j.committed + 1)
        else (s.setJob { j with newSched := some (t, fieldLE p 0 1 == 1, b, r.id) }).scheduleApply j.id
      else if r.opcode = 0x0207 then (s.setJob { j with newParams := some (p.take 64, if now then j.committed else b, r.id) }).paramsApply j.id
      else if r.opcode = 0x0208 then
        (s.cmdSpread j (s.packetOf r.id) b).rollbackOrder j.id (BitVec.ofNat 64 (fieldLE p 0 8)) (BitVec.ofNat 64 (fieldLE p 8 8)) b r.id
      else s.bedStart j.id (BitVec.ofNat 64 (fieldLE p 0 8)) r.id b (s.packetOf r.id) (s.wrefBytes p 16)
        (secondsOr (fieldLE p 8 4) 3600) false

/-- A boundary command is accepted: the side that leads names the boundary in APPLY, and waits for the partner's acknowledgement; alone
it applies the command itself (R365, R366). -/
def State.applyBegin (s : State) (r : CmdRun) : State :=
  if !s.leads then
    match s.pair.applies.find? fun a => a.1 == r.id with
    | some (_, b) => ({ s with pair.applies := s.pair.applies.filter fun a => a.1 != r.id }).applyAt r b
    | none => s.modRun r.id fun r => { r with stage := 1 }
  else
    let b := s.boundaryOf r
    if s.pair.partnerFailed then s.applyAt r b
    else (s.modRun r.id fun r => { r with stage := 1, result := b }).pairSend 0x43 r.id r.job (leBytes 8 b.toNat)

/-- PAIR_SWITCH (R376): APPLY has gone for every accepted command; HANDOVER follows once those are acknowledged. -/
def State.switchBegin (s : State) (r : CmdRun) : State :=
  { s with pair.switching := some r.id }

/-- HANDOVER leaves when no APPLY is awaited: the last journal_seq and the last step with directives. -/
def State.switchGo (s : State) : State :=
  match s.pair.switching with
  | none => s
  | some _ =>
    if s.pair.sent.any (fun x => x.ty == 0x43 || x.ty == 0x44) || s.host.runs.any (fun r => r.slot.isSome) then s
    else
      let last := (s.jobs.vals.map fun j => j.directed.toNat).foldl max 0
      s.pairSend 0x44 0 0 (leBytes 8 (s.host.nextSeq - 1) ++ leBytes 8 last)

/-- PAIR_REJOIN on a withdrawn side (R374): it trains the pair link and waits for the survivor's copy. -/
def State.rejoinBegin (s : State) (r : CmdRun) : State :=
  let t := { s with pair.role := .joining, pair.fenced := false, pair.halting := false, pair.rejoin := some (r.id, 1), pair.rejoinBytes := 0
                    pair.partnerFailed := false, pair.partnerRole := .sole, pair.sent := [], pair.applied := [], pair.joinStep := []
                    pair.joinSent := [], jobs := [] }
  if (t.port 8).up then t else t.trainStart 8 false

/-- Execute an accepted command: what ends at once answers its end. -/
def State.cmdExec (s : State) (r : CmdRun) : State × CmdEnd :=
  let p := r.params
  let f := fieldLE p
  let later := fun (t : State) => (t, (none : CmdEnd))
  let done := fun (t : State) => (t, cmdOk)
  let site := f 0 1
  -- a command that only the side that leads sends to a site ends on the other side at once
  let lead := fun (t : State) => if s.leads then (t, (none : CmdEnd)) else (s, cmdOk)
  let onJob := fun (g : Job → State × CmdEnd) => match s.job? r.job with
    | some j => g j
    | none => (s, some (0x0106, 0, 0))
  match r.opcode with
  | 0x0001 => (s, some (0, 0, BitVec.ofNat 64 s.pair.role.code))
  | 0x0003 => onJob fun j => done (s.jobStatus j p)
  | 0x0004 => done (s.siteCapOut p)
  | 0x0005 => later (s.siteSend site 0x19 0 0 (leBytes 4 (f 4 4) ++ leBytes 1 (f 1 1) ++ [0, 0, 0]) r.id)
  | 0x0101 => done (s.windowMap r.job p)
  | 0x0102 => done (s.windowUnmap (f 0 1))
  | 0x0103 => s.kernelLoad r
  | 0x0104 => s.kernelChange r (f 0 1) none
  | 0x0105 => done (s.profileLoad p)
  | 0x0106 => done { s with host.profiles := Tbl.erase s.host.profiles (f 0 1) }
  | 0x0107 => later (s.trainMask 0 (f 0 1) (f 1 1))
  | 0x0108 => later (s.trainMask 9 (f 0 1) (f 1 1))
  | 0x0109 => done (s.setTargets p)
  | 0x010A => done (s.fillArm r.job (BitVec.ofNat 16 (f 0 2)) (BitVec.ofNat 16 (f 2 2)) r.id)
  | 0x010B => later (s.fillSend r.job (BitVec.ofNat 16 (f 0 2)) (f 2 1) r.id)
  | 0x010C => later (s.rejoinBegin r)
  | 0x010D => done (s.tileCopy p)
  | 0x010E => done (s.observeSet (BitVec.ofNat 64 (f 0 8)) (s.wrefBytes p 8))
  | 0x010F => done s.evrClear
  | 0x0110 => done (s.fwStage (s.wrefBytes p 0))
  | 0x0111 => later ({ s with sec.mailbox := s.sec.mailbox ++ [RotReq.attest r.id (s.attestRecord (p.take 32))] }).rotGo
  | 0x0201 => done (s.regionQuota (f 0 1) (f 2 2) r.id)
  | 0x0202 => done (s.jobStage p)
  | 0x0203 => if s.boundaryOp r then later (s.applyBegin r) else
      let t := s.wrefBytes p 0
      done { s with tor.peloton := Tbl.set s.tor.peloton (fieldLE t 0xD 1) (pelOf t) }
  | 0x0204 => onJob fun j => later ((s.startBegin j.id r.id j.firstStart (((s.pel j.pelSlot).map PelTable.gen).getD 0) (shake256 j.desc)).startGo j.id)
  | 0x0205 => onJob fun j => later (s.teardownBegin j.id r.id (f 0 1 == 0))
  | 0x0206 => later (s.applyBegin r)
  | 0x0207 => later (s.applyBegin r)
  | 0x0208 => later (s.applyBegin r)
  | 0x0209 => onJob fun j => later (s.resumeCmd j r)
  | 0x020A => onJob fun j => later (s.resumeCmd j r)
  | 0x020B => onJob fun j => later (s.siteReset j.id site (f 2 2) r.id)
  | 0x020C => onJob fun j => later (s.derailStage j.id site (s.wrefBytes p 8) (BitVec.ofNat 256 (f 16 32)) r.id)
  | 0x020D => onJob fun j =>
      if j.repairable (f 0 1 == 1) (f 4 4) (BitVec.ofNat 64 (f 8 8)) then
        later (s.repairStart j.id (f 0 1 == 1) (f 4 4) (BitVec.ofNat 64 (f 8 8)) (some r.id))
      else done s
  | 0x020E => onJob fun j => later ((s.seedSend j.id).modRun r.id fun r => { r with stage := 1 })
  | 0x020F => done (({ s with tor.position := some (BitVec.ofNat 16 (f 0 2)) }).surveyAll)
  | 0x0210 => done (({ s with tor.position := none }).surveyAll)
  | 0x0211 => lead (s.siteSend site 0x1A r.id 0 (leBytes 4 (f 4 4) ++ leBytes 4 (f 8 4)) r.id)
  | 0x0212 => lead (s.siteSend site 0x18 r.id 0 [] r.id)
  | 0x0213 => later (s.applyBegin r)
  | 0x0214 => onJob fun j =>
      let a : BedArm := ⟨BitVec.ofNat 64 (f 0 8), secondsOr (f 8 4) 3600, secondsOr (f 12 4) 21600, f 16 1, s.wrefBytes p 24⟩
      done (s.setJob { j with arm := some a })
  | 0x0215 => onJob fun j => done (s.setJob { j with arm := none })
  | 0x0216 => onJob fun j => done (s.bedAbandonNow j.id 0x0505 0)
  | 0x0217 => onJob fun j => later (s.restoreBegin j.id r.id (secondsOr (f 4 4) 3600)
      ((List.range (f 0 1)).map fun i => s.wrefBytes p (16 + 8 * i)))
  | 0x0218 => if s.leads then later (s.switchBegin r) else later s
  | 0x0219 => if (f 0 1 == 1) = s.sideB then done s.withdraw else done s
  | _ => (s, cmdOk)

end Sys2Proof.Machine
end

