-- ==== Sys2Proof/Machine/Host.lean ====
section
/-! DEFINITION. Command slots, the journal and acceptance (R364, R401 to R410), what the partner does with an accepted command, windows as
the host sees them (R412), the completion ring, and the PCI Express link (R397 to R399). -/
namespace Sys2Proof.Machine

/-! ### Slots (R402, R403) -/

/-- The bytes of a slot. -/
def State.slotBytes (s : State) (k : Nat) : List Byte := Tbl.get s.host.slots (List.replicate 256 0) k

/-- Set the bytes of a slot. -/
def State.setSlot (s : State) (k : Nat) (b : List Byte) : State := { s with host.slots := Tbl.set s.host.slots k b }

/-- A slot violation (R402, R422). -/
def State.slotViolation (s : State) : State := (s.bump .hstSlotViolations).raise .hstIntStatus 5

/-- A window violation (R412, R422). -/
def State.windowViolation (s : State) : State := (s.bump .hstWindowViolations).raise .hstIntStatus 5

/-- A host write to the bytes of a slot: aligned accesses of 4 or 8 bytes. -/
def State.slotWrite (s : State) (k off : Nat) (b : List Byte) : State :=
  if s.host.device.getLsbD k then s.slotViolation
  else if !(b.length = 4 ∨ b.length = 8) || off % b.length != 0 || 256 < off + b.length then s
  else s.setSlot k (putBytes (s.slotBytes k) off b)

/-- A host write to a slot flag: 1 makes a HOST slot DEVICE; every other write is ignored. -/
def State.flagWrite (s : State) (k : Nat) (v : W32) : State :=
  if v.getLsbD 0 then { s with host.device := s.host.device ||| BitVec.ofNat 256 (2 ^ k) } else s

/-- The status reply of a slot, and the slot back to the host; number 256 stands for a slot that a function-level reset has cleared. -/
def State.slotReply (s : State) (k : Nat) (b : List Byte) (irq : Bool) : State :=
  if 256 ≤ k then s
  else
    let s := { s.setSlot k (b ++ List.replicate 224 0) with host.device := s.host.device &&& ~~~(BitVec.ofNat 256 (2 ^ k)) }
    if irq then s.raise .hstIntStatus 0 else s

/-! ### The journal (R82, R364, R409) -/

/-- The ring may overwrite an entry. -/
def JEntry.over (e : JEntry) : Bool := e.state == 3 || e.state == 4

/-- A new entry would overwrite one that is neither DONE nor REFUSED. -/
def State.journalBusy (s : State) : Bool :=
  journalEntries ≤ s.host.journal.length && s.host.journal.head?.any fun e => !e.over

/-- Write the next entry; the entry that it overwrites raises the ID floor. -/
def State.journalPut (s : State) (id : W64) (job : W32) (state : Nat) (seen : Bool) (packet status : List Byte) : State :=
  let e : JEntry := ⟨s.host.nextSeq, id, job, state, seen, packet, status⟩
  let s := if s.host.journal.length < journalEntries then s
    else match s.host.journal with
      | [] => s
      | x :: r => { s with host.journal := r, host.idFloor := if s.host.idFloor.toNat < x.id.toNat then x.id else s.host.idFloor }
  { s with host.journal := s.host.journal ++ [e], host.nextSeq := s.host.nextSeq + 1 }.entryWrite e

/-- The recorded reply of an entry (R409): one still RECEIVED reads NONE. -/
def State.recorded (s : State) (e : JEntry) : List Byte :=
  if e.state = 1 then s.replyBytes e.id (fieldLE e.packet 0 2) 0 0 0 0 e.seqNo 0 else sliceBytes e.status 0 32

/-- Set bits in the flags of a reply. -/
def replyFlags (b : List Byte) (f : Nat) : List Byte := b.set 0xB (b.getD 0xB 0 ||| BitVec.ofNat 8 f)

/-! ### Acceptance (R364, R406, R407) -/

/-- A command is accepted (R364): its slot reads ACCEPTED and it is executed. Where the partner has refused it, it completes with PARTNER and has
no effect. -/
def State.cmdStart (s : State) (id : W64) (ok : Bool) : State :=
  match s.run? id, s.entry? id with
  | some r, some e =>
    let k := r.slot.getD 256
    let irq := r.flags.testBit 1
    let ring := (opInfo r.opcode).any OpInfo.ring
    let s := if r.own then s.bump .hstCmdsAccepted else s
    let s := s.modRun id fun r => { r with slot := none }
    let b := s.replyBytes id r.opcode 2 0 0 0 e.seqNo 0
    let s := s.modEntry id fun e => { e with state := 2, status := b }
    if ring || !r.own then
      let s := s.slotReply k b irq
      match (if ok then s.cmdExec { r with slot := none } else (s, some (0x010D, 0, 0))) with
      | (t, some (c, d, v)) => t.finish id c d v
      | (t, none) => t
    else
      let (t, q) := if ok then s.cmdExec { r with slot := none } else (s, some (0x010D, 0, 0))
      let (c, d, v) := q.getD (0, 0, 0)
      let t := t.modEntry id fun e => { e with state := 3, status := t.replyBytes id r.opcode 3 1 c d e.seqNo v }
      let t := { t with host.runs := t.host.runs.filter fun (x : CmdRun) => x.id != id }
      (t.pagesBack r.pages).slotReply k (t.replyBytes id r.opcode 2 1 c d e.seqNo v) irq
  | _, _ => s

/-- The partner must take part in the acceptance of a class P command (R366, R374). -/
def State.partnerJournals (s : State) : Bool := !s.pair.partnerFailed || s.pair.rejoin.isSome

/-- A new layer schedule table has been checked: its digest goes to the partner, whose acknowledgement of the JOURNAL message carries the
outcome of the compare (R163; log entry 25). -/
def State.scheduleDigest (s : State) (op : Nat) (id : W64) (p : List Byte) : State :=
  if op = 0x0206 && s.partnerJournals then s.emit (.pairDigest id (shake256 (s.wrefBytes p 8))) else s

/-- The refusal of a taken slot. -/
def State.cmdRefuse (s : State) (k : Nat) (id : W64) (op code seqNo : Nat) (irq : Bool) : State :=
  ((s.bump .hstCmdsRefused).refusedBit op).slotReply k (s.replyBytes id op 4 1 code 0 seqNo 0) irq

/-- Step 1 of R406: 0, or the code. -/
def formCode (op : Nat) (b : List Byte) : Nat :=
  match opInfo op with
  | none => 0x0102
  | some q =>
    let n := fieldLE b 0x12 2
    if fieldLE b 2 1 == 1 && fieldLE b 3 1 < 4 && zeroBytes b 0x14 4 && zeroBytes b 0x20 32 && n ≤ 192 && 1 ≤ fieldLE b 8 8 &&
      fieldLE b 8 8 < 2 ^ 64 - 1 && n == paramSize op q.size (sliceBytes b 64 n) then 0 else 0x0101

/-- Step 2 of R406: the class and roles of the opcode admit this side; during a switch no class P command (R376). -/
def State.roleAdmits (s : State) (q : OpInfo) : Bool :=
  q.roles.getLsbD s.pair.role.code && !(q.cls == .pair && s.pair.switching.isSome)

/-- A taken slot (R406). -/
def State.cmdHandle (s : State) (k : Nat) : State :=
  let b := s.slotBytes k
  let op := fieldLE b 0 2
  let id := BitVec.ofNat 64 (fieldLE b 8 8)
  let job := BitVec.ofNat 32 (fieldLE b 4 4)
  let irq := (fieldLE b 3 1).testBit 1
  let p := sliceBytes b 64 (fieldLE b 0x12 2)
  let refs := (opRefs op p).map fun o => wrefPages (wrefOf p o)
  let gen := BitVec.ofNat 16 (fieldLE b 0x10 2)
  match opInfo op with
  | none => s.cmdRefuse k id op 0x0102 0 irq
  | some q =>
    if formCode op b != 0 then s.cmdRefuse k id op (formCode op b) 0 irq
    else if !s.roleAdmits q then s.cmdRefuse k id op 0x0103 0 irq
    else if !s.host.linkOk && q.cls != .query then s.cmdRefuse k id op 0x010F 0 irq
    else if q.cls == .query then
      if op = 2 then
        let b := match s.entry? (BitVec.ofNat 64 (fieldLE p 0 8)) with
          | some e => replyFlags (s.recorded e) 8
          | none => s.replyBytes (BitVec.ofNat 64 (fieldLE p 0 8)) op 3 1 0x0113 0 0 0
        s.slotReply k b irq
      else
        let code := s.admitCode op job gen p
        if code != 0 then (s.pagesBack refs).cmdRefuse k id op code 0 irq
        else
          let (t, e) := s.cmdExec ⟨id, op, job, 0, true, p, none, 0, 0, []⟩
          let (c, d, v) := e.getD (0, 0, 0)
          (t.pagesBack refs).slotReply k (t.replyBytes id op 3 1 c d 0 v) irq
    else match s.entry? id with
      | some e =>
        let n := max (fieldLE b 0x12 2) (fieldLE e.packet 0x12 2)
        let differs := !(b.take 0x18 == e.packet.take 0x18 && sliceBytes b 64 n == sliceBytes e.packet 64 n)
        (s.bump .hstCmdsRepeated).slotReply k (replyFlags (s.recorded e) (if differs then 6 else 2)) irq
      | none =>
        if id.toNat ≤ s.host.idFloor.toNat then s.cmdRefuse k id op 0x010C 0 irq
        else if s.journalBusy then s.cmdRefuse k id op 0x0111 0 irq
        else
          let code := s.admitCode op job gen p
          let seqNo := s.host.nextSeq
          if code != 0 then
            let t := (s.journalPut id job 4 false b (s.replyBytes id op 4 1 code 0 seqNo 0)).pagesBack refs
            (t.refusalMarks op code p).cmdRefuse k id op code seqNo irq
          else
            let t := s.journalPut id job 1 false b []
            let t := { t with host.runs := t.host.runs ++ [(⟨id, op, job, fieldLE b 3 1, true, p, some k, 0, 0, refs⟩ : CmdRun)] }
            let t := t.scheduleDigest op id p
            if q.cls == .pair && t.partnerJournals then
              match t.entry? id with
              | some e => t.pairSend 0x41 id job (t.entryBytes e)
              | none => t
            else t.cmdStart id true

/-- Hub-core firmware runs (R461, R462). -/
def State.hubRuns (s : State) : Bool := s.pwr.released && !s.pwr.startHalted

/-- Whether a slot is taken and awaits its reply. -/
def State.slotTaken (s : State) (k : Nat) : Bool := s.host.runs.any fun r => r.slot == some k

/-- Take slot `k` (R403). -/
def State.takeSlot (s : State) (k : Nat) : State :=
  if s.hubRuns && s.host.device.getLsbD k && !s.slotTaken k then ({ s with host.lastTaken := k }).cmdHandle k else s

/-- SLOT_TAKE: the first DEVICE slot in ascending order after the last one taken. -/
def State.takeNext (s : State) : State :=
  match ((List.range 256).map fun i => (s.host.lastTaken + 1 + i) % 256).find? fun k => s.host.device.getLsbD k && !s.slotTaken k with
  | some k => s.takeSlot k
  | none => s

/-- The bytes of a command packet (R404). -/
def CmdPkt.bytes (c : CmdPkt) (op : Nat) : List Byte :=
  sliceBytes (leBytes 2 op ++ [c.version, c.flags] ++ leBytes 4 c.job.toNat ++ leBytes 8 c.id.toNat ++ leBytes 2 c.gen.toNat ++
    leBytes 2 c.paramBytes.toNat ++ leBytes 4 c.reserved0.toNat ++ leBytes 8 c.hostTag.toNat ++ leBytes 32 c.reserved1.toNat ++ c.params) 0 256

/-- The host posts a command in a slot and firmware takes it (R402, R403): the packet, the flag, the taking. A DEVICE slot refuses the
packet; while firmware does not run the slot waits. -/
def State.command (s : State) (op : Nat) (k : Nat) (c : CmdPkt) : State :=
  if s.host.device.getLsbD k then s.slotViolation
  else ((s.setSlot k (c.bytes op)).flagWrite k 1).takeSlot k

/-! ### The partner's part (R364 to R366, R376) -/

/-- A journal entry of the partner is this side's next entry: it is written, acknowledged and executed; a check that fails here is answered
with status 1, and the command has no effect (R163, R291, R364, R406). -/
def State.journalTake (s : State) (e : JEntry) : State :=
  let b := e.packet
  let op := fieldLE b 0 2
  let p := sliceBytes b 64 (fieldLE b 0x12 2)
  if s.journalBusy then s.pairAck 0x41 e.id e.job 1
  else
    let seqNo := s.host.nextSeq
    let s := { s.journalPut e.id e.job 2 true b (s.replyBytes e.id op 2 0 0 0 seqNo 0) with pair.journalNext := e.seqNo + 1 }
    let code := s.partnerCode op e.job p
    let r : CmdRun := ⟨e.id, op, e.job, fieldLE b 3 1, false, p, none, 0, 0, (opRefs op p).map fun o => wrefPages (wrefOf p o)⟩
    let s := { s with host.runs := s.host.runs ++ [r] }.scheduleDigest op e.id p
    if code != 0 then (s.pairAck 0x41 e.id e.job 1 seqNo).finish e.id 0x010D
    else (s.pairAck 0x41 e.id e.job 0 seqNo).cmdStart e.id true

/-- JOURNAL (R364): entries are taken in journal_seq order; a duplicate is acknowledged again; a gap asks for what is missing. The sender
answers with what still awaits an acknowledgement, marked as repeats, so that entries of commands of its own leave no gap (log entry 19). -/
def State.journalRx (s : State) (m : CtlMsg) : State :=
  if s.pair.partnerFailed || s.pair.role == .withdrawn then s
  else if !m.pairForm 0x41 then s.pairAck 0x41 m.ident m.jobId 2
  else
    let e := entryOf m.bytes
    match s.entry? e.id with
    | some x => s.pairAck 0x41 e.id e.job (if x.state = 3 && fieldLE x.status 0xC 2 = 0x010D then 1 else 0) x.seqNo
    | none =>
      if s.pair.journalNext < e.seqNo && !m.flags.getLsbD 0 then s.pairQueue 0x42 false 0 0 (leBytes 8 s.pair.journalNext)
      else s.journalTake e

/-- APPLY (R365): the boundary of a command, kept where the command is not here yet. -/
def State.applyRx (s : State) (m : CtlMsg) : State :=
  let b := BitVec.ofNat 64 (m.get 0 8)
  match s.run? m.ident with
  | some r => if r.stage = 1 then (s.modRun m.ident fun r => { r with stage := 2 }).applyAt r b else { s with pair.applies := s.pair.applies ++ [(m.ident, b)] }
  | none => { s with pair.applies := s.pair.applies ++ [(m.ident, b)] }

/-- The PAIR_SWITCH runs of this side end (R376). -/
def State.switchEnd (s : State) (code : Nat) : State :=
  let s := { s with pair.switching := none }
  (s.host.runs.filter fun r => r.opcode == 0x0218).foldl (fun (t : State) (r : CmdRun) => t.finish r.id code) s

/-- HANDOVER (R376): the partner gives up the ACTIVE role, and directives are built here from the step after the one it names. -/
def State.handoverRx (s : State) (m : CtlMsg) : State :=
  if s.pair.role != .standby then s
  else
    let n := BitVec.ofNat 64 (m.get 8 8)
    let s := { s with pair.role := .active, pair.partnerRole := .standby
                      jobs := s.jobs.map fun (e : Nat × Job) => (e.1, { e.2 with directed := if e.2.directed.toNat < n.toNat then n else e.2.directed }) }
    (s.raise .pairIntStatus 4).switchEnd 0

/-- The partner has acknowledged HANDOVER (R376). -/
def State.handedOver (s : State) : State :=
  (({ s with pair.role := .standby, pair.partnerRole := .active }).raise .pairIntStatus 4).switchEnd 0

/-- A PAIR_ACK (R358). -/
def State.pairAckRx (s : State) (m : CtlMsg) : State :=
  if !s.partnerJournals || s.pair.role == .withdrawn || !m.pairForm 0x4F then s
  else
    let st := m.get 1 1
    match s.pairTake (m.get 0 1) m.ident with
    | (_, none) => s
    | (t, some x) =>
      if x.ty = 0x41 then
        (t.modEntry x.ident fun e => { e with partnerSeen := true }).cmdStart x.ident (st == 0)
      else if x.ty = 0x43 then
        match t.run? x.ident with
        | some r => if r.stage = 1 then (t.modRun x.ident fun r => { r with stage := 2 }).applyAt r r.result else t
        | none => t
      else if x.ty = 0x44 then t.handedOver
      else t.ackedByPartner x

/-! ### Windows as the host sees them (R412) -/

/-- The flag of a page: 0 HOST, 1 DEVICE, 2 SHARED, 3 UNMAPPED. -/
def State.pageFlag (s : State) (w p : Nat) : Nat :=
  match s.window? w with
  | none => 3
  | some x => if x.kind = 1 then (if x.device.contains p then 1 else 0) else if p / 32 < x.frames.length then 2 else 3

/-- A write to a flag word: fields change from HOST to DEVICE only. -/
def State.pageFlagWrite (s : State) (word : Nat) (v : W32) : State :=
  let w := word / 256
  let l := ((List.range 16).filter fun i => v.toNat / 4 ^ i % 4 == 1).map fun i => word % 256 * 16 + i
  let l := l.filter fun p => s.pageFlag w p == 0
  match s.window? w with
  | none => s
  | some x => { s with host.windows := Tbl.set s.host.windows w { x with device := x.device ++ l } }

/-- Bytes of the recovery buffer (R444). -/
def recoveryBytes : Nat := 2 ^ 23

/-- A host access within one page of a window: `none` reads `n` bytes. In recovery the first 8 MiB of window 0 are the recovery
buffer and nothing else is mapped (R444). -/
def State.windowAccess (s : State) (w off n : Nat) (data : Option (List Byte)) : State :=
  if s.sec.recovery then
    if w = 0 && off < recoveryBytes then
      match data with
      | some b => { s with sec.recoveryBuf := (putBytes (sliceBytes s.sec.recoveryBuf 0 (max s.sec.recoveryBuf.length off)) off b).take recoveryBytes }
      | none => s.emit (.readData (sliceBytes s.sec.recoveryBuf off n))
    else match data with
      | some _ => s
      | none => s.emit (.readData (List.replicate n 0))
  else
    match s.window? w, s.pageFlag w (off / 65536), data with
    | some x, 0, some b => s.winPut x off b
    | some x, 0, none => s.emit (.readData (s.winBytes x off n))
    | _, 1, some _ => s.windowViolation
    | _, 1, none => (s.windowViolation).emit (.readData (List.replicate n 0xFF))
    | _, 2, some _ => s.windowViolation
    | some x, 2, none => s.emit (.readData (s.winBytes x off n))
    | _, _, some _ => s
    | _, _, none => s.emit (.readData (List.replicate n 0))

/-! ### The completion ring and the PCI Express link -/

/-- HST.CQ_HEAD is written (R408). -/
def State.cqHead (s : State) (v : W32) : State := (s.wr .hstCqHead v).cqDrain

/-- HST.CTRL is written: cq_en from 0 to 1 sets the tail to the head (R421). -/
def State.cqEnable (s : State) (v : W32) : State :=
  let on := s.fld .hstCtrl 0 1 = 1
  let s := s.wrFld .hstCtrl 0 1 (v.toNat % 2)
  if v.getLsbD 0 && !on then (s.wr .hstCqTail (s.rd .hstCqHead)).cqDrain else s

/-- A function-level reset, a hot reset or link-down (R398): slots, the ring's configuration and interrupts pending to the host. -/
def State.flr (s : State) : State :=
  let s := { s with host.slots := [], host.device := 0, host.cqQueue := [], host.msixTable := [], host.msixPending := 0
                    host.runs := s.host.runs.map fun (r : CmdRun) => { r with slot := r.slot.map fun _ => 256 } }
  ((((s.wrFld .hstCtrl 0 1 0).wr .hstCqBaseLo 0).wr .hstCqBaseHi 0).wr .hstCqEntries 64).wr .hstCqHead 0 |>.wr .hstCqTail 0

/-- The link settles at a rate and a width, in the codes of HST.STATUS (R397). -/
def State.linkSettle (s : State) (rate width : Nat) : State :=
  let ok := 5 ≤ rate && 3 ≤ width
  let t := { s with host.linkOk := ok, host.linkRate := rate, host.linkWidth := width }
  let t := if rate < 6 || width < 5 then t.raise .hstIntStatus 4 else t
  if ok then t.cqDrain else t.evReason 1 .hst 0xFFFF 0 0 [rate, width]

/-- A poisoned TLP (R399). -/
def State.poisoned (s : State) : State := (s.bump .hstPoisonedRx).emit (.aer 0)

/-- Messages that wait in the pending-bit array leave where nothing holds them back any more (R17, R417). -/
def State.msixFlush (s : State) : State :=
  ((List.range 64).filter fun v => s.host.msixPending.getLsbD v).foldl (fun (t : State) v =>
    ({ t with host.msixPending := t.host.msixPending &&& ~~~(BitVec.ofNat 64 (2 ^ v)) }).vector v) s

/-- Bus Master Enable changes (R398). -/
def State.busMasterWrite (s : State) (on : Bool) : State := ({ s with host.busMaster := on }).msixFlush.cqDrain

end Sys2Proof.Machine
end

