-- ==== Sys2Proof/Machine/Watch.lean ====
section
/-! DEFINITION. Watching the partner (R367 to R372): heartbeats, the poll of the sites, declaring the partner failed, withdrawal and the
fence. -/
namespace Sys2Proof.Machine

/-! ### The partner is declared failed (R371) -/

/-- The half of a step's payload that the failed partner would have mirrored (R308, R371 step 5): steps whose own half has gone. -/
def State.mirrorRest (s : State) (id : W32) (n : W64) : State :=
  s.onJob id fun j =>
    match j.step? n, s.buddyOf j with
    | some o, some d =>
      if s.coverKind j != 2 || o.replay || o.skip || o.ownRoot.isNone then s
      else
        let e := o.silt.getD (j.openSilt o)
        let items := ((List.range j.siltPages).filter fun p => p % 2 != s.sideNat).map fun p =>
          (mirrorId p false n, s.frameBytes (mapFrame e.pages p))
        let t := if o.commit == .none || o.commit == .copies then s.modStep id n fun o => { o with landings := o.landings ++ items.map Prod.fst } else s
        items.foldl (fun t x => t.sendTransfer x.1 d 3 id (some (n.setWidth 8)) x.2) t
    | _, _ => s

/-- A command of this side that waits for its partner goes on with this side's journal alone (R366). -/
def State.cmdAlone (s : State) (r : CmdRun) : State :=
  if r.slot.isSome then s.cmdStart r.id true
  else if r.stage = 1 && (s.boundaryOp r) then
    (s.modRun r.id fun r => { r with stage := 2 }).applyAt r (if r.result = 0 then s.boundaryOf r else r.result)
  else s

/-- What the survivor does for one job (R371 steps 2, 4, 5 and 6). -/
def State.jobAlone (s : State) (id : W32) (led : Bool) : State :=
  s.onJob id fun j =>
    let s := s.modJob id fun j => j.gatePartner none
    let s := if led then s else s.boostsAdopt j
    let s := (j.open_.map OpenStep.step).foldl (fun t n => t.mirrorRest id n) s
    let s := if led then s.startDecide id else (s.startTakeOver id).bedTakeOver id
    s.commitGo id

/-- The partner is declared failed (R371). -/
def State.partnerFail (s : State) : State :=
  if s.pair.role == .withdrawn then s
  else if s.pair.role == .joining || (s.pair.role == .sole && s.pair.rejoin.isSome) then s.joinFail 0x010D
  else if s.pair.partnerFailed then s
  else
    let led := s.leads
    let s := { s with pair.role := .sole, pair.partnerFailed := true, pair.sent := [], pair.polling := 0, pair.hbPair := false, pair.hbSide := false }
    let s := (s.evInt 1 .pairIntStatus 0 0 0 []).switchEnd 0x010D
    let s := s.host.runs.foldl (fun (t : State) (r : CmdRun) => match t.run? r.id with
      | some r => t.cmdAlone r
      | none => t) s
    let s := { s with pair.applies := [] }
    let s := s.tor.colls.foldl (fun (t : State) (c : Coll) => t.collTry c.key) s
    s.jobs.vals.foldl (fun (t : State) (j : Job) => t.jobAlone j.id led) s

/-! ### Heartbeats (R367) -/

/-- A heartbeat's 12 bytes, from either path. -/
def State.heartbeatApply (s : State) (pairPath : Bool) (b : List Byte) : State :=
  let role := Role.ofCode (fieldLE b 0 1)
  let s := if pairPath then { s with pair.hbPair := true } else { s with pair.hbSide := true }
  if s.pair.role == .withdrawn then s
  else if s.pair.partnerFailed then (if role == .joining && s.pair.role == .sole && !(fieldLE b 1 1).testBit 0 then s.joinCopy else s)
  else
    let s := { s with pair.partnerRole := role }
    if (fieldLE b 1 1).testBit 0 then ({ s with pair.partnerHalting := true }).partnerFail else s

/-- HEARTBEAT on the pair link. -/
def State.heartbeatRx (s : State) (m : CtlMsg) : State :=
  if m.pairForm 0x40 then s.heartbeatApply true (m.bytes.take 12) else s.ctlMalformed 8

/-- HEARTBEAT on the sideband (R497): a payload of another form is an unknown frame (R10). -/
def State.sbHeartbeatRx (s : State) (payload : List Byte) : State :=
  let src : Byte := if s.sideB then 1 else 2
  if payload.length != 12 || 5 ≤ fieldLE payload 0 1 || 2 ≤ fieldLE payload 1 1 || !zeroBytes payload 2 2 then s.sbDiscard src false payload
  else
    let t := (s.bump .sbbFramesRx).heard (if s.sideB then 0 else 1) true
    if t.fld .pairCtrl 0 1 = 1 then t.heartbeatApply false payload else t

/-- A sideband frame as it arrives: one that is good and of a type that its sender may send acts as such, any other one is discarded
(R495 to R497). -/
def State.sbFrameRx (s : State) (src type : Byte) (bad : Bool) (payload : List Byte) : State :=
  if bad then s.sbDiscard src true payload
  else if type = 1 ∧ src = (if s.sideB then 1 else 2) then s.sbHeartbeatRx payload
  else if type = 2 ∧ 0x10 ≤ src.toNat ∧ src.toNat < 0x18 then s.presenceRx (src.toNat - 0x10) payload
  else if type = 3 ∧ src = 8 then s.bmcNotice payload
  else s.sbDiscard src false payload

/-- A heartbeat leaves on the pair link. -/
def State.heartbeatTx (s : State) : State :=
  if s.pair.role == .withdrawn then s else s.pairQueue 0x40 false 0 0 (s.heartbeatBody s.pair.halting)

/-! ### Lost heartbeats (R369, R370) -/

/-- Heartbeats are lost while the partner is still there: only a STANDBY side withdraws; a rejoin ends (R370, R375). -/
def State.heartbeatsLost (s : State) : State :=
  match s.pair.role with
  | .standby => s.withdraw
  | .active => s.evInt 1 .pairIntStatus 1 0 0 []
  | .joining => s.joinFail 0x010D
  | .sole => if s.pair.rejoin.isSome then s.joinFail 0x010D else s
  | .withdrawn => s

/-- Every site has answered the poll, or counts as reporting the port down (R369). -/
def State.pollEnd (s : State) : State :=
  if s.pair.polling != 0 then s
  else if s.pair.hbPair || s.pair.hbSide then s
  else if s.pair.pollUp then s.heartbeatsLost
  else s.partnerFail

/-- One site's answer to the poll. -/
def State.pollAnswer (s : State) (site : Nat) (up : Bool) : State :=
  if s.pair.polling.getLsbD site then
    ({ s with pair.polling := s.pair.polling &&& ~~~(1#8 <<< site), pair.pollUp := s.pair.pollUp || up }).pollEnd
  else s

/-- HB_TIMEOUT: no heartbeat on either path for PAIR.HB_TIMEOUT. The side asks every site admitted to a job for BRX.STATUS; without such a
site nothing reports the partner up. The intervals missed are those of the timeout on each watched path. -/
def State.hbTimeout (s : State) : State :=
  if s.pair.role == .withdrawn || (s.pair.partnerFailed && s.pair.rejoin.isNone) then s
  else
    let us := min 100000 (max 500 (s.rd .pairHbTimeout).toNat)
    let s := s.bumpBy .pairHbMissed (us / 100 + if s.fld .pairCtrl 0 1 = 1 then us / 1000 else 0)
    let s := { s with pair.hbPair := false, pair.hbSide := false }
    if s.pair.polling != 0 then s
    else
      let l := (List.range 8).filter fun k => s.jobs.vals.any fun j => j.admittedSites.getLsbD k
      let s := { s with pair.polling := BitVec.ofNat 8 (l.map fun k => 2 ^ k).sum, pair.pollUp := false }
      (l.foldl (fun t k => t.siteSend k 0x19 0 0 (leBytes 4 8 ++ leBytes 1 1 ++ [0, 0, 0])) s).pollEnd

/-- LINK_GRACE_TIMEOUT: the pair link has been down for PAIR.LINK_GRACE while sideband heartbeats go on (R370). -/
def State.linkGrace (s : State) : State :=
  if (s.port 8).up || s.pair.partnerFailed then s else s.heartbeatsLost

/-- FENCE_WATCHDOG_EXPIRY (R368): the side is fenced and falls silent; no halt notice leaves. -/
def State.fenceExpiry (s : State) : State :=
  let t := s.fence
  let t := t.jobs.vals.foldl (fun t j => t.leaveJob j) t
  { t with host.siteSent := [], tor.colls := [], tor.landings := [], tor.transfers := [] }

/-! ### Register reads of sites (R214, R369, R416) -/

/-- A REG_READ of a site ends: with the bytes read, or without an answer within 1 ms. -/
def State.regReadEnd (s : State) (x : SiteSent) (words : Option (List Byte)) : State :=
  let t := { s with host.siteSent := s.host.siteSent.erase x }
  if x.cmd = 0 then
    t.pollAnswer x.site (words.any fun b => (fieldLE b 0 4).testBit (if t.sideB then 7 else 8))
  else match t.run? x.cmd, words with
    | some r, some b => (t.wrefPut r.params 8 b).finish x.cmd 0
    | _, none => t.finish x.cmd 0x0209
    | _, _ => t

/-- REG_DATA: the answer to the read of the same offset and count. -/
def State.regDataRx (s : State) (site : Nat) (m : CtlMsg) : State :=
  let n := m.get 4 1
  if n = 0 || 64 < n || !m.formOk (8 + 4 * n) || m.get 5 3 != 0 then s.ctlMalformed site
  else match s.host.siteSent.find? fun x => x.site == site && x.ty == 0x19 && fieldLE x.body 0 4 == m.get 0 4 && fieldLE x.body 4 1 == n with
    | some x => s.regReadEnd x (some (sliceBytes m.bytes 8 (4 * n)))
    | none => s

/-- REG_READ_TIMEOUT: a site has not answered a read within 1 ms. -/
def State.regReadTimeout (s : State) (site : Nat) : State :=
  match s.host.siteSent.find? fun x => x.site == site && x.ty == 0x19 with
  | some x => s.regReadEnd x none
  | none => s

end Sys2Proof.Machine
end

