-- ==== Sys2Proof/Machine/Settle.lean ====
section
/-! DEFINITION. What a command leaves due at once: results of collectives take effect, steps open and commit, and recoveries, teardowns,
bedrocks, starts and commands that have what they waited for go on (R39, R47, R54, R303, R311 to R316, R338 to R354, R365, R376, R389).
Every act tests its own conditions, so that a pass with nothing due changes nothing. -/
namespace Sys2Proof.Machine

/-! ### Results of collectives (R303) -/

/-- The result of an instance can take effect on this side now. -/
def State.collDue (s : State) (c : Coll) : Bool :=
  match s.job? c.key.job with
  | none => false
  | some j => c.result.isSome && !c.applied && (match c.key.op with
    | .scalar | .roots | .vote => (j.step? c.key.ident).isSome
    | .advance => true
    | .layerSlots => s.upd.run.any fun d => d.job == j.id && d.step == c.key.ident && d.layer == c.key.layer.toNat && d.waiting
    | .barrier => (j.recov.running != 0 && j.recov.command == c.key.ident &&
          j.recov.phase == (if c.key.phase = 1 then 5 else 1)) ||
        j.restore.any fun r => r.cmd == c.key.ident && r.number == c.key.layer.toNat && r.entered)

/-- It takes effect, once. -/
def State.collApply (s : State) (c : Coll) : State :=
  let items := c.result.getD []
  let n := c.key.ident
  let id := c.key.job
  let s := { s with tor.colls := s.tor.colls.map fun (x : Coll) => if x.key == c.key then { x with applied := true } else x }
  match c.key.op with
  | .scalar => s.scalarResult id n items
  | .roots => s.rootsResult id n items
  | .vote => s.voteResult id n items
  | .advance => s.advanceResult id n items
  | .layerSlots => s.layerSlotsResult c.key items
  | .barrier => (s.resumeBarrier id n items).restoreBarrier id n c.key.layer items

/-- Apply the first result that is due, up to a number of times. -/
def State.collsApply : Nat → State → State
  | 0, s => s
  | n + 1, s => match s.tor.colls.find? s.collDue with
    | some c => State.collsApply n (s.collApply c)
    | none => s

/-- Instances of jobs that are gone and of steps that are committed are dropped; barriers stay for the comparison of R360. -/
def State.collsTrim (s : State) : State :=
  { s with tor.colls := s.tor.colls.filter fun (c : Coll) => match s.job? c.key.job with
      | none => false
      | some j => c.key.op == .barrier || j.committed.toNat < c.key.ident.toNat }

/-- A collective has not completed in time: the step's, or a barrier's of its command (R303, R338, R395). -/
def State.collExpired (s : State) (key : CollKey) : State :=
  let open_ := s.tor.colls.any fun c => c.key == key && c.result.isNone
  let t := s.collTimeout key
  if key.op = .barrier && open_ then (t.resumeTimeout key.job key.ident).restoreTimeout key.job key.ident else t

/-! ### What is due for a job -/

/-- A rollback that is complete leads on. -/
def State.gatesSettle (s : State) (id : W32) : State :=
  s.onJob id fun j =>
    let t := j.gatesTrim
    if t.gates.isEmpty && j.after != .nothing && !j.committing then s.gatesDone id else s

/-- What else the job's teardown ends: its bedrock (R392) and its restore. -/
def State.teardownEnds (s : State) (id : W32) : State :=
  s.onJob id fun j =>
    if j.teardownCmd.isNone then s
    else
      let s := match j.restore with
        | some r => (s.setJob { j with restore := none }).finish r.cmd 0x020A
        | none => s
      if j.bed.isSome then s.bedAbandonNow id 0x0505 0 else s

/-- Everything due for one job. -/
def State.settleJob (s : State) (id : W32) : State :=
  let s := (s.gatesSettle id).commitGo id
  let s := ((s.advanceVote id).replayVote id).resumeGo id
  let s := (s.startGo id).teardownEnds id
  let s := (s.teardownGo id).fillGo id
  let s := ((s.siteResetGo id).derailGo id).rollbackGo id
  let s := ((s.seedGo id).buddySettle id).escrowTrim id
  let s := ((s.pinBegin id).bedGo id).restoreGo id
  (s.joinReplay id).tryOpen id

/-! ### What is due for commands -/

/-- A command whose job is gone from this side ends REFUSED in its completion; trainings end with their ports. -/
def State.runGo (s : State) (r : CmdRun) : State :=
  match s.run? r.id with
  | none => s
  | some r =>
    if r.slot.isSome then s
    else if r.opcode = 0x0107 ∨ r.opcode = 0x0108 then s.trainGo r
    else if opJob r.opcode r.job && (s.job? r.job).isNone then s.finish r.id 0x020A
    else s

/-- Messages of steps that have been rolled back are forgotten (R50, log entry 30). -/
def State.forgetLost (s old : State) : State :=
  old.jobs.vals.foldl (fun (t : State) (j : Job) =>
    let lost := (j.open_.map OpenStep.step).filter fun n => match t.job? j.id with
      | some k => (k.step? n).isNone && !(k.inVote.any fun o => o.step == n) && k.committed.toNat < n.toNat
      | none => true
    if lost.isEmpty then t else t.pairForget lost) s

/-- One pass over everything that may be due. -/
def State.settlePass (s : State) : State :=
  let s := (State.collsApply 16 s).collsTrim
  let s := (s.jobs.vals.map Job.id).foldl State.settleJob s
  let s := s.host.runs.foldl State.runGo s
  ((((s.joinGo.repairAsk).rotGo).switchGo).kernelsGo).sampCredits

/-- What a command has left due, compared with the state before it. -/
def State.settled (old s : State) : State := s.settlePass.settlePass.forgetLost old

end Sys2Proof.Machine
end

