-- ==== Sys2Proof/Machine/Time.lean ====
section
/-! DEFINITION. The time base (15_time_base.md): ticks, the two domains and the output clock, measurements over PTP and over torus time
messages. -/
namespace Sys2Proof.Machine

/-! ### Domains (R424 to R428) -/

/-- Change a domain. -/
def State.modDom (s : State) (d : Nat) (f : Domain → Domain) : State :=
  if d = 0 then { s with tmu.dom0 := f s.tmu.dom0 } else { s with tmu.dom1 := f s.tmu.dom1 }

/-- A domain. -/
def State.dom (s : State) (d : Nat) : Domain := if d = 0 then s.tmu.dom0 else s.tmu.dom1

/-- `n` ticks of a domain with increment 1 ns + a·2^−40 ns: the load first, then the steps, then the increments (R424, R425). -/
def Domain.tick (d : Domain) (a : Int) (n : Nat) : Domain :=
  let t : Int := (d.load.getD d.t : Nat)
  { d with t := ((t + d.stepSum * 2 ^ 24 + n * (2 ^ 40 + a)) % timeMod).toNat, valid := d.valid || d.load.isSome, load := none, stepSum := 0 }

/-- The most that a tick takes off the residual (R426). -/
def State.slewRate (s : State) : Nat := min 1000000 (max 1 (s.rd .tmuSlew).toNat) * 2 ^ 40

/-- The residual after `n` ticks: toward 0, without passing it. -/
def slewed (r : Int) (m : Nat) : Int := if r.natAbs ≤ m then 0 else if 0 < r then r - m else r + m

/-- `n` ticks of the time unit. -/
def State.tmuTick (s : State) (n : Nat) : State :=
  let r := slewed s.tmu.resid (n * s.slewRate)
  let t := { s with tmu := { s.tmu with dom0 := s.tmu.dom0.tick (s.rd .tmuFreqAdj 0).toInt n, dom1 := s.tmu.dom1.tick (s.rd .tmuFreqAdj 1).toInt n
                                        resid := r, count := s.tmu.count + n } }
  if s.tmu.resid != 0 && r == 0 then t.raise .tmuIntStatus 3 else t

/-- `n` ticks pass: powered time, the recorder's clock and the time unit. -/
def State.elapse (s : State) (n : Nat) : State := ({ s with now := s.now + n, ev.opNs := s.ev.opNs + n }).tmuTick n

/-- SLEW_DONE: the ticks that the residual still needs pass, and it is 0 (R426). -/
def State.slewDone (s : State) : State := s.elapse ((s.tmu.resid.natAbs + s.slewRate - 1) / s.slewRate)

/-- FREQ_ADJ, a phase step, a load (R425). -/
def State.freqWrite (s : State) (d : Nat) (a : W32) : State := s.wr .tmuFreqAdj a d
def State.stepWrite (s : State) (d : Nat) (v : W64) : State := s.modDom d fun x => { x with stepSum := x.stepSum + v.toInt }
def State.loadWrite (s : State) (d : Nat) : State :=
  let ns := (s.rd .tmuSetNs d).toNat
  if 10 ^ 9 ≤ ns then s.bump .tmuSetRefused
  else
    let sec := (s.rd .tmuSetSHi d).toNat * 2 ^ 32 + (s.rd .tmuSetSLo d).toNat
    s.modDom d fun x => { x with load := some ((sec * 10 ^ 9 + ns) * 2 ^ 40 + s.fld .tmuSetFrac 0 16 d * 2 ^ 24) }

/-- A domain is invalidated; its locked bit is written (R438). -/
def State.invalidate (s : State) (d : Nat) : State := s.modDom d fun x => { x with valid := false, locked := false }
def State.lockWrite (s : State) (d : Nat) (on : Bool) : State := s.modDom d fun x => { x with locked := on }

/-- A write of TMU.DOMAIN_CTRL[d]. -/
def State.domainCtrl (s : State) (d : Nat) (v : W32) : State :=
  let s := s.lockWrite d (v.getLsbD 0)
  let s := if v.getLsbD 1 then s.loadWrite d else s
  if v.getLsbD 2 then s.invalidate d else s

/-- TMU.CTRL.select is written: the output clock does not step (R426). -/
def State.selectWrite (s : State) (d : Nat) : State :=
  if s.fld .tmuCtrl 0 1 = d then s
  else
    let out : Int := if s.selDomain.valid then (s.selDomain.t : Int) * 10 ^ 9 + s.tmu.resid else (s.tmu.count : Int) * 2 ^ 40 * 10 ^ 9
    { s.wrFld .tmuCtrl 0 1 d with tmu.resid := out - ((s.dom d).t : Int) * 10 ^ 9 }

/-- The SNAP registers of one clock. -/
def State.snap (s : State) (k t : Nat) : State :=
  let ns := t / 2 ^ 40
  let sec := ns / 10 ^ 9
  (((s.wr .tmuSnapSLo (BitVec.ofNat 32 sec) k).wr .tmuSnapSHi (BitVec.ofNat 32 (sec / 2 ^ 32)) k).wr .tmuSnapNs (BitVec.ofNat 32 (ns % 10 ^ 9)) k).wr
    .tmuSnapFrac (BitVec.ofNat 32 (t / 2 ^ 24 % 2 ^ 16)) k

/-- TMU.CAPTURE (R436). -/
def State.tmuCapture (s : State) : State := ((s.snap 0 s.outTime).snap 1 s.tmu.dom0.t).snap 2 s.tmu.dom1.t

/-- No measurement has been published for a domain for TMU.LOSS_TIMEOUT (R428). -/
def State.sourceLost (s : State) (d : Nat) : State :=
  if (s.dom d).locked then (s.lockWrite d false).evInt 1 .tmuIntStatus 2 0 0 [d] else s

/-! ### Measurements (R429) -/

/-- Half of a sum in units of 2^−16 ns: the spec states no rounding, so of an odd sum the last bit is a free value. -/
def State.half (s : State) (x : Int) : Int × State :=
  if x % 2 = 0 then (x / 2, s)
  else
    let (b, t) := s.free 1
    (x / 2 + b.toNat, t)

/-- The low and high words of a signed quantity. -/
def intLo (x : Int) : W32 := BitVec.ofInt 32 x
def intHi (x : Int) : W32 := BitVec.ofInt 32 (x / 2 ^ 32)

/-- Publish an exchange. -/
def State.publish (s : State) (d : Nat) (offset delay : Int) : State :=
  let t := (((s.wr .tmuMeasOffsetLo (intLo offset) d).wr .tmuMeasOffsetHi (intHi offset) d).wr .tmuMeasDelayLo (intLo delay) d).wr
    .tmuMeasDelayHi (intHi delay) d
  ((t.bump .tmuMeasSeq d).bump .tmuMeasCount d).raise .tmuIntStatus d

/-- A domain's time in units of 2^−16 ns, as readers see it (R424). -/
def Domain.now (d : Domain) : Int := (d.t / 2 ^ 24 : Nat)

/-! ### PTP on the management port (R431, R432) -/

/-- A PTP timestamp in units of 2^−16 ns. -/
def ptpTime (x : W64 × W32) : Int := ((x.1.toNat * 10 ^ 9 + x.2.toNat) * 65536 : Nat)

/-- The domains whose source is PTP under a domainNumber. -/
def State.ptpDomains (s : State) (n : Nat) : List Nat :=
  if s.fld .tmuCtrl 1 1 = 0 then []
  else ([0, 1] : List Nat).filter fun d => s.fld .tmuDomainCfg 0 2 d == 1 && s.fld .tmuDomainCfg 8 7 d == n

/-- Everything of an exchange is there: publish it. -/
def State.ptpGo (s : State) (d : Nat) : State :=
  let x := s.dom d
  match x.ptpT1, x.ptpT2, x.ptpT3, x.ptpT4 with
  | some t1, some t2, some t3, some t4 =>
    let s := s.modDom d fun x => { x with ptpT1 := none, ptpT2 := none, ptpT3 := none, ptpT4 := none }
    let (m, s) := s.half ((t2 - t1) + (t4 - t3))
    s.publish d (t2 - t1 - m) m
  | _, _, _, _ => s

/-- A Sync of the master: t2 is its arrival, and the Delay_Req that it calls for leaves at t3. An exchange still open is dropped. Port 6's
latencies and asymmetry enter as in IEEE 1588-2019 (PRESUMED, log entry 33). -/
def State.ptpSyncOne (s : State) (d : Nat) (m : PtpSync) : State :=
  let x := s.dom d
  if x.master.all fun v => v.getLast? != some m.sender.toNat then s
  else
    let s := if x.ptpT2.isSome then s.bump .tmuMeasDropped d else s
    let asym := s.calEntry .tmuCalAsym 6
    let t1 := if m.twoStep then none else some (ptpTime m.origin + m.corr.toInt - asym)
    let s := s.modDom d fun x => { x with
      ptpSeq := m.seqId.toNat, ptpT1 := t1, ptpT2 := some (x.now - s.calEntry .tmuCalRx 6), ptpT3 := some (x.now + s.calEntry .tmuCalTx 6)
      ptpT4 := none, ptpCorr := m.corr.toInt - asym }
    s.emit (.ptp 1 m.seqId.toNat asym)

def State.ptpSync (s : State) (m : PtpSync) : State := (s.ptpDomains m.domain.val).foldl (fun t d => t.ptpSyncOne d m) s

/-- A Follow_Up completes t1. -/
def State.ptpFollowUp (s : State) (n : Nat) (seqId : Nat) (origin : W64 × W32) (corr : W64) : State :=
  (s.ptpDomains n).foldl (fun t d =>
    let x := t.dom d
    if x.ptpT2.isSome && x.ptpT1.isNone && x.ptpSeq == seqId then
      (t.modDom d fun x => { x with ptpT1 := some (ptpTime origin + x.ptpCorr + corr.toInt) }).ptpGo d
    else t) s

/-- A Delay_Resp gives t4. -/
def State.ptpDelayResp (s : State) (n : Nat) (seqId : Nat) (receive : W64 × W32) (corr : W64) : State :=
  (s.ptpDomains n).foldl (fun t d =>
    let x := t.dom d
    if x.ptpT3.isSome && x.ptpT4.isNone && x.ptpSeq == seqId then
      (t.modDom d fun x => { x with ptpT4 := some (ptpTime receive - corr.toInt) }).ptpGo d
    else t) s

/-- Lexicographic order of two vectors of an Announce. -/
def vectorLe : List Nat → List Nat → Bool
  | [], _ => true
  | _ :: _, [] => false
  | a :: l, b :: r => a < b || (a == b && vectorLe l r)

/-- An Announce: the best master clock algorithm keeps the lower priority vector, whose last entry names the sender (R431; PRESUMED, log
entry 33). A new Announce of the master replaces its vector. -/
def State.ptpAnnounce (s : State) (n : Nat) (v : List Nat) : State :=
  (s.ptpDomains n).foldl (fun t d => t.modDom d fun x => match x.master with
    | some w => if w.getLast? == v.getLast? || vectorLe v w then { x with master := some v } else x
    | none => { x with master := some v }) s

/-- A PTP message that is not supported. -/
def State.ptpUnsupported (s : State) : State := s.bump .tmuPtpDiscards

/-! ### Torus time messages (R433, R434) -/

/-- The 64 bytes of a TIME message whose corr the egress fills. -/
def timeBody (ty d seqNo : Nat) (requester : W16) (corrReq : W64) (tb tc : List Byte) : List Byte :=
  leBytes 1 ty ++ leBytes 1 d ++ leBytes 2 seqNo ++ leBytes 2 requester.toNat ++ [0, 0] ++ leBytes 8 0 ++ leBytes 8 corrReq.toNat ++
    sliceBytes tb 0 14 ++ [0, 0] ++ sliceBytes tc 0 14 ++ List.replicate 10 0

/-- TIME_INTERVAL: the request of a domain whose source is the torus; an exchange still open is dropped. -/
def State.timeRequestTx (s : State) (d : Nat) : State :=
  if s.fld .tmuCtrl 2 1 = 0 || s.fld .tmuDomainCfg 0 2 d != 2 then s
  else
    let s := if (s.dom d).reqOpen then s.bump .tmuMeasDropped d else s
    let n := ((s.dom d).reqSeq + 1) % 65536
    let s := s.modDom d fun x => { x with reqSeq := n, reqOpen := true, reqTa := none }
    s.torSend 0xB (BitVec.ofNat 16 (s.fld .tmuDomainCfg 16 16 d)) 0 none (timeBody 1 d n s.position 0 [] [])

/-- A TIME message has the form that its type gives. -/
def timeForm (ty : Nat) (b : List Byte) : Bool :=
  b.length == 64 && fieldLE b 0 1 == ty && fieldLE b 1 1 < 2 && zeroBytes b 6 2 && zeroBytes b 0x26 2 && zeroBytes b 0x36 10 &&
    (ty == 2 || fieldLE b 0x10 8 == 0)

/-- The corr of a message that has arrived at a port. -/
def State.corrIn (s : State) (port : Nat) (b : List Byte) : Int := (BitVec.ofNat 64 (fieldLE b 8 8)).toInt + s.calEntry .tmuCalRx port

/-- A TIME request: answered where the domain is valid and time messages are enabled. -/
def State.timeRequestRx (s : State) (port : Nat) (b : List Byte) : State :=
  let d := fieldLE b 1 1
  if !timeForm 1 b || s.fld .tmuCtrl 2 1 = 0 || !(s.dom d).valid then s.bump .tmuTimeDiscards
  else s.torSend 0xB (BitVec.ofNat 16 (fieldLE b 4 2)) 0 none
    (timeBody 2 d (fieldLE b 2 2) (BitVec.ofNat 16 (fieldLE b 4 2)) (BitVec.ofInt 64 (s.corrIn port b)) (timeBytes (s.dom d).t) [])

/-- A time value read back, in units of 2^−16 ns. -/
def stampAt (b : List Byte) (o : Nat) : Int := ((fieldLE b o 8 * 10 ^ 9 + fieldLE b (o + 8) 4) * 65536 + fieldLE b (o + 12) 2 : Nat)

/-- A TIME response: the exchange is published. -/
def State.timeResponseRx (s : State) (port : Nat) (b : List Byte) : State :=
  let d := fieldLE b 1 1
  let x := s.dom d
  if !timeForm 2 b || s.fld .tmuDomainCfg 0 2 d != 2 || fieldLE b 4 2 != s.position.toNat || !x.reqOpen || fieldLE b 2 2 != x.reqSeq then
    s.bump .tmuTimeDiscards
  else
    let s := s.modDom d fun x => { x with reqOpen := false, reqTa := none }
    match x.reqTa with
    | none => s.bump .tmuMeasDropped d
    | some ta =>
      let up := stampAt b 0x18 - ta - (BitVec.ofNat 64 (fieldLE b 0x10 8)).toInt
      let down := x.now - stampAt b 0x28 - s.corrIn port b
      let (m, s) := s.half (up + down)
      let (o, s) := s.half (down - up)
      s.publish d o m

end Sys2Proof.Machine
end

