-- ==== Sys2Proof/Machine/Power.lean ====
section
/-! DEFINITION. Bring-up and power (17_bring_up_power.md, R507 to R513): starts, domains, units, training of the stacks, calibration, field
fuses, partial resets, discrete inputs and temperature. -/
namespace Sys2Proof.Machine

/-! ### Whole-chip resets (R461, R466) -/

/-- Whether a key of the register table belongs to one of some registers. -/
def keyIn (l : List Reg) (k : Nat) : Bool := l.any fun r => r.ctorIdx == k / 65536

/-- The fixed domains, on whenever PWR_GOOD is high (R459). -/
def fixedDomains : BitVec 64 := BitVec.ofNat 64 (([54, 55, 56, 57, 58, 59, 62, 63].map (2 ^ ·)).sum)

/-- The position of a controller that its straps give: none for a spare (R23, R291). -/
def State.takeStraps (s : State) (x : StrapSt) : State :=
  let tor := { s.tor with
    position := if x.spare then none else some x.id
    dimX := if x.spare then 1 else x.x.toNat + 1
    dimY := if x.spare then 1 else x.y.toNat + 1
    dimZ := if x.spare then 1 else x.z.toNat + 1 }
  { s with pwr.strapsAt := x, tor := tor, pair := PairSt.init x.side }

/-- A whole-chip reset: every field of the controller returns to its reset value, but for what NOR, fuses, latched straps and the always-on
counts hold, and for the Bruix block, which is another chip (log entry 34). -/
def State.coldClear (s : State) (powerLost : Bool) : State :=
  let r := State.reset
  let p := s.pwr
  let keep := fun (e : Nat × W32) => keyIn Reg.ofBrx e.1 || (!powerLost && keyIn [.pwrStartFails, .pwrResetIgnored] e.1)
  let t : State := { r with
    regs := s.regs.filter keep
    shadow := s.shadow.filter fun (e : Nat × W32) => 2 ^ 25 ≤ e.1
    heldLo := s.heldLo.filter fun (e : Nat × W32) => 2 ^ 25 ≤ e.1
    ports := s.ports.filter fun (e : Nat × Port) => 15 ≤ e.1
    brx := s.brx
    ev := { s.evClose.ev with
      opNs := if powerLost then s.ev.checkpoint * 10 ^ 6 else s.ev.opNs
      lastClosed := none, collect := [], facilities := 0, tracing := false, traceStopped := false, traceWrapped := false
      traceWindow := 0, tracePage := 0, tracePages := 0, traceWrap := false, traceCores := 0, traceBytes := 0, traceFifo := []
      traceSince := [], traceLoss := [] }
    sec := { SecSt.init with
      bank0 := s.sec.bank0, bank1 := s.sec.bank1, bootBank := s.sec.bootBank, staged := s.sec.staged, keysDrawn := s.sec.keysDrawn
      nextIndex := s.sec.nextIndex, reservedEnd := s.sec.reservedEnd, resv0 := s.sec.resv0, resv1 := s.sec.resv1, resvAt := s.sec.resvAt
      clearSeq := s.sec.clearSeq }
    fuse := s.fuse
    pwr := { PwrSt.init with
      pwrGood := p.pwrGood, failsInRow := if powerLost then 0 else p.failsInRow, startCount := p.startCount, cal0 := p.cal0, cal1 := p.cal1
      pgLimited := p.pgLimited, pgStarts := p.pgStarts, warmMasked := p.warmMasked, lastWarmAt := p.lastWarmAt, tj := p.tj }
    host := { HostSt.init with linkOk := s.host.linkOk, linkRate := s.host.linkRate, linkWidth := s.host.linkWidth, busMaster := s.host.busMaster }
    now := s.now, pending := s.pending, outbox := s.outbox, fresh := s.fresh }
  t.takeStraps p.strapsAt

/-- The newest valid calibration record, where its serial and physical ID match (R471). -/
def PwrSt.newest (p : PwrSt) : Option CalRec :=
  match p.cal0, p.cal1 with
  | some a, some b => some (if a.seqNo < b.seqNo then b else a)
  | some a, none => some a
  | none, b => b

/-- The saved settings (R471). -/
def State.savedCal (s : State) : Option CalRec :=
  match s.pwr.newest with
  | some r => if r.serial = s.fuse.serial ∧ r.physical = s.pwr.strapsAt.id then some r else none
  | none => none

/-- A cold start begins (R461, R462): the fuse map is sensed; PWR.CTRL.full_train and the saved settings decide how everything trains. -/
def State.coldStart (s : State) (powerLost fellBack : Bool) : State :=
  let full := s.fld .pwrCtrl 1 1 = 1
  let t := s.coldClear powerLost
  { t with
    ev.cycles := min (t.ev.cycles + 1) 0xFFFFFFFF
    pwr := { t.pwr with
      pwrGood := true, start := .cold, phase := 1, startedAt := s.now, startCount := t.pwr.startCount + 1, domOn := fixedDomains
      warmFellBack := fellBack, calValid := t.savedCal.isSome && !full } }

/-- A reset request that R466 ignores. -/
def State.resetIgnored (s : State) : State := s.bump .pwrResetIgnored

/-- A discrete input's event (R509): it set no interrupt bit and counted nothing. -/
def State.inputEvent (s : State) : State := s.evReason 1 .pwr 0x0C 0 0 []

/-- Whether a reset of some scope may begin: the controller is powered, and nothing has stopped it for good (R465, R508, R512). -/
def State.resettable (s : State) : Bool := s.pwr.pwrGood && !s.pwr.brownout

/-- PWR.RESET.cold (R461). -/
def State.resetCold (s : State) : State :=
  if !s.resettable then s else if s.pwr.start = .cold then s.resetIgnored else s.coldStart false false

/-- PWR_GOOD rises, and stays high for a time in µs (R507, R509). -/
def State.pwrGoodRise (s : State) (highUs : Nat) : State :=
  if s.pwr.pwrGood || highUs < 1000 then s
  else
    let recent := s.pwr.pgStarts.filter fun a => s.now < a + 10 ^ 10
    if 4 ≤ recent.length then
      let t := { s with pwr.pgLimited := true }
      if highUs < 10 ^ 6 then t.inputEvent
      else ({ t with pwr.pgStarts := recent ++ [s.now] }.coldStart true false).inputEvent
    else { s with pwr.pgLimited := false, pwr.pgStarts := recent ++ [s.now] }.coldStart true false

/-- Program the queue of the recorder within the holdup (R484). -/
def State.evFlush : Nat → State → State
  | 0, s => s
  | n + 1, s => State.evFlush n s.recordDone

/-- PWR_GOOD falls: the recorder closes its record, ends an erase under way and programs every queued record, and the controller is off
(R30, R484, R507). -/
def State.pwrGoodFall (s : State) : State :=
  if !s.pwr.pwrGood then s
  else
    let t := (s.reservationDone true).evClose.eraseDone
    let t := State.evFlush t.ev.queue.length t
    let t := t.coldClear true
    { t with pwr.pwrGood := false, ev.queue := [] }

/-- CHIP_RST_N is low for a time in µs (R509). -/
def State.chipReset (s : State) (lowUs : Nat) : State :=
  if lowUs < 10 || !s.pwr.pwrGood then s
  else if s.pwr.start = .cold then s.evCount 1 .pwrResetIgnored 0 0 []
  else
    let t := s.coldStart false false
    if 10 ^ 7 < lowUs then ({ t with pwr.chipStuck := true }).inputEvent else t

/-- PERST_N (R461, R398): while it is asserted the link is down and host-facing state is reset. -/
def State.perst (s : State) (asserted : Bool) : State :=
  if asserted then { s.flr with host.linkOk := true, host.linkRate := 0, host.linkWidth := 0, host.busMaster := false } else s

/-! ### Straps, BIST and boot (R444, R462, R468, R509) -/

/-- Straps are sampled three times; the pair link begins to train on its own (R260, R472). -/
def State.strapSample (s : State) (a b c : StrapSt) : State :=
  if s.pwr.start != .cold || 2 < s.pwr.phase.val then s
  else
    let same := a = b ∧ b = c
    let t := s.takeStraps (if same then a else s.pwr.strapsAt)
    let t := if same then t else ({ t with pwr.strapUnstable := true }).inputEvent
    let t := { t with pwr.phase := 2, pwr.calValid := s.pwr.calValid && t.savedCal.isSome }
    t.trainStart 8 (!t.pwr.calValid)

/-- The control complex is released: ports train, and the saved asymmetries enter TMU.CAL_ASYM (R462, R471). -/
def State.release (s : State) : State :=
  let t := { s with pwr.released := true, pwr.phase := 4 }
  let t := match t.savedCal with
    | some r => (List.range 6).foldl (fun (u : State) i => u.wr .tmuCalAsym (r.asym.getD i 0) i) t
    | none => t
  ([0, 1, 2, 3, 4, 5, 6, 7, 9, 10, 11, 12, 13, 14] : List Nat).foldl (fun u p => u.trainStart p (!u.pwr.calValid)) t

/-- The root-of-trust core boots; without a passing bank the controller waits in recovery (R444). -/
def State.bootGo (s : State) : State :=
  let (t, ok) := s.boot
  if ok then t.release else { t with pwr.phase := 7 }

/-- BIST has run on every unit: the floor plan table is formed, and firmware is verified (R468). -/
def State.bistDone (s : State) (codes : List Nat) : State :=
  if s.pwr.start != .cold || 2 < s.pwr.phase.val then s
  else
    let code := fun (u : Nat) => codes.getD u 0
    let good := BitVec.ofNat 72 (((List.range 72).filter fun u => code u == 0).map (2 ^ ·)).sum
    let t := { s with pwr.bistCode := (List.range 72).map code, pwr.bistGood := good, pwr.domOn := BitVec.allOnes 64, pwr.phase := 3 }
    let t := (List.range 72).foldl (fun (v : State) u =>
      if v.fuse.unitBad.getLsbD u == good.getLsbD u then
        v.evInt 1 .pwrIntStatus 3 0 0 [u, if v.fuse.unitBad.getLsbD u then 1 else 0, code u]
      else v) t
    t.bootGo

/-- SEC.CTRL.recovery_go (R444). -/
def State.recoveryGo (s : State) : State :=
  if !s.sec.recovery then s
  else
    let n := fwBody s.sec.recoveryBuf
    let b := s.sec.recoveryBuf.take (n + sigBlockBytes 1 + if s.ownerValid then sigBlockBytes 2 else 0)
    if s.fwCheck b = 0 then ({ s.fwWrite false b with sec.recovery := false, sec.recoveryBuf := [], sec.staged := s.sec.bootBank }).bootGo
    else s.sigRefused

/-! ### HBM (R473) -/

/-- A stack has trained, at 8.0 or at 6.4 Gb/s, or has failed. -/
def State.hbmTrainDone (s : State) (k : Nat) (r : TrainResult) : State :=
  if s.pwr.start = .none || s.pwr.phase.val != 4 then s
  else
    let bit := BitVec.ofNat 16 (2 ^ k)
    let full := fun (t : State) =>
      if t.pwr.start = .warm || t.pwr.calValid then t else { t with pwr.fullTrained := Tbl.set t.pwr.fullTrained (15 + k) 1 }
    match r with
    | .full => full { s with pwr.hbmTrained := s.pwr.hbmTrained ||| bit, pwr.hbmSlow := s.pwr.hbmSlow &&& ~~~bit }
    | .slow => full (({ s with pwr.hbmTrained := s.pwr.hbmTrained ||| bit, pwr.hbmSlow := s.pwr.hbmSlow ||| bit }).evInt 1 .pwrIntStatus 4 0 0 [k])
    | .failed => if s.pwr.start = .warm then s else s.stackFailed k

/-! ### Calibration (R471) -/

/-- The lanes of a port that count as all of it, or of a stack. -/
def State.mustTrain (s : State) : List Nat :=
  ((List.range 15).filter fun p => s.portUsable p) ++ ((List.range 16).filter fun k => s.usable k).map (15 + ·)

/-- A new record goes to the copy that does not hold the newest valid one. -/
def State.calWrite (s : State) : State :=
  let old := s.pwr.newest
  let lanes := (old.map CalRec.lanes).getD []
  let r : CalRec := ⟨s.fuse.serial, s.pwr.strapsAt.id, (old.map CalRec.seqNo).getD 0 + 1,
    s.pwr.fullTrained.foldl (fun (t : Tbl W32) (e : Nat × W32) => Tbl.set t e.1 e.2) lanes, (List.range 6).map fun i => s.rd .tmuCalAsym i⟩
  let newestIs0 := match s.pwr.cal0, s.pwr.cal1 with
    | some a, some b => decide (b.seqNo ≤ a.seqNo)
    | some _, none => true
    | none, _ => false
  let t := { s with pwr.calSaved := true, pwr.fullTrained := [] }
  (if newestIs0 then { t with pwr.cal1 := some r } else { t with pwr.cal0 := some r }).bump .pwrCalSaves

/-- PWR.CAL_CTRL.save: once for each start; a further write is ignored and counted in PWR.RESET_IGNORED (log entry 34). -/
def State.calSave (s : State) : State := if s.pwr.calSaved then s.resetIgnored else s.calWrite

/-! ### The end of a start (R462 to R465, R469) -/

/-- An essential unit is missing (R469). -/
def State.essentialMissing (s : State) : Bool :=
  s.pwr.hbmTrained != BitVec.allOnes 16 || (List.range 16).any (fun k => !s.usable k || !s.usable (16 + k)) || !s.usable 54 || !s.usable 55 ||
    !(s.usable 32 || s.usable 33) || ((List.range 8).filter fun c => s.usable (56 + c)).length < 4

/-- PWR.STATUS (R476). -/
def State.pwrStatus (s : State) : Nat :=
  let p := s.pwr
  let b := fun (on : Bool) (i : Nat) => if on then 2 ^ i else 0
  p.phase.val * 2 ^ 12 + p.fuseResult.val * 2 ^ 10 + b p.hbmSupplyHeld 9 + b p.calValid 8 + b p.essentialLost 7 + b p.startHalted 6 +
    b p.warmFellBack 5 + b p.lastWarm 4 + b p.startDone 0

/-- Jobs that the start has found, staged ones too, are held, and resume only after a fill (R464). -/
def State.holdFound (s : State) : State :=
  { s with jobs := s.jobs.map fun (e : Nat × Job) =>
      (e.1, { e.2.addReason holdInconsistent with phase := .held, recov.needsFill := true, recov.reasons := BitVec.ofNat 32 (2 ^ holdInconsistent) }) }

/-- The start is over, in the role that R464 gives for the partner's role. -/
def State.startEnd (s : State) (partner : Option Role) : State :=
  let warm := s.pwr.start = .warm
  let lost := s.essentialMissing
  let t := { s with pwr := { s.pwr with
    start := .none, phase := 6, startDone := true, lastWarm := warm, failsInRow := 0, startUs := (s.now - s.pwr.startedAt) / 1000
    essentialLost := lost } }
  let t := match partner with
    | some r => { t with pair.partnerRole := r }
    | none => t
  let t := t.holdFound
  let t := t.raise .pwrIntStatus 0
  let t := t.detect 0 .pwr 0x32 0 0 (sliceBytes (leBytes 4 t.pwrStatus ++ leBytes 4 t.pwr.startUs) 0 64)
  let t := { (if warm then t else t.sysInit) with store.censusDone := true }
  let t := if !warm && t.pwr.newest.isNone && t.mustTrain.all (fun k => Tbl.has t.pwr.fullTrained k) then t.calWrite else t
  let t := if lost then t.evReason 4 .pwr 0xFFFF 0 0 [] else t
  let claimed := partner == some Role.active || partner == some Role.sole
  if lost || t.pwr.strapUnstable || claimed then t.withdraw else t

/-- A warm start may keep what HBM holds (R463). -/
def State.warmHolds (s : State) : Bool :=
  s.pwr.marker == some (s.pwr.startCount, s.pwr.startCount) && s.pwr.hbmSupplyHeld && s.pwr.hbmTrained == BitVec.allOnes 16

/-- START_DONE, with the role that the partner's heartbeats carry, if any have come. -/
def State.startDone (s : State) (partner : Option Role) : State :=
  if s.pwr.start = .none || s.pwr.phase.val != 4 then s
  else if s.pwr.start = .warm && !s.warmHolds then (s.coldStart false true).evReason 1 .pwr 0x0B 0 0 []
  else ({ s with pwr.marker := none }).startEnd partner

/-- The start watchdog expires, or the control complex stops, before start_done (R465). -/
def State.startWatchdog (s : State) : State :=
  if s.pwr.start = .none || !s.pwr.released then s
  else
    let t := (s.bump .pwrStartFails).evInt 1 .pwrIntStatus 1 0 0 []
    let n := t.pwr.failsInRow + 1
    if 3 ≤ n then
      { t with pwr := { t.pwr with failsInRow := n, startHalted := true, released := false, start := .none, phase := 8 } }
    else
      let u := ({ t with pwr.failsInRow := n }).coldStart false false
      u.raise .pwrIntStatus 1

/-! ### Restarts over a kept HBM (R72, R77, R89) -/

/-- What a restart makes of a job: its state, and whether it differs from the state adopted. A step record of the next step that no working
stratum bears out, or whose tag fails, makes the job inconsistent (R89, R453). A pin is kept with its bedrock (R77). -/
def State.reconcile (s : State) (j : Job) : Job × Bool :=
  let replay := j.open_.head?.any OpenStep.replay
  let next := j.committed + 1
  let record := if replay then none else j.record? next
  let complete := match record, j.strata.working with
    | some r, some w => if s.recordTagOk r && BitVec.ofNat 256 (fieldLE r 0x20 32) = s.rootOf j w then some w else none
    | _, _ => none
  let bad := record.isSome && complete.isNone || (j.strata.held && !(j.record? j.committed).all s.recordTagOk)
  let strata := match complete with
    | some w => j.strata.commit { w with step := next }
    | none => j.strata.revert
  let top := strata.committed.step.toNat
  let silt := if replay then j.silt else j.silt.filter fun e => e.step.toNat ≤ top && e.closed
  let chain := if replay then j.chain else j.chain.filter fun r => fieldLE r 8 8 ≤ top
  let changed := complete.isSome || j.strata.working.isSome || silt.length != j.silt.length || chain.length != j.chain.length || j.strata.pinCopy.isSome
  ({ j with
      strata := { strata with pinCopy := none }, silt := silt, chain := chain, open_ := [], inVote := none, gates := [], after := .nothing
      hold := [], holdFull := false, start := none, bed := if j.strata.pin.isSome then j.bed else none, restore := none, newSched := none, deferred := none, newParams := none, newRollback := none
      newPel := [], recov := { j.recov with running := 0, replaying := [], items := [], outItems := [] }
      teardownCmd := none, gone := [], allocStall := false, admittedSites := 0
      phase := if j.phase = .staged || j.phase = .preparing || j.phase = .prepared then .staged else .held }
    |> fun (k : Job) => if bad then k.addReason holdInconsistent else k, changed || bad)

/-- The selected set record and the journal are read at a restart (R89, R453): for each job the copy selected rewrites the other, and a job
that neither copy names is inconsistent; the flip that completes or reverts its step is made; tags of silt headers and journal entries are
verified. -/
def State.reconcileJob (s : State) (j0 : Job) : State :=
  let s := j0.silt.foldl (fun t e => t.siltRead j0.id e.step) s
  s.onJob j0.id fun j =>
    let (k, changed) := s.reconcile j
    let found := s.setSelect j.slot
    let lost := j.strata.held && !(found.any fun e => e.2.selector.toNat / 2 == j.strata.flipSeq.toNat)
    let k := if lost then k.addReason holdInconsistent else k
    let s := s.setJob k
    let s := match found with
      | some (c, e) =>
        let put := fun (x : SysCopy) => { x with strata := Tbl.set x.strata j.slot e }
        if c = 0 then { s with store.sys1 := put s.store.sys1 } else { s with store.sys0 := put s.store.sys0 }
      | none => s
    let s := if j.strata.working.isSome then s.flipped j.id id else s
    let failed := (j.chain.filter fun r => (fieldLE r 8 8 == j.committed.toNat || fieldLE r 8 8 == j.committed.toNat + 1) && !s.recordTagOk r)
    let s := failed.foldl (fun t r => t.tagFailed j.id (BitVec.ofNat 64 (fieldLE r 8 8))) s
    if changed || lost then s.evReason 1 .str 5 j.id 0 [] else s

/-- Every job is reconciled; control SRAM is empty. -/
def State.restart (s : State) : State :=
  let t := s.jobs.vals.foldl State.reconcileJob (s.host.journal.foldl State.entryRead s)
  { t with
    acc := AccSt.init, upd := UpdSt.init, stm := StmSt.init, asy := AsySt.init
    host := { t.host with runs := [], siteSent := [], siteCap := [], siteGen := [], targets := none, device := 0, cqQueue := [] }
    tor := { t.tor with neigh := [], stable := false, colls := [], landings := [], transfers := [], triples := [] }
    store := { t.store with hopTries := [], repair := none, repairAsked := false, refs := t.store.refs.filter fun (r : ReadRef) => 1000 ≤ r.holder
                            censusDone := true } }

/-- Warm start (R461): stacks in self-refresh behind the marker, jobs reconciled, ports trained again; what domains 0 to 15, 54 to 56, 58, 59,
62 and 63 hold stays; TOR.CTRL.pod_lock is cleared by a whole-chip reset alone (R318). -/
def State.warmStart (s : State) : State :=
  let count := if s.pwr.start = .warm then s.pwr.startCount else s.pwr.startCount + 1
  let gone := Reg.ofStr ++ Reg.ofUpd ++ Reg.ofStm ++ Reg.ofAsy ++ Reg.ofTor ++ Reg.ofDbg
  let spk := fun (k : Nat) => keyIn Reg.ofSpk k && k % 65536 != 8
  let t := ({ s with regs := s.regs.filter fun (e : Nat × W32) => !keyIn gone e.1 && !spk e.1 }).wrFld .torCtrl 0 1 (s.fld .torCtrl 0 1)
  let t := ([0, 1, 2, 3, 4, 5, 6, 7, 9, 10, 11, 12, 13, 14] : List Nat).foldl (fun u p => u.setPort p (Port.init .disabled)) t
  let t := t.restart
  let t := { t with
    host := { t.host with kernels := [], kernelDue := [], profiles := [] }
    pair := PairSt.init t.sideB
    side := { t.side with frame := none }
    pwr := { t.pwr with
      start := .warm, phase := 4, startDone := false, startedAt := s.now, startCount := count, marker := some (count, count)
      hbmSupplyHeld := true, hbmTrained := 0, warmFellBack := false, lastWarmAt := some s.now, calSaved := false
      calValid := t.savedCal.isSome && t.fld .pwrCtrl 1 1 = 0 } }
  t.release

/-- A warm start may begin. -/
def State.warmOk (s : State) : Bool := s.resettable && s.pwr.released && !s.pwr.startHalted && s.pwr.start != .cold

/-- PWR.RESET.warm (R461, R466). -/
def State.resetWarm (s : State) : State :=
  if !s.resettable then s else if s.warmOk then s.warmStart else s.resetIgnored

/-- WARM_RST_N is low for a time in µs (R509). -/
def State.warmPin (s : State) (lowUs : Nat) : State :=
  if lowUs < 10 || s.pwr.warmMasked || !s.resettable then s
  else
    let soon := s.pwr.lastWarmAt.any fun a => s.now < a + 10 ^ 9
    let t := if soon || !s.warmOk then s.evCount 1 .pwrResetIgnored 0 0 [] else s.warmStart
    if 10 ^ 6 < lowUs then ({ t with pwr.warmStuck := true, pwr.warmMasked := true }).inputEvent else t

/-- WARM_RST_N has been high for 100 ms. -/
def State.warmMaskEnd (s : State) : State := { s with pwr.warmMasked := false }

/-- A strap changes after sampling: recorded once. -/
def State.strapChange (s : State) : State :=
  if s.pwr.strapChanged || !s.pwr.pwrGood then s else ({ s with pwr.strapChanged := true }).inputEvent

/-! ### Partial resets (R474) -/

/-- Whether a partial reset is accepted: none during a start (R466). -/
def State.partialOk (s : State) : Bool := s.pwr.start = .none && s.pwr.released

/-- PWR.RESET.partition: the side fences, its jobs are reconciled as at a restart, and it ends WITHDRAWN; image, key, kernels and profiles stay
(R89, R474). -/
def State.resetPartition (s : State) : State :=
  if !s.resettable then s else if !s.partialOk then s.resetIgnored
  else
    let t := s.haltNotice.fence.restart
    t.jobs.vals.foldl State.leaveJob t

/-- A running update slice is reset: the step that it updated fails link integrity (R36). -/
def State.sliceReset (s : State) (k : Nat) : State :=
  let run := ((Tbl.get s.upd.slices Slice.init k).run).isSome || (Tbl.get s.upd.slices Slice.init k).todo.length != 0
  let t := { s with upd.slices := Tbl.erase s.upd.slices k }
  match (if run then s.upd.run else none) with
  | some d => t.modStep d.job d.step fun o => { o with linkFail := true }
  | none => t

/-- PWR.RESET.cluster on a unit 16 to 53; an assay sample in progress has not been judged and stays at the head of its queue. -/
def State.resetCluster (s : State) (u : Nat) : State :=
  if !s.resettable then s else if !s.partialOk then s.resetIgnored
  else if u < 16 || 53 < u then s
  else if u < 32 then s.sliceReset (u - 16)
  else if u < 34 then s
  else
    let p := if u < 42 then u - 34 else if u < 48 then u - 33 else u - 39
    let t := if (s.port p).up then (s.failLinks p).leaveActive p .disabled else s.portStop p .disabled
    t.trainStart p false

/-- PWR.RESET.core_mask: no effect on jobs while 4 usable cores are not being reset; otherwise the side halts (log entry 34). -/
def State.resetCores (s : State) (mask : Byte) : State :=
  if mask = 0 || !s.resettable then s else if !s.partialOk then s.resetIgnored
  else if 4 ≤ ((List.range 8).filter fun c => s.usable (56 + c) && !mask.getLsbD c).length then s else s.trayHalt

/-! ### Power domains (R459, R460) -/

/-- The domains that a domain depends on. -/
def domDeps (d : Nat) : List Nat :=
  if 16 ≤ d && d < 32 then [d - 16] else if 34 ≤ d && d < 42 then [60, 61] else if 42 ≤ d && d < 48 then [d + 6] else []

/-- A domain's unit is in use (R460). -/
def State.domUsed (s : State) (d : Nat) : Bool :=
  let held := !s.jobs.isEmpty
  if d < 32 then held
  else if d < 34 then held && !(s.pwr.domOn.getLsbD (65 - d) && s.usable (65 - d))
  else if d < 42 then s.jobs.vals.any fun j => j.admittedSites.getLsbD (d - 34)
  else if d < 48 then s.neighState (d - 42) == 1 && held
  else if d = 60 || d = 61 then (List.range 8).any fun k => s.pwr.domOn.getLsbD (34 + k)
  else false

/-- A refused request (R460). -/
def State.domRefuse (s : State) : State := (s.bump .pwrDomainRefused).raise .pwrIntStatus 2

/-- Switch a domain off: what it holds reads as not ready. -/
def State.domOff (s : State) (d : Nat) : State :=
  if s.domUsed d || (List.range 64).any (fun e => s.pwr.domOn.getLsbD e && (domDeps e).contains d) then s.domRefuse
  else
    let t := { s with pwr.domOn := s.pwr.domOn &&& ~~~(1#64 <<< d) }
    if d < 16 then { t with pwr.hbmTrained := t.pwr.hbmTrained &&& ~~~(1#16 <<< d) }
    else if d < 32 then { t with upd.slices := Tbl.erase t.upd.slices (d - 16) }
    else if 34 ≤ d && d < 48 then
      let p := if d < 42 then d - 34 else d - 33
      if (t.port p).up then (t.failLinks p).leaveActive p .disabled else t.portStop p .disabled
    else t

/-- Switch a domain on. -/
def State.domOnGo (s : State) (d : Nat) : State :=
  if (domDeps d).all fun e => s.pwr.domOn.getLsbD e then { s with pwr.domOn := s.pwr.domOn ||| (1#64 <<< d) } else s.domRefuse

/-- The order of one write: dependents go off before, and come on after, what they depend on (log entry 34). -/
def domOrder : List Nat := (List.range 48).drop 16 ++ List.range 16 ++ (List.range 64).drop 48

/-- PWR.DOMAIN_REQ is written: the bits of fixed domains read 1; the bit of a refused request returns to the domain's state. -/
def State.domainReq (s : State) (req : W64) : State :=
  if !s.pwr.pwrGood then s
  else
    let want := fun (d : Nat) => req.getLsbD d || fixedDomains.getLsbD d
    let t := domOrder.foldl (fun (u : State) d => if !want d && u.pwr.domOn.getLsbD d then u.domOff d else u) s
    let t := domOrder.reverse.foldl (fun (u : State) d => if want d && !u.pwr.domOn.getLsbD d then u.domOnGo d else u) t
    (t.wr .pwrDomainReqLo (t.pwr.domOn.setWidth 32)).wr .pwrDomainReqHi ((t.pwr.domOn >>> 32).setWidth 32)

/-! ### Field fuses (R470) -/

/-- The signer and the key slot that an action admits. -/
def State.fuseSigner (s : State) (b : List Byte) : Bool :=
  let blk := b.drop 80
  let action := fieldLE b 2 2
  let target := fieldLE b 4 1
  let signers := if action = 3 ∧ target < 2 then [1] else if action = 2 ∧ !s.ownerValid then [1] else [2]
  s.sigOk signers 0xB0 (shake256 (b.take 80)) blk && (!(action == 3 && target < 2) || fieldLE blk 3 1 == 1 - target)

/-- The action's own conditions. -/
def State.fuseAction (s : State) (b : List Byte) : Bool :=
  let target := fieldLE b 4 1
  match fieldLE b 2 2 with
  | 2 => 2 ≤ target && target < 6 && !s.fuse.programmed.getLsbD target
  | 3 =>
    let kind := if target < 2 then [0, 1] else [2, 3, 4, 5]
    target < 6 && zeroBytes b 24 32 && kind.any fun k => k != target && s.keyValid k
  | 4 => target < 72 && zeroBytes b 24 32
  | _ => false

/-- The conditions of R454 and R470. -/
def State.fuseOk (s : State) (b : List Byte) : Bool :=
  s.authFields b 8 && zeroBytes b 5 3 && zeroBytes b 56 24 && s.fuseAction b && s.fuseSigner b

/-- The fuses are blown; a slot whose row reads back wrong reads as revoked. -/
def State.fuseBlow (s : State) (b : List Byte) (readBackOk : Bool) : State :=
  let target := fieldLE b 4 1
  match fieldLE b 2 2 with
  | 2 => { s with
      fuse.programmed := s.fuse.programmed ||| (1#6 <<< target)
      fuse.revoked := if readBackOk then s.fuse.revoked else s.fuse.revoked ||| (1#6 <<< target)
      fuse.keyHash := s.fuse.keyHash.set target (BitVec.ofNat 256 (fieldLE b 24 32)) }
  | 3 => { s with fuse.revoked := s.fuse.revoked ||| (1#6 <<< target) }
  | 4 => { s with fuse.unitBad := s.fuse.unitBad ||| (1#72 <<< target) }
  | _ => s

/-- PWR.FUSE_CTRL.go: the authorisation lies in the SCRATCH page that PWR.FUSE_AUTH names, which must read DEVICE and returns to HOST. -/
def State.fuseGo (s : State) (readBackOk : Bool) : State :=
  let w := s.fld .pwrFuseAuth 16 8
  let p := s.fld .pwrFuseAuth 0 12
  let refuse := fun (t : State) => (({ t with pwr.fuseResult := 2 }).bump .pwrFuseFailures).raise .pwrIntStatus 5
  match s.window? w with
  | none => refuse s
  | some x =>
    let b := s.winBytes x (p * 65536) (80 + sigBlockBytes 2)
    let b := b.take (80 + sigBlockBytes (if fieldLE b 82 1 = 1 then 1 else 2))
    let ready := x.kind = 1 ∧ s.pageFlag w p = 1
    let t := { s with host.windows := Tbl.set s.host.windows w { x with device := x.device.filter (· != p) } }
    if !ready then refuse s
    else if !s.fuseOk b then refuse (if s.fuseSigner b then t else t.sigRefused)
    else
      let t := (({ t with sec.clearSeq := t.sec.clearSeq + 1 }).raise .secIntStatus 4).fuseBlow b readBackOk
      let t := { t with pwr.fuseResult := if readBackOk then 1 else 3 }
      (if readBackOk then t else t.bump .pwrFuseFailures).raise .pwrIntStatus 5

/-! ### Rails and temperature (R508, R510, R512) -/

/-- ALERT_N is asserted while a condition of R512 below the trip holds or PWR.DISC shows a fault. -/
def State.alert (s : State) : Bool :=
  let p := s.pwr
  p.warned || p.throttled || p.brownout || p.strapUnstable || p.strapChanged || p.pgLimited || p.warmMasked || p.warmStuck || p.chipStuck

/-- Put out one discrete output where it has changed (R368, R509, R512). -/
def State.pinFrom (s : State) (which : Nat) (old new : Bool) : State := if new == old then s else s.emit (.pin which new)

/-- Put out ALERT_N and THERMTRIP_N, and release the fence line, where they have changed since another state. -/
def State.pinsFrom (old s : State) : State :=
  let t := (s.pinFrom 0 old.alert s.alert).pinFrom 1 old.pwr.tripped s.pwr.tripped
  if old.pair.fenced && !s.pair.fenced then t.emit (.pin 2 false) else t

/-- A rail below 92 % of nominal (R508): the recorder is flushed, the side halts, and waits for PWR_GOOD or CHIP_RST_N. -/
def State.brownoutGo (s : State) (hbmRail : Bool) : State :=
  if !s.resettable then s
  else
    let t := { s with pwr.brownout := true, pwr.hbmSupplyHeld := s.pwr.hbmSupplyHeld && !hbmRail }
    let t := ((t.evReason 4 .pwr 0x0D 0 0 []).reservationDone true).evClose.eraseDone
    (State.evFlush t.ev.queue.length t).withdraw

/-- PWR.THERM.warn_c, within 80 to 104. -/
def State.warnC (s : State) : Int := max 80 (min 104 (s.fld .pwrTherm 8 8 : Int))

/-- The hottest sensor reads a temperature in °C (R512). -/
def State.thermal (s : State) (tj : Int) : State :=
  if !s.pwr.pwrGood then s
  else
    let p := s.pwr
    let t := { s with pwr := { p with
      tj := tj, tjPeak := max p.tjPeak tj, warned := s.warnC ≤ tj || (p.warned && s.warnC - 5 < tj), throttled := p.throttled || 105 ≤ tj
      tripped := p.tripped || 115 ≤ tj } }
    let c := (BitVec.ofInt 64 tj).toNat
    let t := if t.pwr.warned && !p.warned then t.evReason 1 .pwr 0x0E 0 0 [c] else t
    let t := if t.pwr.throttled && !p.throttled then t.evReason 1 .pwr 0x0E 0 0 [c] else t
    if t.pwr.tripped && !p.tripped then (t.evReason 4 .pwr 0x0E 0 0 [c]).trayHalt else t

/-- Tj has stayed below 100 °C for 100 ms. -/
def State.throttleClear (s : State) : State := if s.pwr.tj < 100 then { s with pwr.throttled := false } else s

end Sys2Proof.Machine
end

