-- ==== Sys2Proof/Machine/HostRegs.lean ====
section
/-! DEFINITION. Host accesses to registers (R10 to R14, R400, R518): what each register reads, what a write does beside storing its fields,
pairs, and private accesses over I3C (R498). -/
namespace Sys2Proof.Machine

/-! ### What the registers read -/

/-- A flag as a bit of a word. -/
def bitAt (on : Bool) (i : Nat) : Nat := if on then 2 ^ i else 0

/-- Bits of the numbers below `n` for which a condition holds, from bit `lo`. -/
def bitsOf (n lo : Nat) (f : Nat → Bool) : Nat := (((List.range n).filter f).map fun i => 2 ^ (lo + i)).sum

/-- A 32-bit half of a quantity. -/
def loWord (x : Nat) : W32 := BitVec.ofNat 32 x
def hiWord (x : Nat) : W32 := BitVec.ofNat 32 (x / 2 ^ 32)

/-- The job in a slot. -/
def State.slotJob (s : State) (k : Nat) : Option Job := (s.jobs.find? fun e => e.1 == k).map Prod.snd

/-- CAP registers (R418, R419). -/
def State.capLive (s : State) (r : Reg) : W32 :=
  match r with
  | .capFwRelease => if s.pwr.released then s.sec.release else 0
  | .capPciId => BitVec.ofNat 32 (0x7160 * 2 ^ 16 + s.fuse.vendorId.toNat)
  | .capController => BitVec.ofNat 32 (s.pwr.strapsAt.id.toNat * 2 ^ 16 + s.sideNat)
  | .capSerialLo => loWord s.fuse.serial.toNat
  | .capSerialHi => hiWord s.fuse.serial.toNat
  | _ => s.rd r

/-- STR registers (R90 to R96). No flip is in progress between two commands. -/
def State.strLive (s : State) (r : Reg) (i : Nat) : W32 :=
  let of := fun (f : Job → Nat) => loWord (((s.slotJob i).map f).getD 0)
  let hi := fun (f : Job → Nat) => hiWord (((s.slotJob i).map f).getD 0)
  let pin := fun (j : Job) => ((j.strata.pin.map fun t => t.step.toNat).getD 0)
  match r with
  | .strStatus => loWord (s.store.failedStacks.toNat * 2 ^ 16 + bitAt s.store.repair.isSome 2 + bitAt s.store.censusDone 1)
  | .strFreeFrames => loWord (16 * (36800 - s.quotaSum))
  | .strJobState => of fun j =>
      min 255 (j.committed.toNat - j.assayed.toNat) * 2 ^ 24 + j.strata.retained.length * 2 ^ 16 + bitAt (!s.quotaHolds j) 7 +
        bitAt j.overQuota 6 + bitAt (j.allocStall || j.open_.any OpenStep.lagTold) 5 + bitAt j.strata.pin.isSome 4 + bitAt (j.strata.poisonedCount != 0) 3 + 1
  | .strJobQuota => loWord (s.quota i)
  | .strJobUsedMax => of fun j => ((List.range 16).map fun k => s.usage j k).foldl max 0
  | .strJobCommittedLo => of fun j => j.committed.toNat
  | .strJobCommittedHi => hi fun j => j.committed.toNat
  | .strJobAssayedLo => of fun j => j.assayed.toNat
  | .strJobAssayedHi => hi fun j => j.assayed.toNat
  | .strJobPinnedLo => of pin
  | .strJobPinnedHi => hi pin
  | .strJobPoisoned => of fun j => j.strata.poisonedCount
  | _ => s.rd r i

/-- UPD registers (R145 to R147). -/
def State.updLive (s : State) (r : Reg) (i : Nat) : W32 :=
  match r with
  | .updStatus => loWord (bitsOf 16 16 (fun k => (s.slice k).run.isSome && !(s.slice k).stopped) + bitsOf 16 0 fun k => s.fld .updFault 16 8 k != 0)
  | .updKslot => match (s.host.kernels.find? fun e => e.1 == i).map Prod.snd with
    | some b => loWord (2 ^ 31 + bitAt (s.kernelUsed i) 30 + fieldLE b 4 2)
    | none => 0
  | _ => s.rd r i

/-- A SCHEDULE_LOAD is being checked, or waits for its boundary (R173). -/
def State.scheduleBusy (s : State) : Bool := s.host.runs.any fun r => r.opcode == 0x0206

/-- STM registers (R171 to R174). -/
def State.stmLive (s : State) (r : Reg) (i : Nat) : W32 :=
  let a := s.arb i
  let fc := fun (o : Nat) => loWord (((List.range 4).map fun k => a.forecast.getD (o + k) 0 * 256 ^ k).sum)
  match r with
  | .stmStatus => loWord (s.stm.parked.toNat * 2 ^ 24 +
      bitsOf 8 16 (fun k => !(Tbl.get s.stm.buffers [] k).isEmpty || (s.engines k).any fun g => g.begun) + bitAt s.scheduleBusy 0)
  | .stmSeqNext => match s.slotJob (i % 16) with
    | some j => loWord ((((s.engines (i / 16)).find? fun g => g.job == j.id && g.step == j.streaming).map Engine.seqNo).getD 0)
    | none => 0
  | .stmWinOut => loWord ((s.windowOut i + 1023) / 1024)
  | .stmBufUsed => loWord (s.bufUsed i)
  | .stmArbState => loWord (a.masked.toNat * 2 ^ 24 + a.ready.toNat * 2 ^ 16 + a.slot % 4096)
  | .stmArbForecastLo => fc 0
  | .stmArbForecastHi => fc 4
  | _ => s.rd r i

/-- ASY registers (R201 to R205). -/
def State.asyLive (s : State) (r : Reg) (i : Nat) : W32 :=
  let clean := fun (j : Job) => (s.cleanNow j).toNat
  let of := fun (f : Job → Nat) => ((s.slotJob i).map f).getD 0
  match r with
  | .asyStatus => loWord (bitsOf 16 16 (fun k => Tbl.get s.asy.findings 0 k != 0) + bitsOf 2 2 (fun c => s.usable (32 + c) && s.pwr.domOn.getLsbD (32 + c)) +
      bitAt s.asy.withheld 1 + bitAt (!s.asy.samples.isEmpty || !s.asy.taps.isEmpty) 0)
  | .asyQueue => loWord ((s.sampUsed + 1023) / 1024 * 2 ^ 16 + s.fld .asyQueue 0 16)
  | .asyProfile => match (s.host.profiles.find? fun e => e.1 == i).map Prod.snd with
    | some b => loWord (2 ^ 31 + bitAt (s.profileNamed i) 30 + bitAt (fieldLE b 4 1 == 1) 29 + fieldLE b 0 2)
    | none => 0
  | .asyCleanThroughLo => loWord (of clean)
  | .asyCleanThroughHi => hiWord (of clean)
  | .asyFindingStepLo => loWord (Tbl.get s.asy.findings 0 i).toNat
  | .asyFindingStepHi => hiWord (Tbl.get s.asy.findings 0 i).toNat
  | _ => s.rd r i

/-- SPK registers, and the link registers of the pair link, object 8 (R273 to R276). -/
def State.spkLive (s : State) (r : Reg) (p i : Nat) : W32 :=
  let q := s.port p
  match r with
  | .spkStatus => loWord (q.lanesGood.toNat * 2 ^ 16 + q.state.code * 2 ^ 8 + q.widthCode.val * 2 ^ 4 + q.laneGroup.val * 4 + bitAt q.savedUsed 1 +
      bitAt q.up 0)
  | .spkPeer => loWord (q.peerId.toNat * 2 ^ 16 + q.peerProto.toNat * 2 ^ 8 + if p = 8 then 0 else q.peerRev.val)
  | _ => s.rd r (p * r.row.count + i)

/-- TOR registers (R317 to R321). -/
def State.torLive (s : State) (r : Reg) (i : Nat) : W32 :=
  let n := s.neigh i
  let q := s.port (9 + i)
  let t := s.pel i
  match r with
  | .torIdentity => loWord (s.pwr.strapsAt.id.toNat * 2 ^ 16 + match s.tor.position with
      | some p => 2 ^ 15 + p.toNat % 2 ^ 15
      | none => 0)
  | .torDims => loWord (bitAt s.tor.stable 31 + s.dimsWord)
  | .torLandingsOpen => loWord s.tor.landings.length
  | .torPelotonJob => (t.map PelTable.job).getD 0
  | .torPortStatus => loWord (q.lanesGood.toNat % 256 * 2 ^ 24 + bitAt n.alarmUp 23 + s.neighState i * 2 ^ 20 + q.state.code * 2 ^ 12 +
      q.widthCode.val * 2 ^ 8 + q.laneGroup.val % 2 * 2 ^ 5 + bitAt q.savedUsed 4 + bitAt q.up 0)
  | .torNeighbour => loWord (n.physical.toNat * 2 ^ 16 + bitAt n.posValid 15 + n.position.toNat % 2 ^ 15)
  | .torNeighbourPort => loWord (bitAt n.side 3 + n.port.val)
  | .torOptStatus => loWord (n.rxLow.toNat * 2 ^ 16 + n.laserFault.toNat * 2 ^ 8 + bitAt (s.pwr.domOn.getLsbD (48 + i)) 1 +
      bitAt (s.pwr.domOn.getLsbD (48 + i) && s.usable (48 + i)) 0)
  | .torPeloton => match t with
    | some t => loWord (2 ^ 31 + bitAt (s.jobs.vals.any fun j => j.phase == .running && (j.pelSlot == i || j.coverSlot == some i)) 30 + t.kind % 4 * 2 ^ 28 +
        t.members.length)
    | none => 0
  | .torPelotonGen => loWord ((t.map fun t => t.gen.toNat).getD 0)
  | _ => s.rd r i

/-- PAIR registers (R377, R378). -/
def State.pairLive (s : State) (r : Reg) : W32 :=
  let p := s.pair
  match r with
  | .pairRole => loWord ((s.port 8).peerId.toNat * 2 ^ 16 + bitAt s.sideB 7 + bitAt p.partnerFailed 6 + bitAt p.hbSide 5 + bitAt p.hbPair 4 +
      bitAt p.switching.isSome 3 + p.role.code)
  | .pairRejoinBytesLo => loWord p.rejoinBytes
  | .pairRejoinBytesHi => hiWord p.rejoinBytes
  | _ => s.rd r

/-- TMU registers (R436 to R438). -/
def State.tmuLive (s : State) (r : Reg) (i : Nat) : W32 :=
  match r with
  | .tmuStatus => loWord (bitAt (s.tmu.resid != 0) 5 + s.fld .tmuCtrl 0 1 * 16 + bitsOf 2 2 (fun d => (s.dom d).locked) + bitsOf 2 0 fun d => (s.dom d).valid)
  | .tmuDomainCtrl => loWord (bitAt (s.dom i).locked 0)
  | _ => s.rd r i

/-- The record that EVR.READ_SEQ shows: the open record with its current repeats, or 128 zero bytes (R486). -/
def State.evShown (s : State) : List Byte :=
  let n := (s.rd .evrReadSeq).toNat
  let opens := (s.ev.openRec.map Prod.fst).toList
  if n < s.ev.headSeq || s.ev.nextSeq ≤ n then List.replicate 128 0
  else match (s.ev.nor ++ s.ev.queue ++ opens).find? fun r => r.seqNo == n with
    | some r => r.bytes
    | none => List.replicate 128 0

/-- A byte of the Wilost area; bytes that a record no longer holds read 0 (R487). -/
def State.wilostByte (s : State) (a : Nat) : Byte :=
  match s.ev.wilost.find? fun e => (a + 2 ^ 25 - e.1 % 2 ^ 25) % 2 ^ 25 < e.2.length with
  | some e => e.2.getD ((a + 2 ^ 25 - e.1 % 2 ^ 25) % 2 ^ 25) 0
  | none => 0

/-- EVR registers (R499, R500). -/
def State.evrLive (s : State) (r : Reg) (i : Nat) : W32 :=
  match r with
  | .evrStatus => loWord (s.ev.queue.length * 2 ^ 16 + bitAt s.ev.openRec.isSome 1 + bitAt s.ev.clearing 0)
  | .evrHeadSeq => loWord s.ev.headSeq
  | .evrNextSeq => loWord s.ev.nextSeq
  | .evrPowerCycles => loWord s.ev.cycles
  | .evrOpMsLo => loWord s.opMs
  | .evrOpMsHi => hiWord s.opMs
  | .evrWilostUsed => loWord (((s.ev.wilost.map fun e => e.2.length).sum + 1023) / 1024)
  | .evrRecord => loWord (fieldLE s.evShown (4 * i) 4)
  | .evrWilost =>
    let a := (s.rd .evrWilostSel).toNat / 4 * 4 + 4 * i
    loWord (((List.range 4).map fun k => (s.wilostByte ((a + k) % 2 ^ 25)).toNat * 256 ^ k).sum)
  | _ => s.rd r i

/-- SEC registers (R456, R457). -/
def State.secLive (s : State) (r : Reg) (i : Nat) : W32 :=
  let x := s.sec
  let meas := fun (d : Digest) => loWord (d.toNat / 2 ^ (32 * (i % 8)))
  match r with
  | .secStatus => loWord (bitsOf 6 16 s.keyValid + x.bootResult.val * 2 ^ 12 + bitAt x.bootBank 11 + bitAt x.staged 10 + bitAt x.recovery 9 +
      bitAt x.keyNo.isSome 8 + bitAt (!x.mailbox.isEmpty || x.reserving) 7)
  | .secIdIndexLo => loWord x.nextIndex
  | .secIdIndexHi => hiWord x.nextIndex
  | .secReservedEndLo => loWord x.reservedEnd
  | .secReservedEndHi => hiWord x.reservedEnd
  | .secClearSeq => loWord x.clearSeq
  | .secSvnMin => loWord s.fuse.svnMin
  | .secMeas => meas (if i < 8 then x.m0 else if i < 16 then x.m1 else x.m2)
  | .secIdPubkey => if s.pwr.released then Config.devicePublicKey i else 0
  | .secKeyHash => meas (s.fuse.keyHash.getD (i / 8) 0)
  | _ => s.rd r i

/-- PWR registers (R475 to R478, R513). -/
def State.pwrLive (s : State) (r : Reg) (i : Nat) : W32 :=
  let p := s.pwr
  match r with
  | .pwrStatus => loWord s.pwrStatus
  | .pwrDomainOnLo => loWord p.domOn.toNat
  | .pwrDomainOnHi => hiWord p.domOn.toNat
  | .pwrStartCount => p.startCount
  | .pwrStartTime => loWord p.startUs
  | .pwrHbmRate => p.hbmSlow.setWidth 32
  | .pwrDisc => loWord (bitAt p.brownout 7 + bitAt p.strapUnstable 6 + bitAt p.strapChanged 5 + bitAt p.pgLimited 4 + bitAt p.warmMasked 3 +
      bitAt p.warmStuck 2 + bitAt p.chipStuck 1 + bitAt s.alert 0)
  | .pwrTherm => loWord ((BitVec.ofInt 8 p.tj).toNat * 2 ^ 24 + (BitVec.ofInt 8 p.tjPeak).toNat * 2 ^ 16 + s.fld .pwrTherm 8 8 * 2 ^ 8 +
      bitAt p.tripped 1 + bitAt p.throttled 0)
  | .pwrFloor =>
    let fuse := !s.fuse.unitBad.getLsbD i
    let bist := p.bistGood.getLsbD i
    loWord (p.bistCode.getD i 0 % 256 * 2 ^ 8 + bitAt (fuse != bist) 3 + bitAt bist 2 + bitAt fuse 1 + bitAt (fuse && bist) 0)
  | _ => s.rd r i

/-- DBG registers (R491, R502): the facilities of this side read their control bits back. -/
def State.dbgLive (s : State) (r : Reg) : W32 :=
  let e := s.ev
  let fac := e.facilities.toNat / 4 % 4 * 4 + e.facilities.toNat / 32 * 32 + s.fld .updCtrl 0 1 + bitAt e.tracing 1 + s.fld .strCtrl 1 1 * 16
  match r with
  | .dbgStatus => loWord (bitAt e.traceStopped 2 + bitAt e.traceWrapped 1 + bitAt e.tracing 0)
  | .dbgFacilitiesLo => loWord fac
  | .dbgFacilitiesHi => hiWord fac
  | .dbgTraceBytesLo => loWord e.traceBytes
  | .dbgTraceBytesHi => hiWord e.traceBytes
  | _ => s.rd r

/-- HST registers (R420, R421). -/
def State.hstLive (s : State) (r : Reg) : W32 :=
  let h := s.host
  let wins := bitsOf 64 0 fun w => (s.window? w).isSome
  match r with
  | .hstStatus => loWord (s.pair.role.code * 2 ^ 8 + bitAt (!h.linkOk) 7 + h.linkWidth % 8 * 2 ^ 4 + h.linkRate % 8 * 2 + bitAt (!h.cqQueue.isEmpty || !s.cqRoom) 0)
  | .hstIdFloorLo => loWord h.idFloor.toNat
  | .hstIdFloorHi => hiWord h.idFloor.toNat
  | .hstJournalSeqLo => loWord h.nextSeq
  | .hstJournalSeqHi => hiWord h.nextSeq
  | .hstWindowsLo => loWord wins
  | .hstWindowsHi => hiWord wins
  | _ => s.rd r

/-- The word that a register of an object reads, before its WO fields are masked: object `o` of its view, entry `i` of its array. -/
def State.live (s : State) (r : Reg) (o i : Nat) : W32 :=
  let k := o * r.row.count + i
  match r.row.blk with
  | .cap => s.capLive r
  | .str => s.strLive r k
  | .upd => s.updLive r k
  | .stm => s.stmLive r k
  | .asy => s.asyLive r k
  | .spk => s.spkLive r o i
  | .tor => s.torLive r k
  | .pair => s.pairLive r
  | .tmu => s.tmuLive r k
  | .evr => s.evrLive r k
  | .sec => s.secLive r k
  | .pwr => s.pwrLive r k
  | .sbb => match r with
    | .sbbInfo => s.rd r ||| BitVec.ofNat 32 s.drop
    | .sbbPresence => s.side.presence.setWidth 32
    | _ => s.rd r
  | .dbg => s.dbgLive r
  | .hst => s.hstLive r
  | .brx => s.brxReg r i

/-! ### Where a register lies (R400, R518) -/

/-- The object that a view shows; none where the selection shows nothing and reads 0. -/
def State.viewObj (s : State) (v : View) (link : Nat) : Option Nat :=
  let sel := fun (r : Reg) (lo w n : Nat) => if s.fld r lo w < n then some (s.fld r lo w) else none
  match v with
  | .none => some 0
  | .hop => sel .strHopSel 0 3 5
  | .strJob => sel .strJobSel 0 4 16
  | .slice => sel .updSliceSel 0 4 16
  | .stmSpoke => sel .stmSel 0 3 8
  | .stmSpokeJob => some (s.fld .stmSel 0 3 * 16 + s.fld .stmSel 8 4)
  | .stmArb => sel .stmSel 16 5 24
  | .asySite => sel .asySel 0 3 8
  | .asyJob => sel .asySel 4 4 16
  | .asyProfile => sel .asySel 8 6 64
  | .torPort => sel .torSel 0 3 6
  | .torPeloton => sel .torSel 8 6 64
  | .link => some link

/-- The block of a BAR0 offset, the offset within it, and the link that its copy belongs to. -/
def barBlock (off : Nat) : Option (Blk × Nat × Nat) :=
  let b := off / 65536
  let o := off % 65536
  match b with
  | 0 => some (.cap, o, 0)
  | 2 => some (.str, o, 0)
  | 4 => some (.upd, o, 0)
  | 6 => some (.stm, o, 0)
  | 8 => some (.asy, o, 0)
  | 10 => some (.spk, o % 8192, o / 8192)
  | 12 => some (.tor, o, 0)
  | 13 => some (if o < 256 then (.spk, o, 8) else (.pair, o, 0))
  | 14 => some (.tmu, o, 0)
  | 15 => some (.evr, o, 0)
  | 16 => some (.sec, o, 0)
  | 17 => some (.pwr, o, 0)
  | 18 => some (.sbb, o, 0)
  | 19 => some (.dbg, o, 0)
  | 20 => some (.hst, o, 0)
  | _ => none

/-- A block answers: before the control complex is released only CAP, SEC and PWR, and EVR after three failed starts (R461, R465). -/
def State.blockUp (s : State) (b : Blk) : Bool :=
  s.pwr.released || b == .cap || b == .sec || b == .pwr || (b == .evr && s.pwr.startHalted)

/-- The register at a BAR0 offset: its name, the object that it shows and its place in its array. -/
def State.regAt (s : State) (off : Nat) : Option (Reg × Nat × Nat) :=
  if off % 4 != 0 then none
  else match barBlock off with
    | none => none
    | some (b, o, link) =>
      if !s.blockUp b then none
      else match findReg (Reg.ofBlk b) o with
        | none => none
        | some (r, i) => (s.viewObj r.row.view link).map fun obj => (r, obj, i)

/-! ### Reads (R11, R12) -/

/-- The value that a read returns, and its effect on RC fields. -/
def State.regRead (s : State) (r : Reg) (o i : Nat) : W32 × State :=
  let v := s.live r o i &&& ~~~(BitVec.ofNat 32 (r.row.maskOf .wo))
  let k := o * r.row.count + i
  if r.row.maskOf .rc = 0 then (v, s)
  else if r = .pwrTherm then (v, { s with pwr.tjPeak := 0 })
  else (v, s.wr r (readWord r (s.rd r k)) k)

/-- The word of the MSI-X table that a BAR0 offset names (R417). -/
def msixWord (off : Nat) : Option Nat :=
  if off % 4 = 0 ∧ 0x148000 ≤ off ∧ off < 0x148400 then some ((off - 0x148000) / 4) else none

/-- What the MSI-X table and the pending-bit array read (R417); 0 elsewhere, and while the HST block does not answer. -/
def State.msixRead (s : State) (off : Nat) : W32 :=
  if !s.blockUp .hst then 0
  else match msixWord off with
    | some i => Tbl.get s.host.msixTable 0 i
    | none => if off = 0x149000 then loWord s.host.msixPending.toNat else if off = 0x149004 then hiWord s.host.msixPending.toNat else 0

/-- A write of the MSI-X table (R417): a vector that is no longer masked raises the message that was pending. -/
def State.msixWrite (s : State) (off : Nat) (w : W32) : State :=
  match (if s.blockUp .hst then msixWord off else none) with
  | none => s
  | some i =>
    let t := { s with host.msixTable := Tbl.set s.host.msixTable i w }
    let v := i / 4
    if i % 4 = 3 && !w.getLsbD 0 && s.host.msixPending.getLsbD v then
      ({ t with host.msixPending := t.host.msixPending &&& ~~~(BitVec.ofNat 64 (2 ^ v)) }).vector v
    else t

/-- A 4-byte read of a BAR0 offset (R11 rules 2, 7 and 8). -/
def State.barRead (s : State) (off : Nat) : W32 × State :=
  match s.regAt off with
  | none => (s.msixRead off, s)
  | some (r, o, i) =>
    match r.hi?, r.lo? with
    | some h, _ =>
      let (v, t) := s.regRead r o i
      (v, { t with shadow := Tbl.set t.shadow off (t.live h o i) })
    | _, some _ =>
      if Tbl.has s.shadow (off - 4) then (Tbl.get s.shadow 0 (off - 4), { s with shadow := Tbl.erase s.shadow (off - 4) })
      else s.regRead r o i
    | none, none => s.regRead r o i

/-- A 4-byte read whose answer leaves: of BAR0, or on the local side of the Bruix window (R245). -/
def State.hostRead (s : State) (site : Bool) (off : Nat) : State :=
  let (v, t) := if site then s.brxRead off else s.barRead off
  t.emit (.readData (leBytes 4 v.toNat))

/-! ### Writes (R10 to R13) -/

/-- The INT_STATUS register of an INT_ENABLE register. -/
def Reg.status? (r : Reg) : Option Reg :=
  ([.strIntStatus, .updIntStatus, .stmIntStatus, .asyIntStatus, .spkIntStatus, .torIntStatus, .pairIntStatus, .tmuIntStatus, .evrIntStatus,
    .secIntStatus, .pwrIntStatus, .sbbIntStatus, .dbgIntStatus, .hstIntStatus] : List Reg).find? fun x => x.enable == r

/-- Interrupts that an INT_ENABLE write lets through: bits already set in the status register (R417). -/
def State.enabled (s : State) (r : Reg) (o : Nat) (old : W32) : State :=
  match r.status? with
  | none => s
  | some st =>
    let now := s.rd r o &&& ~~~old &&& s.rd st o
    ((List.range 32).filter fun b => now.getLsbD b).foldl (fun (t : State) b => match intVector st o b with
      | some v => t.vector v
      | none => t) s

/-- Clearing UPD.INT_STATUS.kernel_fault clears the fault registers of every slice (R148). -/
def State.updFaultClear (s : State) : State :=
  { s with regs := s.regs.filter fun (e : Nat × W32) => !keyIn [.updFault, .updFaultPc] e.1 }

/-- PWR.RESET is written: the larger scope goes first (R466, R477). -/
def State.resetWrite (s : State) (v : W32) : State :=
  let s := if v.getLsbD 31 then s.resetCold else s
  let s := if v.getLsbD 30 then s.resetWarm else s
  let s := if v.getLsbD 29 then s.resetPartition else s
  let s := if v.getLsbD 28 then s.resetCluster (v.toNat % 128) else s
  s.resetCores (BitVec.ofNat 8 (v.toNat / 256))

/-- Store a written word in the fields that take it (R12). -/
def State.keep (s : State) (r : Reg) (k : Nat) (locked : Bool) (v : W32) : State := s.wr r (writeWord r locked (s.rd r k) v) k

/-- A write of a register of an object. HST.BDR_RETURN and PWR.FUSE_CTRL act through their own commands, which carry what the write alone
does not. -/
def State.regWrite (s : State) (r : Reg) (o i : Nat) (v : W32) : State :=
  let k := o * r.row.count + i
  match r with
  | .spkCtrl =>
    let t := s.keep r k false (putField v 0 1 (s.fld r 0 1 k))
    if s.fld r 0 1 k = v.toNat % 2 then t else t.disableWrite o (v.getLsbD 0)
  | .stmArbQuota => s.quotaWrite o i v
  | .asyQueue => (s.keep r k false v).sampCredits
  | .torCtrl => s.wr r (writeWord r false (s.rd r) v ||| (s.rd r &&& 1#32))
  | .torPodId => (s.keep r k (s.fld .torCtrl 0 1 = 1) v).surveyAll
  | .tmuCtrl => (s.keep r k false (putField v 0 1 (s.fld r 0 1))).selectWrite (v.toNat % 2)
  | .tmuCapture => if v = 1 then s.tmuCapture else s
  | .tmuFreqAdj => s.freqWrite i v
  | .tmuDomainCtrl => s.domainCtrl i v
  | .tmuStepHi => s.stepWrite i (BitVec.ofNat 64 (v.toNat * 2 ^ 32))
  | .secCtrl =>
    let t := if v.getLsbD 0 then s.recoveryGo else s
    if v.getLsbD 1 then t.svnCommit else t
  | .pwrReset => s.resetWrite v
  | .pwrDomainReqLo => s.domainReq (BitVec.ofNat 64 (v.toNat + (s.rd .pwrDomainReqHi).toNat * 2 ^ 32))
  | .pwrDomainReqHi => s.domainReq (BitVec.ofNat 64 ((s.rd .pwrDomainReqLo).toNat + v.toNat * 2 ^ 32))
  | .pwrCalCtrl => if v.getLsbD 0 then s.calSave else s
  | .hstCtrl => s.cqEnable v
  | .hstCqHead => s.cqHead v
  | .updIntStatus => let t := s.keep r k false v
    if v.getLsbD 2 then t.updFaultClear else t
  | _ => (s.keep r k false v).enabled r k (s.rd r k)

/-- Both halves of a pair take effect together (R11). -/
def State.pairWrite (s : State) (r h : Reg) (o i : Nat) (lo hi : W32) : State :=
  match r with
  | .tmuStepLo => s.stepWrite i (BitVec.ofNat 64 (lo.toNat + hi.toNat * 2 ^ 32))
  | .pwrDomainReqLo => s.domainReq (BitVec.ofNat 64 (lo.toNat + hi.toNat * 2 ^ 32))
  | _ => (s.regWrite r o i lo).regWrite h o i hi

/-- A 4-byte write of a BAR0 offset (R11 rules 3, 7 and 8). -/
def State.barWrite (s : State) (off : Nat) (v : W32) : State :=
  match s.regAt off with
  | none => s.msixWrite off v
  | some (r, o, i) =>
    match r.hi?, r.lo? with
    | some _, _ => { s with heldLo := Tbl.set s.heldLo off v }
    | _, some l =>
      if Tbl.has s.heldLo (off - 4) then
        ({ s with heldLo := Tbl.erase s.heldLo (off - 4) }).pairWrite l r o i (Tbl.get s.heldLo 0 (off - 4)) v
      else s.regWrite r o i v
    | none, none => s.regWrite r o i v

/-- A 4-byte write of BAR0, or on the local side of the Bruix window (R245). -/
def State.hostWrite (s : State) (site : Bool) (off : Nat) (v : W32) : State :=
  if site then s.brxWrite off v true else s.barWrite off v

/-- An 8-byte access (R11 rules 4, 5 and 7): atomic at the offset of a pair, otherwise two 4-byte accesses, the lower first. -/
def State.bar8 (s : State) (off : Nat) (w : Option W64) : State :=
  let out := fun (t : State) (a b : W32) => t.emit (.readData (leBytes 4 a.toNat ++ leBytes 4 b.toNat))
  if off % 4 != 0 then
    match w with
    | some _ => s
    | none => out s 0 0
  else
    match s.regAt off, w with
    | some (r, o, i), none =>
      (match r.hi? with
      | some h => out s (s.live r o i &&& ~~~(BitVec.ofNat 32 (r.row.maskOf .wo))) (s.live h o i &&& ~~~(BitVec.ofNat 32 (h.row.maskOf .wo)))
      | none =>
        let (a, t) := s.barRead off
        let (b, t) := t.barRead (off + 4)
        out t a b)
    | some (r, o, i), some v =>
      (match r.hi? with
      | some h => ({ s with heldLo := Tbl.erase s.heldLo off }).pairWrite r h o i (v.setWidth 32) ((v >>> 32).setWidth 32)
      | none => (s.barWrite off (v.setWidth 32)).barWrite (off + 4) ((v >>> 32).setWidth 32))
    | none, none =>
      let (a, t) := s.barRead off
      let (b, t) := t.barRead (off + 4)
      out t a b
    | none, some v => (s.barWrite off (v.setWidth 32)).barWrite (off + 4) ((v >>> 32).setWidth 32)

/-- An 8-byte access on the local side of the Bruix window: a pair reads at once, anything else is two accesses; no pair there is
writable. -/
def State.brx8 (s : State) (off : Nat) (w : Option W64) : State :=
  match w with
  | some v => if off % 4 != 0 then s else (s.brxWrite off (v.setWidth 32) true).brxWrite (off + 4) ((v >>> 32).setWidth 32) true
  | none =>
    match (if off % 4 = 0 then findReg Reg.ofBrx off else none) with
    | some (.brxCursorLo, i) =>
      s.emit (.readData (leBytes 4 (s.brxReg .brxCursorLo i).toNat ++ leBytes 4 (s.brxReg .brxCursorHi i).toNat))
    | _ =>
      if off % 4 != 0 then s.emit (.readData (List.replicate 8 0))
      else
        let (a, t) := s.brxRead off
        let (b, t) := t.brxRead (off + 4)
        t.emit (.readData (leBytes 4 a.toNat ++ leBytes 4 b.toNat))

/-- An 8-byte access of either window. -/
def State.host8 (s : State) (site : Bool) (off : Nat) (w : Option W64) : State := if site then s.brx8 off w else s.bar8 off w

/-! ### I3C (R498) -/

/-- One word at the set offset, which moves on: blocks but CAP, PWR and EVR read 0. -/
def State.i3cWord (s : State) : W32 × State :=
  let off := s.side.i3cOffset.toNat
  let b := off / 65536
  let (v, t) := if b = 0 || b = 15 || b = 17 then
      match s.regAt off with
      | some (r, o, i) => s.regRead r o i
      | none => (0, s)
    else (0, s)
  (v, { t with side.i3cOffset := s.side.i3cOffset + 4 })

def State.i3cWords : Nat → List Byte → State → List Byte × State
  | 0, l, s => (l, s)
  | n + 1, l, s =>
    let (v, t) := s.i3cWord
    State.i3cWords n (l ++ leBytes 4 v.toNat) t

/-- A private read of some words. -/
def State.i3cRead (s : State) (n : Nat) : State :=
  if s.side.i3cAddr.isNone then s
  else
    let (l, t) := State.i3cWords n [] s
    t.emit (.i3c l)

end Sys2Proof.Machine
end

