-- ==== Sys2Proof/Machine/Run.lean ====
section
/-! DEFINITION. How a meaning answers. Every command has an effect in every state, so each answer is a next state. The Bruix block is a
chip of its own: a command of the controller leaves it alone, and a command of the block touches the controller nowhere but on the
wires between them, which the ports and the outbox hold (R208, R210, log entry 1). -/
namespace Sys2Proof.Machine

/-- What a meaning answers. -/
abbrev Answer := Host.Outcome State Fault Refusal

/-- A state with the queue and the Bruix block put back. -/
def State.keeping (t s : State) (b : Brx) : State := { t with pending := s.pending, brx := b }

/-- A command of the controller that leaves nothing else due. -/
def plain (s t : State) : Answer := .next (t.keeping s s.brx)

/-- What an effect leaves due. The time base, power, the fuses and half-made register accesses are no part of it. -/
def State.due (s t : State) : State :=
  { State.settled s t with tmu := t.tmu, pwr := t.pwr, fuse := t.fuse, now := t.now, shadow := t.shadow, heldLo := t.heldLo }

/-- A command of the controller, with what it leaves due. -/
def ctl (s t : State) : Answer := .next ((s.due t).keeping s s.brx)

/-- The same, with the discrete outputs that change (R510, R512). -/
def pow (s t : State) : Answer := .next ((State.pinsFrom s (s.due t)).keeping s s.brx)

/-- BRX_INT_N is asserted: a bit is set in both registers (R250). -/
def State.brxInt (s : State) : Bool := (s.rd .brxIntStatus &&& s.rd .brxIntEnable) != 0

/-- BRX_INT_N follows its level (R250). -/
def State.brxPin (s t : State) : State := if s.brxInt == t.brxInt then t else t.emit (.pin 3 t.brxInt)

/-- A read of a register, on either chip. -/
def look (s t : State) : Answer := .next ((State.brxPin s t).keeping s t.brx)

/-- A write of a register, on either chip. -/
def poke (s t : State) : Answer := .next ((State.brxPin s (State.pinsFrom s (s.due t))).keeping s t.brx)

/-- An event of a link, at the controller's end or at the Bruix block's. -/
def link (s t : State) : Answer := .next ((State.brxPin s (s.due t)).keeping s t.brx)

/-- A command of the Bruix block. -/
def site (s t : State) : Answer :=
  .next { s with brx := t.brx, regs := t.regs, shadow := t.shadow, heldLo := t.heldLo, ports := t.ports
                 outbox := (State.brxPin s t).outbox, fresh := t.fresh }

/-- One nanosecond passes (R422, R492, log entry 8). -/
def State.tick (s : State) : State := ((s.elapse 1).traceTick).keeping s s.brx

end Sys2Proof.Machine
end

