-- ==== Sys2Proof/Machine/ExecAssay.lean ====
section
/-! DEFINITION. Meanings: the assay (R176 to R200). -/
namespace Sys2Proof.Machine

/-- SAMPLE_RECORD_RX (R182): A sample record arrives, is queued or treated as malformed, and credits are withheld above the
high-water mark. -/
def execSampleRecordRx (site : Fin 8) (p : Packet) (s : State) : Answer := ctl s (s.sampleRx site.val p)

/-- TAP_REPORT_RX (R189): A checksum tap report arrives and is queued for ABFT. -/
def execTapReportRx (site : Fin 8) (p : Packet) (s : State) : Answer := ctl s (s.tapRx site.val p)

/-- SIGNATURE_RX (R192): A contribution signature arrives and is kept for judging at commit. -/
def execSignatureRx (site : Fin 8) (p : Packet) (s : State) : Answer := ctl s (s.signatureRx site.val p)

/-- LOCALISATION_LEVEL (R191): One level of node digests is exchanged in a root-mismatch descent. -/
def execLocalisationLevel (d : NodeDigests) (s : State) : Answer := ctl s (s.localise d.holder.toNat d.digests)

/-- SAMPLE_CHECK_DONE (R185): An assay cluster finishes recomputing a sample and judges it. -/
def execSampleCheckDone (s : State) : Answer := ctl s s.sampleDone

/-- ABFT_CHECK_DONE (R189): An ABFT check completes and the report passes, fails or waits for the non-finite count. -/
def execAbftCheckDone (s : State) : Answer := ctl s s.abftDone

end Sys2Proof.Machine
end

