-- ==== Sys2Proof/Machine/ExecBedrock.lean ====
section
/-! DEFINITION. Meanings: bedrock checkpoints (R381 to R395). -/
namespace Sys2Proof.Machine

/-- BEDROCK_CHUNK_WRITE (R387): A writer writes a chunk into a free slot and posts a completion entry. -/
def execBedrockChunkWrite (job : W32) (s : State) : Answer := ctl s (s.chunkWrite job)

/-- MEMBER_REPORT (R389): The root receives a member report and seals the manifest when all are in. -/
def execMemberReport (job : W32) (bid : W64) (report : List Byte) (s : State) : Answer :=
  ctl s (s.memberReportRx job bid report)

/-- BEDROCK_SEALED (R389): A member receives SEALED and makes the UNPIN flip. -/
def execBedrockSealed (job : W32) (bid : W64) (s : State) : Answer := ctl s (s.sealedRx job bid)

/-- ABANDON (R392): A member receives ABANDON and unpins. -/
def execAbandon (job : W32) (bid : W64) (code : W16) (detail : W16) (s : State) : Answer :=
  ctl s (s.abandonRx job bid code.toNat detail.toNat)

/-- BEDROCK_TIMEOUT (R392): A report or slot is missing at the timeout; the bedrock is abandoned. -/
def execBedrockTimeout (job : W32) (s : State) : Answer := ctl s (s.bedTimeout job)

/-- FAILURE_WARNING_REPORT (R384): The root receives a failure warning and starts an auto-bedrock if armed. -/
def execFailureWarningReport (job : W32) (s : State) : Answer := ctl s (s.warningRx job)

end Sys2Proof.Machine
end

