-- ==== Sys2Proof/Machine/ExecBruix.lean ====
section
/-! DEFINITION. Meanings: the Bruix block (R208 to R243). -/
namespace Sys2Proof.Machine

/-- ADMIT (R218): Bruix block admits the site to a job and answers with the capability table and RECEIVED_THROUGH. -/
def execAdmitSite (port : Fin 2) (m : CtlMsg) (s : State) : Answer := site s (s.brxAdmit port m)

/-- TAG_OPEN (R223): Bruix block opens a tag in the open-tag set. -/
def execTagOpen (port : Fin 2) (m : CtlMsg) (s : State) : Answer := site s (s.brxTagOpen port m)

/-- TAG_CLOSE (R225): Bruix block closes the named tags, injects markers, purges, rewinds and restores. -/
def execTagClose (port : Fin 2) (m : CtlMsg) (s : State) : Answer := site s (s.brxTagClose port m)

/-- TAG_COMMIT (R223): Bruix block retires the older tag after its commit. -/
def execTagCommit (port : Fin 2) (m : CtlMsg) (s : State) : Answer := site s (s.brxTagCommit port m)

/-- DIRECTIVE (R178): Bruix block keeps the first sampling directive for a step, or answers MALFORMED. -/
def execDirective (port : Fin 2) (m : CtlMsg) (s : State) : Answer := site s (s.brxDirective port m)

/-- RESET_DOMAIN (R228): Bruix block increments the generation and asserts domain resets. -/
def execResetDomain (port : Fin 2) (m : CtlMsg) (s : State) : Answer := site s (s.brxResetDomain port m)

/-- ROUTE_STAGE (R243): Bruix block writes entries into the inactive route bank and cancels any pending swap. -/
def execRouteStage (port : Fin 2) (m : CtlMsg) (s : State) : Answer := site s (s.brxRouteStage port m)

/-- ROUTE_COMMIT (R243): Bruix block checks the staged digest and marks a swap pending or swaps at once. -/
def execRouteCommit (port : Fin 2) (m : CtlMsg) (s : State) : Answer := site s (s.brxRouteCommit port m)

/-- FREEZE (R242): Bruix block asserts BRX_FREEZE and collects a freeze frame. -/
def execFreeze (port : Fin 2) (m : CtlMsg) (s : State) : Answer := site s (s.brxFreezeCmd port m)

/-- REG_READ (R214): Bruix block answers a register read with REG_DATA. -/
def execRegRead (port : Fin 2) (m : CtlMsg) (s : State) : Answer := site s (s.brxRegRead port m)

/-- REG_WRITE (R214): Bruix block writes a register and acknowledges with the resulting value. -/
def execRegWrite (port : Fin 2) (m : CtlMsg) (s : State) : Answer := site s (s.brxRegWrite port m)

/-- LEAVE (R218): Bruix block closes both tags, disables watchdogs and clears the job. -/
def execLeave (port : Fin 2) (m : CtlMsg) (s : State) : Answer := site s (s.brxLeave port m)

/-- STREAM_PACKET_ARRIVAL (R219): Bruix block checks, deduplicates and writes a stream packet into the window ring. -/
def execStreamPacketArrival (p : Packet) (s : State) : Answer := site s (s.brxStream p)

/-- CONSUME (R222): Accelerator returns a consume; ring space is freed and WINDOW_RELEASE sent. -/
def execConsume (entry : W32) (tag : Byte) (s : State) : Answer := site s (s.brxConsume entry tag)

/-- GRADIENT_SLICE (R236): Accelerator submits a gradient slice descriptor, checked at the gate. -/
def execGradientSlice (d : GradSlice) (s : State) : Answer := site s (s.brxSlice d)

/-- GRADIENT_PACKET_TX (R236): Bruix block sends a gradient packet read by DMA on both ports. -/
def execGradientPacketTx (scales : List Byte) (elems : List Nat) (s : State) : Answer := site s (s.brxGradTx scales elems)

/-- TAP_ELEMENT (R238): Accelerator presents matmul elements at the tap port, opening or closing a tap. -/
def execTapElement (d : TapData) (cRow : Bool) (scales : List Byte) (elems : List Nat) (s : State) : Answer :=
  site s (s.brxTap d cRow scales elems)

/-- TILE_SELECT (R239): Accelerator asks whether a tile is selected for sampling. -/
def execTileSelect (a : TileAsk) (s : State) : Answer := site s (s.tileSelect a.temp a.desc)

/-- SAMPLE_CAPTURE_DONE (R240): A selected tile's record is complete and is sent, or dropped at source. -/
def execSampleCaptureDone (index : Nat) (payload : List Byte) (s : State) : Answer := site s (s.captureDone index payload)

/-- SAMPLE_CAPTURE_TIMEOUT (R240): A capture is not complete within the hang interval and the sample is dropped. -/
def execSampleCaptureTimeout (index : Nat) (s : State) : Answer := site s (s.captureLate index)

/-- LEASE (R234): Accelerator requests random-stream draws; granted or refused. -/
def execLease (tag : Byte) (stream : W16) (count : W32) (s : State) : Answer := site s (s.lease tag stream count)

/-- CURSOR_ADVANCE (R235): Accelerator advances a feed cursor; applied, queued or refused. -/
def execCursorAdvance (tag : Byte) (feed : Fin 4) (index : W64) (s : State) : Answer := site s (s.cursorAdvance tag feed index)

/-- STEP_DONE (R241): Accelerator signals the end of a step attempt; cursor snapshots are taken. -/
def execStepDone (tag : Byte) (s : State) : Answer := site s (s.stepDone tag)

/-- STEP_REPORT_TX (R241): Bruix block sends STEP_REPORT once every outbound item of the tag is in a replay buffer. -/
def execStepReportTx (tag : Byte) (s : State) : Answer := site s (s.stepReportTx tag)

/-- PROGRESS_PULSE (R229): A pulse on BRX_PROGRESS restarts a watchdog's count. -/
def execProgressPulse (k : Fin 16) (s : State) : Answer := site s (s.progressPulse k)

/-- WATCHDOG_EXPIRY (R230): An armed watchdog expires; a hang is declared with alarm, tag closure and HANG. -/
def execWatchdogExpiry (k : Fin 16) (s : State) : Answer := site s (s.watchdogExpiry k)

/-- ABORT_MARKER_RX (R232): Bruix block receives an abort marker and closes tags, relays and reports ABORT_SEEN. -/
def execAbortMarkerRx (fabricPort : Fin 16) (m : Marker) (s : State) : Answer := site s (s.markerRx fabricPort m)

/-- FABRIC_TRANSFER_GATE (R224): An inbound fabric transfer is delivered or dropped by its tag. -/
def execFabricTransferGate (tag : Byte) (s : State) : Answer := site s (s.fabricGate tag)

/-- ABORT_DONE (R225): BRX_ABORT_DONE is asserted; the TAG_CLOSE completes with DONE if the fabric lifetime has passed. -/
def execAbortDone (newer : Bool) (s : State) : Answer := site s (s.abortDone newer)

/-- DOM_READY (R228): A domain signals ready; when all are ready, RESET_DOMAIN completes DONE. -/
def execDomReady (domain : Fin 16) (s : State) : Answer := site s (s.domReady domain)

/-- ROUTE_LOOKUP (R243): The router reads one entry of the active bank. -/
def execRouteLookup (index : W16) (s : State) : Answer := site s (s.routeLookup index)

/-- FREEZE_CAPTURE_DONE (R242): All freeze points are collected and the frame is held. -/
def execFreezeCaptureDone (points : List Byte) (s : State) : Answer := site s (s.freezeCaptured points)

/-- END_OF_SLICE_TX (R237): Bruix block sends the end-of-slice marker once taps are sent, then the signature. -/
def execEndOfSliceTx (s : State) : Answer := site s s.brxEndOfSlice

/-- FABRIC_LIFETIME_ELAPSED (R226): The fabric lifetime since the closure elapses; the TAG_CLOSE completes if abort is done. -/
def execFabricLifetimeElapsed (s : State) : Answer := site s s.lifetimeElapsed

/-- ABORT_INCOMPLETE (R225): BRX_ABORT_DONE is not asserted within the hang interval; ABORT_INCOMPLETE and a hang. -/
def execAbortIncomplete (s : State) : Answer := site s s.abortIncomplete

/-- DOMAIN_RESET_HOLD_END (R228): The reset hold time ends and the domains are released. -/
def execDomainResetHoldEnd (s : State) : Answer := site s s.resetHoldEnd

/-- DOMAIN_READY_TIMEOUT (R228): A domain is not ready within ready_timeout_ms; ACK TIMEOUT. -/
def execDomainReadyTimeout (s : State) : Answer := site s s.domTimeout

/-- ROUTE_SWAP (R243): With no lookup outstanding, the active route bank changes. -/
def execRouteSwap (s : State) : Answer := site s s.routeSwap

/-- BRX_FREEZE_RELEASE (R242): Writing freeze_release releases the held freeze frame. -/
def execBrxFreezeRelease (s : State) : Answer := site s s.freezeRelease

/-- BRX_CAP_LOCK (R213): Local side sets cap_lock, locking the capability table. -/
def execBrxCapLock (s : State) : Answer := site s s.capLock

/-- BRX_POR (R227): BRX_POR_N resets the Bruix block: generation 0, gate empty, job cleared. -/
def execBrxPor (s : State) : Answer := site s s.brxPor

/-- PRESENCE_TX (R497): A site sends its sideband PRESENCE frame every 10 ms. -/
def execPresenceTx (s : State) : Answer := site s s.presenceTx

end Sys2Proof.Machine
end

