-- ==== Sys2Proof/Machine/ExecCmd.lean ====
section
/-! DEFINITION. Meanings: the commands of the host (R416). -/
namespace Sys2Proof.Machine

/-- NOOP (R416): Query that returns the side's role. -/
def execNoop (slot : Fin 256) (c : CmdPkt) (s : State) : Answer := pow s (s.command 0x0001 slot.val c)

/-- CMD_QUERY (R416): Query that returns the recorded reply of a command ID, or UNKNOWN_ID. -/
def execCmdQuery (slot : Fin 256) (c : CmdPkt) (s : State) : Answer := pow s (s.command 0x0002 slot.val c)

/-- JOB_STATUS (R331): Query that writes the recovery status and the cadence values to an output window. -/
def execJobStatus (slot : Fin 256) (c : CmdPkt) (s : State) : Answer := pow s (s.command 0x0003 slot.val c)

/-- SITE_CAP (R416): Query that returns a site's capability table as last received. -/
def execSiteCap (slot : Fin 256) (c : CmdPkt) (s : State) : Answer := pow s (s.command 0x0004 slot.val c)

/-- SITE_REG_READ (R416): Side-local command that reads Bruix registers with REG_READ. -/
def execSiteRegRead (slot : Fin 256) (c : CmdPkt) (s : State) : Answer := pow s (s.command 0x0005 slot.val c)

/-- WINDOW_MAP (R413): Maps a bulk window as SCRATCH frames or as a stratum view. -/
def execWindowMap (slot : Fin 256) (c : CmdPkt) (s : State) : Answer := pow s (s.command 0x0101 slot.val c)

/-- WINDOW_UNMAP (R413): Unmaps a bulk window, refused with BUSY while any page reads DEVICE. -/
def execWindowUnmap (slot : Fin 256) (c : CmdPkt) (s : State) : Answer := pow s (s.command 0x0102 slot.val c)

/-- KERNEL_LOAD (R138): Verifies and places a kernel image in a kernel slot. -/
def execKernelLoad (slot : Fin 256) (c : CmdPkt) (s : State) : Answer := pow s (s.command 0x0103 slot.val c)

/-- KERNEL_UNLOAD (R138): Unloads a kernel slot, refused if a job references it. -/
def execKernelUnload (slot : Fin 256) (c : CmdPkt) (s : State) : Answer := pow s (s.command 0x0104 slot.val c)

/-- PROFILE_LOAD (R187): Verifies and places an arithmetic profile in a profile slot. -/
def execProfileLoad (slot : Fin 256) (c : CmdPkt) (s : State) : Answer := pow s (s.command 0x0105 slot.val c)

/-- PROFILE_UNLOAD (R187): Unloads a profile slot, refused if a running job names the profile. -/
def execProfileUnload (slot : Fin 256) (c : CmdPkt) (s : State) : Answer := pow s (s.command 0x0106 slot.val c)

/-- SPOKE_TRAIN (R260): Trains or disables the spokes named in the mask. -/
def execSpokeTrain (slot : Fin 256) (c : CmdPkt) (s : State) : Answer := pow s (s.command 0x0107 slot.val c)

/-- TORUS_TRAIN (R280): Trains or disables the torus ports named in the mask. -/
def execTorusTrain (slot : Fin 256) (c : CmdPkt) (s : State) : Answer := pow s (s.command 0x0108 slot.val c)

/-- BEDROCK_TARGETS (R382): Configures the bedrock slots and the completion ring. -/
def execBedrockTargets (slot : Fin 256) (c : CmdPkt) (s : State) : Answer := pow s (s.command 0x0109 slot.val c)

/-- FILL_ARM (R342): Opens a spare side to fill landings from the named donor and escrow peer. -/
def execFillArm (slot : Fin 256) (c : CmdPkt) (s : State) : Answer := pow s (s.command 0x010A slot.val c)

/-- FILL_SEND (R343): A donor or escrow peer sends escrow items, maps, pages and silt entries to the target position. -/
def execFillSend (slot : Fin 256) (c : CmdPkt) (s : State) : Answer := pow s (s.command 0x010B slot.val c)

/-- PAIR_REJOIN (R374): Makes a WITHDRAWN side JOINING and runs the rejoin copy. -/
def execPairRejoin (slot : Fin 256) (c : CmdPkt) (s : State) : Answer := pow s (s.command 0x010C slot.val c)

/-- TILE_COPY (R416): Reads or writes an accumulator tile through a window, subject to tile state. -/
def execTileCopy (slot : Fin 256) (c : CmdPkt) (s : State) : Answer := pow s (s.command 0x010D slot.val c)

/-- OBSERVE_SET (R491): Sets the debug facility mask and writes the corresponding control bits. -/
def execObserveSet (slot : Fin 256) (c : CmdPkt) (s : State) : Answer := pow s (s.command 0x010E slot.val c)

/-- EVR_CLEAR (R454): Checks a clearing authorisation, then clears the event recorder. -/
def execEvrClear (slot : Fin 256) (c : CmdPkt) (s : State) : Answer := pow s (s.command 0x010F slot.val c)

/-- FW_STAGE (R446): Verifies a firmware image and writes it to the bank that is not running. -/
def execFwStage (slot : Fin 256) (c : CmdPkt) (s : State) : Answer := pow s (s.command 0x0110 slot.val c)

/-- ATTEST (R448): Writes a device-signed attestation record. -/
def execAttest (slot : Fin 256) (c : CmdPkt) (s : State) : Answer := pow s (s.command 0x0111 slot.val c)

/-- REGION_QUOTA (R65): Sets a job slot's frame quota per stack. -/
def execRegionQuota (slot : Fin 256) (c : CmdPkt) (s : State) : Answer := pow s (s.command 0x0201 slot.val c)

/-- JOB_STAGE (R414): Stages and checks a job descriptor and its layer schedule table. -/
def execJobStage (slot : Fin 256) (c : CmdPkt) (s : State) : Answer := pow s (s.command 0x0202 slot.val c)

/-- PELOTON_LOAD (R299): Places a peloton table in its slot. -/
def execPelotonLoad (slot : Fin 256) (c : CmdPkt) (s : State) : Answer := pow s (s.command 0x0203 slot.val c)

/-- JOB_START (R312): Starts the two-phase job start from the root. -/
def execJobStart (slot : Fin 256) (c : CmdPkt) (s : State) : Answer := pow s (s.command 0x0204 slot.val c)

/-- JOB_TEARDOWN (R315): Tears a job down, job-wide or on this tray only. -/
def execJobTeardown (slot : Fin 256) (c : CmdPkt) (s : State) : Answer := pow s (s.command 0x0205 slot.val c)

/-- SCHEDULE_LOAD (R163): Loads a new layer schedule table in deferred or immediate mode. -/
def execScheduleLoad (slot : Fin 256) (c : CmdPkt) (s : State) : Answer := pow s (s.command 0x0206 slot.val c)

/-- PARAMS_SET (R416): Sets kernel_params at a commit boundary. -/
def execParamsSet (slot : Fin 256) (c : CmdPkt) (s : State) : Answer := pow s (s.command 0x0207 slot.val c)

/-- JOB_ROLLBACK (R353): Rolls committed steps back to a held stratum, then replays and recomputes. -/
def execJobRollback (slot : Fin 256) (c : CmdPkt) (s : State) : Answer := pow s (s.command 0x0208 slot.val c)

/-- STEP_RETRY (R338): Retries a held step; runs as JOB_RESUME. -/
def execStepRetry (slot : Fin 256) (c : CmdPkt) (s : State) : Answer := pow s (s.command 0x0209 slot.val c)

/-- JOB_RESUME (R338): Resolves, reopens and restarts streaming of a HELD job through barriers. -/
def execJobResume (slot : Fin 256) (c : CmdPkt) (s : State) : Answer := pow s (s.command 0x020A slot.val c)

/-- SITE_RESET (R339): Resets a site's domains and retrains its spokes. -/
def execSiteReset (slot : Fin 256) (c : CmdPkt) (s : State) : Answer := pow s (s.command 0x020B slot.val c)

/-- DERAIL_STAGE (R349): Stages a site's route bank image with ROUTE_STAGE messages. -/
def execDerailStage (slot : Fin 256) (c : CmdPkt) (s : State) : Answer := pow s (s.command 0x020C slot.val c)

/-- PAGE_REPAIR (R85): Repairs a poisoned page or a damaged silt payload from the partner side. -/
def execPageRepair (slot : Fin 256) (c : CmdPkt) (s : State) : Answer := pow s (s.command 0x020D slot.val c)

/-- BUDDY_SEED (R310): Reseeds the buddy shadow stratum. -/
def execBuddySeed (slot : Fin 256) (c : CmdPkt) (s : State) : Answer := pow s (s.command 0x020E slot.val c)

/-- POSITION_ASSIGN (R291): Gives a spare a position after checking its row and neighbours. -/
def execPositionAssign (slot : Fin 256) (c : CmdPkt) (s : State) : Answer := pow s (s.command 0x020F slot.val c)

/-- POSITION_CLEAR (R291): Removes the held position. -/
def execPositionClear (slot : Fin 256) (c : CmdPkt) (s : State) : Answer := pow s (s.command 0x0210 slot.val c)

/-- SITE_REG_WRITE (R416): Writes a Bruix register with REG_WRITE. -/
def execSiteRegWrite (slot : Fin 256) (c : CmdPkt) (s : State) : Answer := pow s (s.command 0x0211 slot.val c)

/-- SITE_FREEZE (R490): Captures and collects a site's freeze frame. -/
def execSiteFreeze (slot : Fin 256) (c : CmdPkt) (s : State) : Answer := pow s (s.command 0x0212 slot.val c)

/-- BEDROCK_START (R383): Starts a bedrock at a boundary step over the job. -/
def execBedrockStart (slot : Fin 256) (c : CmdPkt) (s : State) : Answer := pow s (s.command 0x0213 slot.val c)

/-- BEDROCK_ARM (R384): Arms auto-bedrock on failure warnings. -/
def execBedrockArm (slot : Fin 256) (c : CmdPkt) (s : State) : Answer := pow s (s.command 0x0214 slot.val c)

/-- BEDROCK_DISARM (R384): Ends the auto-bedrock arm. -/
def execBedrockDisarm (slot : Fin 256) (c : CmdPkt) (s : State) : Answer := pow s (s.command 0x0215 slot.val c)

/-- BEDROCK_ABANDON (R392): Abandons the bedrock in progress. -/
def execBedrockAbandon (slot : Fin 256) (c : CmdPkt) (s : State) : Answer := pow s (s.command 0x0216 slot.val c)

/-- BEDROCK_RESTORE (R394): Restores the job from candidate manifests in turn. -/
def execBedrockRestore (slot : Fin 256) (c : CmdPkt) (s : State) : Answer := pow s (s.command 0x0217 slot.val c)

/-- PAIR_SWITCH (R376): Hands the ACTIVE role to the STANDBY partner. -/
def execPairSwitch (slot : Fin 256) (c : CmdPkt) (s : State) : Answer := pow s (s.command 0x0218 slot.val c)

/-- PAIR_WITHDRAW (R373): Makes the named side halt and fence. -/
def execPairWithdraw (slot : Fin 256) (c : CmdPkt) (s : State) : Answer := pow s (s.command 0x0219 slot.val c)

end Sys2Proof.Machine
end

