-- ==== Sys2Proof/Machine/ExecData.lean ====
section
/-! DEFINITION. Meanings: accumulation, update, confirmation and the state store. -/
namespace Sys2Proof.Machine

/-- GRADIENT_PACKET_RX (R33): A controller receives a gradient packet and adds it in canonical order, stages it, or holds it under
tag n+1. -/
def execGradientPacketRx (site : Fin 8) (p : Packet) (s : State) : Answer := ctl s (s.gradientRx site.val p)

/-- END_OF_SLICE_RX (R35): An end-of-slice marker completes a contribution; waiting contributions are added, and the last one
starts confirmation. -/
def execEndOfSliceRx (site : Fin 8) (p : Packet) (s : State) : Answer := ctl s (s.gradientRx site.val p)

/-- TILE_ASSIGN (R109): FREE tiles are assigned to a waiting layer's tile range, and credits resume. -/
def execTileAssign (job : W32) (layer : W16) (s : State) : Answer := ctl s (s.tileAssign job layer.toNat)

/-- KERNEL_DISPATCH (R139): Hub cores dispatch a layer's kernel prologue and invocations once its tiles are CLOSED. -/
def execKernelDispatch (job : W32) (s : State) : Answer := ctl s (s.kernelDispatch job)

/-- ROOT_FINAL (R73): The last page of the step is written and the working stratum root is formed. -/
def execRootFinal (job : W32) (s : State) : Answer := ctl s (s.rootFinal job)

/-- VOTE_CAST (R36): The controller's five checks are decided and its vote enters the commit vote. -/
def execVoteCast (job : W32) (s : State) : Answer := ctl s (s.voteCast job)

/-- CONFIRM_TIMEOUT (R38): The commit vote has not completed within the confirm timeout; a Job-abort is raised. -/
def execConfirmTimeout (job : W32) (s : State) : Answer := ctl s (s.confirmTimeout job)

/-- READ_REFERENCE_END (R72): A read reference ends, and the frames of a dropped map are freed. -/
def execReadReferenceEnd (holder : Nat) (s : State) : Answer := ctl s (s.refEnd holder)

/-- REPAIR_COPY_RX (R85): A repair copy arrives from the partner, is verified and substituted. -/
def execRepairCopyRx (data : List Byte) (s : State) : Answer := ctl s (s.repairCopy data)

/-- ESCROW_TIMEOUT (R337): The escrow acknowledgement is missing at the confirm timeout; the record is written with escrow_missing.
-/
def execEscrowTimeout (job : W32) (s : State) : Answer := ctl s (s.escrowTimeout job)

/-- PIN_COPY_DONE (R77): The PIN copy of the assayed map finishes, pin_valid is set, and any commit sequence that waited for it
proceeds. -/
def execPinCopyDone (job : W32) (s : State) : Answer := ctl s (s.pinDone job)

/-- HOP_PARITY_ERROR (R83): An internal transfer fails parity and a replay is requested. -/
def execHopParityError (cls : Fin 5) (again : Bool) (s : State) : Answer := plain s (s.hopParity cls.val again)

/-- HOP_ESCALATION (R83): Consecutive replays reach escalate_attempts; the transfer is poisoned and a Degrade event raised. -/
def execHopEscalation (cls : Fin 5) (island : Byte) (hit : List (W32 × W64)) (s : State) : Answer :=
  ctl s (s.hopEscalate cls.val island hit)

/-- HOP_REPLAY_RATE (R83): A hop's replays in a window exceed the threshold and raise a Degrade event. -/
def execHopReplayRate (cls : Fin 5) (s : State) : Answer := plain s (s.hopRate cls.val)

/-- HBM_CORRECTED_ERROR (R84): An HBM read returns a corrected error, counted and checked against the threshold. -/
def execHbmCorrectedError (stack : Fin 16) (s : State) : Answer :=
  ctl s (
    let r := s.hbmCorrected stack.val
      if r.2 then r.1.failureWarning else r.1)

/-- HBM_UNCORRECTED_ERROR (R84): An HBM read returns an uncorrected error, handled by the area of its frame. -/
def execHbmUncorrectedError (stack : Fin 16) (area : UeArea) (s : State) : Answer := ctl s (s.hbmUncorrected stack.val area)

/-- PHASE_BARRIER (R139): A phase ends on all 16 slices; slots are merged and the next phase or layer readiness follows. -/
def execPhaseBarrier (s : State) : Answer := ctl s s.phaseBarrier

end Sys2Proof.Machine
end

