-- ==== Sys2Proof/Machine/ExecHost.lean ====
section
/-! DEFINITION. Meanings: command slots, bulk windows, the completion ring and PCI Express (R397 to R421, R387). -/
namespace Sys2Proof.Machine

/-- SLOT_FLAG_WRITE (R402): Host writes 1 to a HOST command slot flag, handing the slot to the controller. -/
def execSlotFlagWrite (slot : Fin 256) (v : W32) (s : State) : Answer := ctl s (s.flagWrite slot.val v)

/-- HOST_SLOT_WRITE (R402): Host write to the bytes of a command slot; it is discarded and counted if the slot is DEVICE. -/
def execHostSlotWrite (slot : Fin 256) (off : Fin 256) (bytes : List Byte) (s : State) : Answer :=
  plain s (s.slotWrite slot.val off.val bytes)

/-- PAGE_FLAG_WRITE (R412): Host writes a bulk-window page flag word; only HOST to DEVICE changes take effect. -/
def execPageFlagWrite (word : Fin 16384) (v : W32) (s : State) : Answer := plain s (s.pageFlagWrite word.val v)

/-- WINDOW_PAGE_ACCESS (R412): Host read or write of a bulk-window page, handled by the page flag and counted as a violation where
refused. -/
def execWindowPageAccess (w : Fin 64) (off : BitVec 28) (n : Nat) (data : Option (List Byte)) (s : State) : Answer :=
  plain s (s.windowAccess w.val off.toNat n data)

/-- HST_CQ_HEAD_WRITE (R408): Host advances the completion ring head; queued completions are then written. -/
def execHstCqHeadWrite (v : W32) (s : State) : Answer := plain s (s.cqHead v)

/-- HST_CQ_ENABLE (R421): Writing cq_en from 0 to 1 sets CQ_TAIL to CQ_HEAD. -/
def execHstCqEnable (v : W32) (s : State) : Answer := plain s (s.cqEnable v)

/-- BDR_RETURN (R387): Host returns a bedrock slot as durable; for a restore, the controller then reads the chunk in the slot. -/
def execBdrReturn (v : W32) (chunk : List Byte) (s : State) : Answer := ctl s (s.slotReturn (v.toNat % 64) chunk)

/-- PCIE_LINK_SETTLE (R397): PCI Express link settles at a rate and width; commands are refused or allowed under LINK_RATE. -/
def execPcieLinkSettle (rate : Fin 7) (width : Fin 6) (s : State) : Answer := plain s (s.linkSettle rate.val width.val)

/-- BUS_MASTER_ENABLE_WRITE (R398): A configuration write changes Bus Master Enable, which enables or stops completion-ring and
bedrock chunk writes. -/
def execBusMasterEnableWrite (on : Bool) (s : State) : Answer := ctl s (s.busMasterWrite on)

/-- SLOT_TAKE (R406): Hub-core firmware takes a DEVICE slot and checks form, role, link, identity and admission, then journals,
accepts or refuses the command. -/
def execSlotTake (s : State) : Answer := pow s s.takeNext

/-- FUNCTION_LEVEL_RESET (R398): Function-level reset, hot reset or link down resets only host-facing state. -/
def execFunctionLevelReset (s : State) : Answer := plain s s.flr

/-- POISONED_TLP (R399): A poisoned TLP arrives and is discarded, counted and reported through AER. -/
def execPoisonedTlp (s : State) : Answer := plain s s.poisoned

end Sys2Proof.Machine
end

