-- ==== Sys2Proof/Machine/ExecLink.lean ====
section
/-! DEFINITION. Meanings: Miopra links (R252 to R275). -/
namespace Sys2Proof.Machine

/-- FRAME_RX (R267): A Miopra frame is received, FEC-decoded, parity-checked, and its flits, acks and credits processed. -/
def execFrameRx (port : Fin 17) (f : Frame) (s : State) : Answer := link s (s.frameRx port.val f)

/-- NAK_REPEAT (R267): While waiting for replay, the NAK is repeated every 64 ns. -/
def execNakRepeat (port : Fin 17) (s : State) : Answer := link s (s.nakRepeat port.val)

/-- REPLAY_START (R268): On a NAK, the sender resends from flit q at its next frame boundary. -/
def execReplayStart (port : Fin 17) (q : BitVec 10) (s : State) : Answer := link s (s.replayStart port.val q)

/-- ACK_TIMEOUT (R268): ack_seq does not advance within 256 ns; resend from the oldest flit. -/
def execAckTimeout (port : Fin 17) (s : State) : Answer := link s (s.ackTimeout port.val)

/-- LINK_ESCALATE (R269): A flit is resent escalate_attempts times; the port goes DOWN and steps fail link integrity. -/
def execLinkEscalate (port : Fin 17) (s : State) : Answer := link s (s.linkEscalate port.val)

/-- PEER_DETECT (R257): DETECT finds the peer and training proceeds to ALIGN. -/
def execPeerDetect (port : Fin 17) (s : State) : Answer := link s (s.peerDetect port.val)

/-- DETECT_TIMEOUT (R257): No peer within 10 ms; the port enters DOWN with train_failed. -/
def execDetectTimeout (port : Fin 17) (s : State) : Answer := link s (s.detectTimeout port.val)

/-- ALIGN_MEASURE_DONE (R257): The 1 ms lane error measurement completes. -/
def execAlignMeasureDone (port : Fin 17) (errors : List Nat) (s : State) : Answer := link s (s.alignDone port.val errors)

/-- EQUALISE_DONE (R257): Equalisation of failing lanes completes and they are measured again. -/
def execEqualiseDone (port : Fin 17) (errors : List Nat) (s : State) : Answer := link s (s.equaliseDone port.val errors)

/-- PARAM_EXCHANGE (R258): PARAM completes; the width is chosen and the port goes ACTIVE, or training fails. -/
def execParamExchange (port : Fin 17) (r : ParamResult) (s : State) : Answer := link s (s.paramExchange port.val r)

/-- AUTO_RETRAIN (R260): A DOWN port retrains by itself, at most 3 attempts in 1 s. -/
def execAutoRetrain (port : Fin 17) (s : State) : Answer := link s (s.autoRetrain port.val)

/-- SPK_DISABLE_WRITE (R275): Writing disable puts the port into DISABLED at once. -/
def execSpkDisableWrite (spoke : Fin 9) (disable : Bool) (s : State) : Answer := ctl s (s.disableWrite spoke.val disable)

/-- FRAME_TX (R268): At each frame boundary a Miopra sender assembles and sends a frame: header with ack, rotating credit report,
NAK or alarm repeat, and flit slots from replay, credits and egress order. -/
def execFrameTx (port : Fin 17) (s : State) : Answer := link s (s.frameTx port.val)

/-- LINK_REPLAY_RATE (R269): A port's replays in a window exceed the threshold; Degrade event. -/
def execLinkReplayRate (port : Fin 17) (s : State) : Answer := link s (s.linkReplayRate port.val)

/-- FEC_HEAVY_WARNING (R269): Heavily corrected frames exceed the threshold in a second; failure warning. -/
def execFecHeavyWarning (port : Fin 9) (s : State) : Answer :=
  let w := s.heavyWindow port.val
  ctl s (if s.heavyOver port.val then (s.setPort port.val { s.port port.val with heavyWin := (w.1, w.2.1, true) }).failureWarning else s)

end Sys2Proof.Machine
end

