-- ==== Sys2Proof/Machine/ExecPair.lean ====
section
/-! DEFINITION. Meanings: the pair link (R355 to R377). -/
namespace Sys2Proof.Machine

/-- PAIR_DIRECTIVE (R178): The partner receives a directive and sends it to its sites. -/
def execPairDirective (m : SiteMsg) (s : State) : Answer :=
  ctl s (s.pairRx 0x14 m.msg true (fun t => t.directiveRx m.site.val m.msg) [BitVec.ofNat 8 m.site.val])

/-- HEARTBEAT (R367): A pair-link heartbeat arrives, or a halt notice declares the partner failed. -/
def execHeartbeat (m : CtlMsg) (s : State) : Answer := pow s (s.heartbeatRx m)

/-- JOURNAL (R364): The partner writes a journal entry ACCEPTED in order and acknowledges. -/
def execJournal (m : CtlMsg) (s : State) : Answer := pow s (s.journalRx m)

/-- JOURNAL_RESEND (R364): The partner resends journal entries from the named sequence. -/
def execJournalResend (m : CtlMsg) (s : State) : Answer := plain s (s.journalResend m)

/-- APPLY (R365): The partner records the boundary for a command. -/
def execApply (m : CtlMsg) (s : State) : Answer := ctl s (s.pairRx 0x43 m true fun t => t.applyRx m)

/-- HANDOVER (R376): The STANDBY side receives HANDOVER and becomes ACTIVE. -/
def execHandover (m : CtlMsg) (s : State) : Answer := ctl s (s.pairRx 0x44 m true fun t => t.handoverRx m)

/-- ITEMS (R359): Partner's collective items arrive and the pair value is contributed. -/
def execItems (m : CtlMsg) (s : State) : Answer := ctl s (s.pairRx 0x45 m true fun t => t.itemsRx m)

/-- ROOT (R358): Partner's working root arrives for the A/B compare. -/
def execRoot (m : CtlMsg) (s : State) : Answer := ctl s (s.pairRx 0x46 m true fun t => t.rootRx m)

/-- RECORD (R39): Partner's step record arrives; it is acknowledged once the own record is written. -/
def execRecord (m : CtlMsg) (s : State) : Answer := ctl s (s.pairRx 0x47 m false fun t => t.recordRx m)

/-- GATE_CLOSE (R51): Partner's gate-close is applied and acknowledged. -/
def execGateClose (m : CtlMsg) (s : State) : Answer := ctl s (s.pairRx 0x48 m true fun t => t.gateCloseRx m)

/-- VERDICTS (R197): Partner's sample verdicts are compared; disagreements hold the window. -/
def execVerdicts (m : CtlMsg) (s : State) : Answer := ctl s (s.pairRx 0x49 m true fun t => t.verdictsRx m)

/-- RESULT (R360): A forwarded DOWN result or chunk result is used or compared. -/
def execResult (m : CtlMsg) (s : State) : Answer :=
  ctl s (s.pairRx 0x4A m true fun t => t.collDown m.jobId (m.bytes.take m.length.toNat) false)

/-- JOB_ALARM (R285): The partner originates an alarm on its own plane. -/
def execJobAlarm (m : CtlMsg) (s : State) : Answer := ctl s (s.pairRx 0x4B m false fun t => t.jobAlarmRx m)

/-- PAIR_ACK (R358): Acknowledgement of a pair message; a RECORD acknowledgement lets the commit flip. -/
def execPairAck (m : CtlMsg) (s : State) : Answer := ctl s (s.pairAckRx m)

/-- PAIR_MSG_REPEAT (R358): No PAIR_ACK within 1 ms; the message is resent with repeat. -/
def execPairMsgRepeat (ty : Byte) (ident : W64) (s : State) : Answer := plain s (s.pairRepeat ty.toNat ident)

/-- ASSIST_TIMEOUT (R362): A LAND REQUEST gets no answer; the transfer passes to the partner's plane. -/
def execAssistTimeout (id : W64) (s : State) : Answer := ctl s (s.assist id)

/-- HEARTBEAT_TX (R367): A heartbeat is sent every 100 µs on the pair link. -/
def execHeartbeatTx (s : State) : Answer := plain s s.heartbeatTx

/-- HB_TIMEOUT (R369): No heartbeat for HB_TIMEOUT; sites are polled and the partner declared failed, or R370 applies. -/
def execHbTimeout (s : State) : Answer := ctl s s.hbTimeout

/-- FENCE_WATCHDOG_EXPIRY (R368): Firmware fails to service the watchdog; the side is fenced and WITHDRAWN. -/
def execFenceWatchdogExpiry (s : State) : Answer := pow s s.fenceExpiry

/-- LINK_GRACE_TIMEOUT (R370): The pair link stays DOWN for LINK_GRACE with sideband heartbeats; STANDBY withdraws. -/
def execLinkGraceTimeout (s : State) : Answer := pow s s.linkGrace

end Sys2Proof.Machine
end

