-- ==== Sys2Proof/Machine/ExecPower.lean ====
section
/-! DEFINITION. Meanings: trust, power, start and reset (R440 to R476, R503 to R513). -/
namespace Sys2Proof.Machine

/-- RESERVATION_DONE (R449): A reservation record is programmed and read back, then signing proceeds. -/
def execReservationDone (crcOk : Bool) (s : State) : Answer := pow s (s.reservationDone crcOk)

/-- PWR_GOOD_RISE (R461): PWR_GOOD rises and a cold start begins. -/
def execPwrGoodRise (highUs : Nat) (s : State) : Answer := pow s (s.pwrGoodRise highUs)

/-- CHIP_RST_N (R461): CHIP_RST_N asserts a cold start. -/
def execChipRstN (lowUs : Nat) (s : State) : Answer := pow s (s.chipReset lowUs)

/-- WARM_RST_N (R461): WARM_RST_N asserts a warm start. -/
def execWarmRstN (lowUs : Nat) (s : State) : Answer := pow s (s.warmPin lowUs)

/-- PERST_N (R461): PERST_N drives PCI Express link training. -/
def execPerstN (asserted : Bool) (s : State) : Answer := pow s (s.perst asserted)

/-- STRAP_SAMPLE (R509): Straps are sampled three times after PWR_GOOD. -/
def execStrapSample (a b c : StrapSt) (s : State) : Answer := pow s (s.strapSample a b c)

/-- PWR_RESET_CLUSTER (R474): Resets one unit 16–53 with the consequence of its level. -/
def execPwrResetCluster (unit : Fin 128) (s : State) : Answer := pow s (s.resetCluster unit.val)

/-- PWR_RESET_CORE (R474): Resets the hub cores in core_mask. -/
def execPwrResetCore (mask : Byte) (s : State) : Answer := pow s (s.resetCores mask)

/-- DOMAIN_REQ_WRITE (R460): Requests power domains on or off, subject to dependencies and use. -/
def execDomainReqWrite (req : W64) (s : State) : Answer := pow s (s.domainReq req)

/-- BIST_DONE (R468): BIST completes and the floor plan table is formed. -/
def execBistDone (codes : List Nat) (s : State) : Answer := pow s (s.bistDone codes)

/-- HBM_TRAIN_DONE (R473): A stack finishes training at 8.0 or 6.4 Gb/s, or fails. -/
def execHbmTrainDone (stack : Fin 16) (result : TrainResult) (s : State) : Answer := pow s (s.hbmTrainDone stack.val result)

/-- START_DONE (R462): A start completes, after listening for the partner to take a role. -/
def execStartDone (partnerRole : Option (Fin 5)) (s : State) : Answer :=
  pow s (s.startDone (partnerRole.map fun r => Role.ofCode r.val))

/-- FUSE_GO (R470): Submits a fuse authorisation to the root-of-trust core. -/
def execFuseGo (readBackOk : Bool) (s : State) : Answer := pow s (s.fuseGo readBackOk)

/-- BROWNOUT (R508): A rail below 92% for 2 µs; Tray-halt, halt notice and fence. -/
def execBrownout (hbmRail : Bool) (s : State) : Answer := pow s (s.brownoutGo hbmRail)

/-- THERMAL_SAMPLE (R512): Junction sensors are read every 100 µs and the hottest compared with thresholds. -/
def execThermalSample (tj : Int) (s : State) : Answer := pow s (s.thermal tj)

/-- RECOVERY_GO (R444): Verifies the recovery buffer image and writes it to bank 0. -/
def execRecoveryGo (s : State) : Answer := pow s s.recoveryGo

/-- SVN_COMMIT (R446): Burns SVN_MIN up to the running image's svn. -/
def execSvnCommit (s : State) : Answer := pow s s.svnCommit

/-- SIGNATURE_DONE (R455): A root-of-trust signature or verification completes and the next mailbox request starts. -/
def execSignatureDone (s : State) : Answer := pow s s.signatureDone

/-- PWR_GOOD_FALL (R507): PWR_GOOD falls; the recorder flushes and the device powers down. -/
def execPwrGoodFall (s : State) : Answer := pow s s.pwrGoodFall

/-- PWR_RESET_COLD (R461): Writing PWR.RESET.cold starts a cold start. -/
def execPwrResetCold (s : State) : Answer := pow s s.resetCold

/-- PWR_RESET_WARM (R461): Writing PWR.RESET.warm starts a warm start. -/
def execPwrResetWarm (s : State) : Answer := pow s s.resetWarm

/-- PWR_RESET_PARTITION (R474): Control-complex reset; the side fences. -/
def execPwrResetPartition (s : State) : Answer := pow s s.resetPartition

/-- START_WATCHDOG_EXPIRY (R465): The start watchdog expires; the start failed and a cold start follows. -/
def execStartWatchdogExpiry (s : State) : Answer := pow s s.startWatchdog

/-- CAL_SAVE (R471): Writes a calibration record. -/
def execCalSave (s : State) : Answer := pow s s.calSave

/-- THROTTLE_CLEAR (R512): Tj stays below 100 °C for 100 ms and throttling clears. -/
def execThrottleClear (s : State) : Answer := pow s s.throttleClear

/-- STRAP_CHANGE (R509): A strap input changes after sampling; the change is ignored, strap_changed is set and a Degrade event is
recorded once. -/
def execStrapChange (s : State) : Answer := pow s s.strapChange

/-- WARM_RST_MASK_END (R509): After a stuck WARM_RST_N has been high for 100 ms, the input is unmasked and warm_masked clears. -/
def execWarmRstMaskEnd (s : State) : Answer := pow s s.warmMaskEnd

end Sys2Proof.Machine
end

