-- ==== Sys2Proof/Machine/ExecRecorder.lean ====
section
/-! DEFINITION. Meanings: the event recorder, the sideband bus and I3C (R477 to R500). -/
namespace Sys2Proof.Machine

/-- SB_HEARTBEAT (R497): A sideband heartbeat from the partner arrives. -/
def execSbHeartbeat (payload : List Byte) (s : State) : Answer := pow s (s.sbHeartbeatRx payload)

/-- PRESENCE (R497): A site's PRESENCE frame updates SBB.PRESENCE. -/
def execPresence (site : Fin 8) (payload : List Byte) (s : State) : Answer := plain s (s.presenceRx site.val payload)

/-- BMC_NOTICE (R497): A BMC notice is recorded as a Notice event. -/
def execBmcNotice (payload : List Byte) (s : State) : Answer := plain s (s.bmcNotice payload)

/-- SB_UNKNOWN_FRAME (R496): An unknown or bad sideband frame is discarded, counted and recorded. -/
def execSbUnknownFrame (src : Byte) (type : Byte) (bad : Bool) (payload : List Byte) (s : State) : Answer :=
  pow s (s.sbFrameRx src type bad payload)

/-- SB_STUCK_RECHECK (R495): After 10 ms the drop re-enables or keeps listening, with a Degrade event. -/
def execSbStuckRecheck (freed : Bool) (s : State) : Answer := plain s (s.sbRecheck freed)

/-- PRESENCE_TIMEOUT (R497): A drop is not heard for 3 intervals and its presence bit clears. -/
def execPresenceTimeout (drop : Fin 11) (s : State) : Answer := plain s (s.presenceTimeout drop.val)

/-- I3C_PRIVATE_WRITE (R498): A 4-byte private write sets the BAR0 read offset. -/
def execI3cPrivateWrite (offset : W32) (s : State) : Answer := plain s (s.i3cWrite offset)

/-- I3C_PRIVATE_READ (R498): A private read returns words from the set offset. -/
def execI3cPrivateRead (words : Nat) (s : State) : Answer := plain s (s.i3cRead words)

/-- ENTDAA (R498): I3C dynamic address assignment. -/
def execEntdaa (addr : BitVec 7) (s : State) : Answer := plain s (s.i3cAssign addr)

/-- SETDASA (R498): I3C static-to-dynamic address assignment. -/
def execSetdasa (addr : BitVec 7) (s : State) : Answer := plain s (s.i3cAssign addr)

/-- TRACE_EVENT (R492): A traced hub core takes a branch or trap, and a trace record is emitted into its FIFO, or dropped and
counted when the FIFO is full. -/
def execTraceEvent (core : Fin 8) (trap : Bool) (count : W16) (value : W64) (s : State) : Answer :=
  plain s (s.traceEvent core.val trap count value)

/-- REPEAT_WINDOW_EXPIRY (R483): The open record's repeat window ends and it is closed and queued. -/
def execRepeatWindowExpiry (s : State) : Answer := plain s s.repeatExpiry

/-- RECORD_PROGRAM_DONE (R484): A queued event record finishes programming in NOR. -/
def execRecordProgramDone (s : State) : Answer := plain s s.recordDone

/-- OP_MS_CHECKPOINT (R482): op_ms approaches the stored checkpoint and a new one is programmed. -/
def execOpMsCheckpoint (s : State) : Answer := plain s s.opCheckpoint

/-- SB_HEARTBEAT_TX (R367): A heartbeat is sent on the sideband bus every 1 ms. -/
def execSbHeartbeatTx (s : State) : Answer := plain s s.sbHeartbeatTx

/-- SB_ARB_LOSS (R494): A drop loses sideband arbitration and stops sending. -/
def execSbArbLoss (s : State) : Answer := plain s s.sbArbLoss

/-- SB_RETRY (R494): After the idle wait, the drop retries its frame. -/
def execSbRetry (s : State) : Answer := plain s s.sbRetry

/-- SB_STUCK (R495): The bus is dominant for 256 bit times; the drop disables its driver for 10 ms. -/
def execSbStuck (s : State) : Answer := plain s s.sbStuck

/-- RSTDAA (R498): I3C reset of the dynamic address. -/
def execRstdaa (s : State) : Answer := plain s s.i3cReset

/-- ENEC (R498): I3C enable of events. -/
def execEnec (s : State) : Answer := plain s (s.i3cEvents true)

/-- DISEC (R498): I3C disable of events. -/
def execDisec (s : State) : Answer := plain s (s.i3cEvents false)

/-- GETPID (R498): I3C read of the provisional ID. -/
def execGetpid (s : State) : Answer := plain s (s.i3cGet 6)

/-- GETBCR (R498): I3C read of the BCR. -/
def execGetbcr (s : State) : Answer := plain s (s.i3cGet 1)

/-- GETDCR (R498): I3C read of the DCR. -/
def execGetdcr (s : State) : Answer := plain s (s.i3cGet 1)

/-- GETSTATUS (R498): I3C read of the status. -/
def execGetstatus (s : State) : Answer := plain s (s.i3cGet 2)

/-- SB_READBACK_MISMATCH (R494): A sideband drop reads back a different bit after src, aborts the frame with 16 dominant bits, and
counts and retries it. -/
def execSbReadbackMismatch (s : State) : Answer := plain s s.sbMismatch

/-- EVR_ERASE_DONE (R485): The erase of the records and the Wilost area completes; the 0x30 record and the detections queued
meanwhile are then programmed and clearing clears. -/
def execEvrEraseDone (s : State) : Answer := plain s s.eraseDone

end Sys2Proof.Machine
end

