-- ==== Sys2Proof/Machine/ExecReg.lean ====
section
/-! DEFINITION. Meanings: reads and writes of the register space (R10 to R14). -/
namespace Sys2Proof.Machine

/-- REG_WRITE_GENERAL (R12): Host write to a register field that has no row of its own, governed by its access code. An access of
fewer than 4 bytes has no effect (R11 rule 6). -/
def execRegWriteGeneral (site : Bool) (a : RegAccess) (v : W32) (s : State) : Answer :=
  poke s (if a.bytes.val = 4 then s.hostWrite site a.offset.toNat v else s)

/-- RC_REGISTER_READ (R12): Read of an RC field returns its value and clears it to its reset value. An access of fewer than 4 bytes
returns zero (R11 rule 6). -/
def execRcRegisterRead (site : Bool) (a : RegAccess) (s : State) : Answer :=
  look s (if a.bytes.val = 4 then s.hostRead site a.offset.toNat else s.emit (.readData (List.replicate a.bytes.val 0)))

/-- REG_PAIR_LO_READ (R11): A 4-byte read of NAME_LO captures NAME_HI into the shadow. -/
def execRegPairLoRead (site : Bool) (offset : BitVec 24) (s : State) : Answer := look s (s.hostRead site offset.toNat)

/-- REG_PAIR_HI_READ (R11): A 4-byte read of NAME_HI returns the shadow if one was captured, or otherwise the current value. -/
def execRegPairHiRead (site : Bool) (offset : BitVec 24) (s : State) : Answer := look s (s.hostRead site offset.toNat)

/-- REG_PAIR_LO_WRITE (R11): A 4-byte write of NAME_LO is held until NAME_HI is written. -/
def execRegPairLoWrite (site : Bool) (offset : BitVec 24) (v : W32) (s : State) : Answer :=
  poke s (s.hostWrite site offset.toNat v)

/-- REG_PAIR_HI_WRITE (R11): A 4-byte write of NAME_HI applies both halves together, or NAME_HI alone if no NAME_LO write is held.
-/
def execRegPairHiWrite (site : Bool) (offset : BitVec 24) (v : W32) (s : State) : Answer :=
  poke s (s.hostWrite site offset.toNat v)

/-- REG_PAIR_8B_ACCESS (R11): An 8-byte access at the offset of a pair is atomic and discards any held NAME_LO write. -/
def execRegPair8bAccess (site : Bool) (offset : BitVec 24) (write : Option W64) (s : State) : Answer :=
  poke s (s.host8 site offset.toNat write)

end Sys2Proof.Machine
end

