-- ==== Sys2Proof/Machine/ExecSite.lean ====
section
/-! DEFINITION. Meanings: messages of the sites to a controller. -/
namespace Sys2Proof.Machine

/-- ACK (R215): A controller receives a Bruix acknowledgement and completes the pending operation. -/
def execAck (site : Fin 8) (m : CtlMsg) (s : State) : Answer := ctl s (s.ackRx site.val m)

/-- STEP_REPORT (R241): A controller receives a site's end-of-step report, keeps it for the tables and raises a Degrade event on
seq_errors. -/
def execStepReport (site : Fin 8) (m : CtlMsg) (s : State) : Answer := ctl s (s.stepReportRx site.val m)

/-- HANG (R271): A controller receives HANG from a site; Site-abort. -/
def execHang (site : Fin 8) (m : CtlMsg) (s : State) : Answer := ctl s (s.hangRx site.val m)

/-- ABORT_SEEN (R232): A controller receives notice that a site's tags were closed by a marker. -/
def execAbortSeen (site : Fin 8) (m : CtlMsg) (s : State) : Answer := ctl s (s.abortSeenRx site.val m)

/-- REG_DATA (R214): A controller receives the words of a register read. -/
def execRegData (site : Fin 8) (m : CtlMsg) (s : State) : Answer := ctl s (s.regDataRx site.val m)

/-- FREEZE_DATA (R490): A controller receives one piece of a freeze frame and stores the frame when complete. -/
def execFreezeData (site : Fin 8) (m : CtlMsg) (s : State) : Answer := ctl s (s.freezeData site.val m)

/-- FREEZE_COLLECT_TIMEOUT (R490): A freeze piece is missing for 100 ms and the partial frame is stored. -/
def execFreezeCollectTimeout (site : Fin 8) (s : State) : Answer := ctl s (s.freezeTimeout site.val)

/-- CONTROL_MSG_REPEAT (R217): No ACK within 1 ms; the control message is sent again with repeat set. -/
def execControlMsgRepeat (site : Fin 8) (s : State) : Answer := ctl s (s.ctlRepeat site.val)

/-- REG_READ_TIMEOUT (R369): A site gives no REG_DATA within 1 ms of a REG_READ, so SITE_REG_READ completes with TIMEOUT or the
site counts as reporting the partner's port down. -/
def execRegReadTimeout (site : Fin 8) (s : State) : Answer := ctl s (s.regReadTimeout site.val)

end Sys2Proof.Machine
end

