-- ==== Sys2Proof/Machine/ExecSlice.lean ====
section
/-! DEFINITION. Meanings: the instructions of the update slices (R121 to R141). -/
namespace Sys2Proof.Machine

/-- VADD (R127): Vector add. -/
def execVadd (k : Fin 16) (vd va vb _vc : Fin 32) (mask mode : Fin 8) (s : State) : Answer :=
  plain s (s.vec2 k vd va vb mask mode (fun f a b => rne f (valAdd a b)))

/-- VSUB (R127): Vector subtract. -/
def execVsub (k : Fin 16) (vd va vb _vc : Fin 32) (mask mode : Fin 8) (s : State) : Answer :=
  plain s (s.vec2 k vd va vb mask mode (fun f a b => rne f (valAdd a (valNeg b))))

/-- VMUL (R127): Vector multiply. -/
def execVmul (k : Fin 16) (vd va vb _vc : Fin 32) (mask mode : Fin 8) (s : State) : Answer :=
  plain s (s.vec2 k vd va vb mask mode (fun f a b => rne f (valMul a b)))

/-- VFMA (R127): Vector fused multiply-add. -/
def execVfma (k : Fin 16) (vd va vb vc : Fin 32) (mask mode : Fin 8) (s : State) : Answer :=
  plain s (s.vec3 k vd va vb vc mask mode false)

/-- VFNMA (R127): Vector negated fused multiply-add. -/
def execVfnma (k : Fin 16) (vd va vb vc : Fin 32) (mask mode : Fin 8) (s : State) : Answer :=
  plain s (s.vec3 k vd va vb vc mask mode true)

/-- VMAX (R127): Vector IEEE maximum. -/
def execVmax (k : Fin 16) (vd va vb _vc : Fin 32) (mask mode : Fin 8) (s : State) : Answer :=
  plain s (s.vec2 k vd va vb mask mode (fun f a b => rne f (valMax a b)))

/-- VMIN (R127): Vector IEEE minimum. -/
def execVmin (k : Fin 16) (vd va vb _vc : Fin 32) (mask mode : Fin 8) (s : State) : Answer :=
  plain s (s.vec2 k vd va vb mask mode (fun f a b => rne f (valMin a b)))

/-- VABS (R127): Vector absolute value. -/
def execVabs (k : Fin 16) (vd va _vb _vc : Fin 32) (mask mode : Fin 8) (s : State) : Answer :=
  plain s (s.vec1 k vd va mask mode absOp)

/-- VNEG (R127): Vector negate. -/
def execVneg (k : Fin 16) (vd va _vb _vc : Fin 32) (mask mode : Fin 8) (s : State) : Answer :=
  plain s (s.vec1 k vd va mask mode negOp)

/-- VSEL (R127): Vector select by mask. -/
def execVsel (k : Fin 16) (vd va vb _vc : Fin 32) (mask mode : Fin 8) (s : State) : Answer :=
  plain s (s.vsel k vd va vb mask mode)

/-- VCMP (R127): Vector compare into a mask. -/
def execVcmp (k : Fin 16) (vd va vb vc : Fin 32) (mask mode : Fin 8) (s : State) : Answer :=
  plain s (s.vcmp k vd va vb vc mask mode)

/-- VCLASS (R127): Vector classify into a mask. -/
def execVclass (k : Fin 16) (vd va vb _vc : Fin 32) (mask mode : Fin 8) (s : State) : Answer :=
  plain s (s.vclass k vd va vb mask mode)

/-- VMOV (R127): Vector move. -/
def execVmov (k : Fin 16) (vd va _vb _vc : Fin 32) (mask mode : Fin 8) (s : State) : Answer :=
  plain s (s.vmov k vd va mask mode)

/-- VCVT (R127): Round to a format and return exactly in binary32. -/
def execVcvt (k : Fin 16) (vd va : Fin 32) (fr sel : Byte) (s : State) : Answer := plain s (s.vcvt k vd va fr sel)

/-- VADDS (R127): Vector add of a scalar. -/
def execVadds (k : Fin 16) (vd va vb sa : Fin 32) (mask mode : Fin 8) (s : State) : Answer :=
  plain s (s.vecS k vd va vb sa mask mode false (fun a _ c => valAdd a c))

/-- VMULS (R127): Vector multiply by a scalar. -/
def execVmuls (k : Fin 16) (vd va vb sa : Fin 32) (mask mode : Fin 8) (s : State) : Answer :=
  plain s (s.vecS k vd va vb sa mask mode false (fun a _ c => valMul a c))

/-- VFMAS (R127): Vector fused multiply-add with a scalar. -/
def execVfmas (k : Fin 16) (vd va vb sa : Fin 32) (mask mode : Fin 8) (s : State) : Answer :=
  plain s (s.vecS k vd va vb sa mask mode true (fun a b c => valAdd (valMul a c) b))

/-- VBCAST (R127): Broadcast a scalar to every lane. -/
def execVbcast (k : Fin 16) (vd _va _vb sa : Fin 32) (mask mode : Fin 8) (s : State) : Answer :=
  plain s (s.vbcast k vd sa mask mode)

/-- VDIV (R127): Vector divide on the ROOT port. -/
def execVdiv (k : Fin 16) (vd va vb _vc : Fin 32) (mask mode : Fin 8) (s : State) : Answer :=
  plain s (s.vec2 k vd va vb mask mode fpDiv)

/-- VSQRT (R127): Vector square root. -/
def execVsqrt (k : Fin 16) (vd va _vb _vc : Fin 32) (mask mode : Fin 8) (s : State) : Answer :=
  plain s (s.vec1 k vd va mask mode fpSqrt)

/-- VRSQRT (R127): Vector reciprocal square root. -/
def execVrsqrt (k : Fin 16) (vd va _vb _vc : Fin 32) (mask mode : Fin 8) (s : State) : Answer :=
  plain s (s.vec1 k vd va mask mode fpRsqrt)

/-- VLD (R131): Load the next vector of a stream; a GRAD_IN load writes silt, unscales and feeds slots. -/
def execVld (k : Fin 16) (v _sa : Fin 32) (stream : Fin 16) (_sel : Byte) (rsv : Fin 16) (s : State) : Answer :=
  ctl s (s.vld k v stream rsv)

/-- VST (R132): Convert a vector into an output stream. -/
def execVst (k : Fin 16) (v _sa : Fin 32) (stream : Fin 16) (sel : Byte) (rsv : Fin 16) (s : State) : Answer :=
  ctl s (s.vst k v stream sel rsv)

/-- VTLD (R135): Load 2 KiB of scratch tile memory. -/
def execVtld (k : Fin 16) (v sa : Fin 32) (_stream : Fin 16) (_sel : Byte) (rsv : Fin 16) (s : State) : Answer :=
  plain s (s.vtld k v sa rsv)

/-- VTST (R135): Store 2 KiB to scratch tile memory. -/
def execVtst (k : Fin 16) (v sa : Fin 32) (_stream : Fin 16) (_sel : Byte) (rsv : Fin 16) (s : State) : Answer :=
  plain s (s.vtst k v sa rsv)

/-- VSEEK (R133): Set the next element of an auxiliary stream. -/
def execVseek (k : Fin 16) (_v sa : Fin 32) (stream : Fin 16) (_sel : Byte) (rsv : Fin 16) (s : State) : Answer :=
  plain s (s.vseek k sa stream rsv)

/-- VACCSQ (R134): Accumulate sum of squares and the non-finite count into a slot. -/
def execVaccsq (k : Fin 16) (_vd va : Fin 32) (slot _field : Fin 8) (rsv : Fin 16) (mask mode : Fin 8) (s : State) : Answer :=
  plain s (s.vaccsq k va slot mask mode rsv)

/-- VWELF (R134): Accumulate into a slot under Welford. -/
def execVwelf (k : Fin 16) (_vd va : Fin 32) (slot _field : Fin 8) (rsv : Fin 16) (mask mode : Fin 8) (s : State) : Answer :=
  plain s (s.vwelf k va slot mask mode rsv)

/-- VHSUM (R127): Binary64 horizontal sum of the lanes. -/
def execVhsum (k : Fin 16) (vd va : Fin 32) (_slot _field : Fin 8) (rsv : Fin 16) (mask mode : Fin 8) (s : State) : Answer :=
  plain s (s.vhsum k vd va mask mode rsv)

/-- RDGET (R134): Read a field of a merged reduction slot. -/
def execRdget (k : Fin 16) (vd _va : Fin 32) (slot field : Fin 8) (rsv : Fin 16) (_mask mode : Fin 8) (s : State) : Answer :=
  plain s (s.rdget k vd slot field mode rsv)

/-- RDCLR (R134): Reset a slot to the empty state. -/
def execRdclr (k : Fin 16) (_vd _va : Fin 32) (slot _field : Fin 8) (rsv : Fin 16) (_mask mode : Fin 8) (s : State) : Answer :=
  plain s (s.rdclr k slot mode rsv)

/-- SADD (R127): Scalar integer add or subtract. -/
def execSadd (k : Fin 16) (sd sa sb sub : Fin 32) (rsv : Fin 64) (s : State) : Answer := plain s (s.sadd k sd sa sb sub rsv)

/-- SADDI (R127): Scalar add of an immediate. -/
def execSaddi (k : Fin 16) (sd sa : Fin 32) (imm : W16) (s : State) : Answer := plain s (s.saddi k sd sa imm)

/-- SLI (R127): Load a 16-bit immediate into one quarter of a scalar. -/
def execSli (k : Fin 16) (sd sa : Fin 32) (imm : W16) (s : State) : Answer := plain s (s.sli k sd sa imm)

/-- SFOP (R127): Scalar binary64 operation. -/
def execSfop (k : Fin 16) (sd sa sb sub : Fin 32) (rsv : Fin 64) (s : State) : Answer := plain s (s.sfop k sd sa sb sub rsv)

/-- SCVT (R127): Scalar conversion. -/
def execScvt (k : Fin 16) (sd sa sb sub : Fin 32) (rsv : Fin 64) (s : State) : Answer := plain s (s.scvt k sd sa sub sb rsv)

/-- SLDP (R136): Load a kernel_params word. -/
def execSldp (k : Fin 16) (sd _sa : Fin 32) (imm : W16) (s : State) : Answer := plain s (s.sldp k sd imm)

/-- SLDB (R136): Load a committed scalar block word. -/
def execSldb (k : Fin 16) (sd _sa : Fin 32) (imm : W16) (s : State) : Answer := plain s (s.sldb k sd imm)

/-- SSTB (R136): Store a working scalar block word, effective from slice 0 only. -/
def execSstb (k : Fin 16) (_sd sa : Fin 32) (imm : W16) (s : State) : Answer := plain s (s.sstb k sa imm)

/-- LOOP (R127): Repeat the next instructions. -/
def execLoop (k : Fin 16) (_sd sa : Fin 32) (imm : W16) (s : State) : Answer := plain s (s.loop_ k sa imm)

/-- BR (R127): Conditional branch. -/
def execBr (k : Fin 16) (sa : Fin 32) (cond : Fin 8) (rsv : Fin 4) (off : W16) (s : State) : Answer :=
  plain s (s.br k sa cond rsv off)

/-- FENCE (R127): Wait until stores are accepted. -/
def execFence (k : Fin 16) (_sa : Fin 32) (_cond : Fin 8) (rsv : Fin 4) (_off : W16) (s : State) : Answer :=
  plain s (s.fence_ k rsv)

/-- HALT (R141): End the invocation or prologue, checking output streams. -/
def execHalt (k : Fin 16) (_sa : Fin 32) (_cond : Fin 8) (rsv : Fin 4) (_off : W16) (s : State) : Answer :=
  ctl s (s.halt_ k rsv)

/-- SIGNAL (R127): Report a code to the hub cores as a Notice event. -/
def execSignal (k : Fin 16) (_sd _sa : Fin 32) (imm : W16) (s : State) : Answer := plain s (s.signal k imm)

/-- KERNEL_LIMIT (R141): An invocation runs KERNEL_LIMIT cycles and faults with LIMIT. -/
def execKernelLimit (k : Fin 16) (s : State) : Answer := ctl s (s.kernelLimit k)

/-- ILLEGAL (R128): A slice issues an instruction word whose opcode the table does not list and faults with ILLEGAL. -/
def execIllegal (k : Fin 16) (_w : W32) (s : State) : Answer := plain s (s.sliceIllegal k)

end Sys2Proof.Machine
end

