-- ==== Sys2Proof/Machine/ExecStart.lean ====
section
/-! DEFINITION. Meanings: job start and teardown (R312 to R316). -/
namespace Sys2Proof.Machine

/-- PREPARE (R312): A member forwards PREPARE, checks, reserves and admits its sites. -/
def execPrepare (p : Packet) (s : State) : Answer := ctl s (s.formed (startOk p.content) p (s.prepareRx p))

/-- READY (R312): A child answers READY; the member answers up, or the root decides COMMIT. -/
def execReady (p : Packet) (fromPartner : Bool) (s : State) : Answer := ctl s (s.formed (startOk p.content) p (s.readyRx p.content fromPartner))

/-- START_REFUSE (R312): A child refuses; the refusal goes up and the root decides CANCEL. -/
def execStartRefuse (p : Packet) (fromPartner : Bool) (s : State) : Answer := ctl s (s.formed (startOk p.content) p (s.refuseRx p.content fromPartner))

/-- PREPARE_CHILD_TIMEOUT (R312): A child has not answered in time; the member refuses with TIMEOUT. -/
def execPrepareChildTimeout (job : W32) (child : W16) (s : State) : Answer := ctl s (s.childTimeout job child.toNat)

/-- START_COMMIT (R313): A member forwards COMMIT, opens first_step and answers COMMITTED. -/
def execStartCommit (p : Packet) (s : State) : Answer := ctl s (s.formed (startOk p.content) p (s.commitRx p.content))

/-- CANCEL (R313): A member forwards CANCEL, sends LEAVE and releases reservations. -/
def execCancel (p : Packet) (s : State) : Answer := ctl s (s.formed (startOk p.content) p (s.cancelRx p.content))

/-- COMMITTED (R313): COMMITTED counts go up the tree; the root reports STARTED at N. -/
def execCommitted (p : Packet) (s : State) : Answer := ctl s (s.formed (startOk p.content) p (s.committedRx p.content))

/-- STARTED_REPORT_TIMEOUT (R313): prepare_timeout after the decision passes; the root reports STARTED with the count. -/
def execStartedReportTimeout (job : W32) (s : State) : Answer := ctl s (s.startedTimeout job)

/-- START_TIME_REACHED (R313): start_time is reached and the member starts streaming. -/
def execStartTimeReached (job : W32) (s : State) : Answer := ctl s (s.startTime job)

/-- PREPARED_WAIT_TIMEOUT (R314): A PREPARED member gets no decision in time and sends QUERY to the root. -/
def execPreparedWaitTimeout (job : W32) (s : State) : Answer := ctl s (s.queryOut job)

/-- QUERY_REPEAT (R314): QUERY is repeated every second; after 10 unanswered the member is IN_DOUBT. -/
def execQueryRepeat (job : W32) (s : State) : Answer := ctl s (s.queryOut job)

/-- QUERY (R314): The root answers OUTCOME from its journal. -/
def execQuery (p : Packet) (fromPartner : Bool) (s : State) : Answer := ctl s (s.formed (startOk p.content) p (s.queryRx p.content fromPartner))

/-- OUTCOME (R314): A member receives OUTCOME and acts on COMMIT or CANCEL. -/
def execOutcome (p : Packet) (s : State) : Answer := ctl s (s.formed (startOk p.content) p (s.outcomeRx p.content))

/-- TEARDOWN (R315): A member sends LEAVE, discards job state and frees its region. -/
def execTeardown (p : Packet) (s : State) : Answer := ctl s (s.formed (startOk p.content) p (s.teardownRx p.content))

/-- GONE (R315): GONE counts go up the tree; the root reports done. -/
def execGone (p : Packet) (s : State) : Answer := ctl s (s.formed (startOk p.content) p (s.goneRx p.content))

/-- PREPARE_WAIT_TIMEOUT (R316): A member still waiting for a tearing-down job's resources when prepare_wait expires refuses the
start with RESOURCE_BUSY. -/
def execPrepareWaitTimeout (job : W32) (s : State) : Answer := ctl s (s.prepareWaitTimeout job)

end Sys2Proof.Machine
end

