-- ==== Sys2Proof/Machine/ExecStream.lean ====
section
/-! DEFINITION. Meanings: weight streaming and arbiters (R159 to R169). -/
namespace Sys2Proof.Machine

/-- STREAM_ENTRY_BEGIN (R160): A site engine begins an entry once its layer is readable and window space allows. -/
def execStreamEntryBegin (site : Fin 8) (s : State) : Answer := ctl s (s.entryBegin site.val)

/-- STREAM_PACKET_ENQUEUE (R161): A converted unit packet enters the spoke stream buffer once space is free. -/
def execStreamPacketEnqueue (site : Fin 8) (s : State) : Answer := ctl s (s.unitEnqueue site.val)

/-- STREAM_PACKET_SEND (R161): A stream packet leaves the buffer into the Miopra replay buffer under credits and grants. -/
def execStreamPacketSend (site : Fin 8) (s : State) : Answer := ctl s (s.packetSend site.val)

/-- WINDOW_RELEASE (R160): A controller receives a window release, frees window bytes and skips unsent packets of the entry. -/
def execWindowRelease (site : Fin 8) (m : CtlMsg) (s : State) : Answer := ctl s (s.windowRelease site.val m)

/-- ARB_SLOT (R166): An arbiter decides one grant slot by floor, high, normal and surplus order, and forecasts. -/
def execArbSlot (arb : Fin 24) (ready : Byte) (s : State) : Answer := plain s (s.arbSlot arb.val ready)

/-- ARB_WINDOW_END (R166): 4,096 slots are counted; use, masks and cut flags reset and zero quotas are masked. -/
def execArbWindowEnd (arb : Fin 24) (s : State) : Answer := plain s (s.arbWindowEnd arb.val)

/-- ARB_GRANT_WITHDRAW (R168): A granted requester withdraws before transfer, leaving a dead slot. -/
def execArbGrantWithdraw (arb : Fin 24) (s : State) : Answer := plain s (s.arbWithdraw arb.val)

/-- STM_ARB_QUOTA_WRITE (R167): Writing a quota; a cut below use masks the requester for the window. -/
def execStmArbQuotaWrite (arb : Fin 24) (r : Fin 8) (v : W32) (s : State) : Answer := plain s (s.quotaWrite arb.val r.val v)

/-- RECEIVED_THROUGH (R162): A controller receives received-through values and resumes the parked site engine. -/
def execReceivedThrough (site : Fin 8) (m : CtlMsg) (s : State) : Answer := ctl s (s.receivedThrough site.val m)

end Sys2Proof.Machine
end

