-- ==== Sys2Proof/Machine/ExecTime.lean ====
section
/-! DEFINITION. Meanings: the time base (R422 to R438). -/
namespace Sys2Proof.Machine

/-- TMU_FREQ_ADJ_WRITE (R425): Writing FREQ_ADJ changes the domain's increment. -/
def execTmuFreqAdjWrite (d : Fin 2) (a : W32) (s : State) : Answer := plain s (s.freqWrite d.val a)

/-- TMU_STEP_WRITE (R425): Writing the STEP pair adds a phase step to the domain. -/
def execTmuStepWrite (d : Fin 2) (amount : W64) (s : State) : Answer := plain s (s.stepWrite d.val amount)

/-- TMU_LOAD (R425): load sets the domain from the SET registers, or is refused. -/
def execTmuLoad (d : Fin 2) (s : State) : Answer := plain s (s.loadWrite d.val)

/-- TMU_INVALIDATE (R438): invalidate clears the domain's valid and locked bits. -/
def execTmuInvalidate (d : Fin 2) (s : State) : Answer := plain s (s.invalidate d.val)

/-- TMU_SELECT_WRITE (R426): Changing select switches domains and sets the residual. -/
def execTmuSelectWrite (d : Fin 2) (s : State) : Answer := plain s (s.selectWrite d.val)

/-- TIME_INTERVAL (R433): The TIME interval expires and a TIME request is sent upstream. -/
def execTimeInterval (d : Fin 2) (s : State) : Answer := plain s (s.timeRequestTx d.val)

/-- TIME_REQUEST (R433): A server answers a TIME request with a TIME response, or discards it. -/
def execTimeRequest (port : Fin 6) (body : List Byte) (s : State) : Answer := plain s (s.timeRequestRx port.val body)

/-- TIME_RESPONSE (R434): A requester forms and publishes offset and mean path delay. -/
def execTimeResponse (port : Fin 6) (body : List Byte) (s : State) : Answer := plain s (s.timeResponseRx port.val body)

/-- SOURCE_LOSS_TIMEOUT (R428): No measurement for LOSS_TIMEOUT; the domain's locked bit clears. -/
def execSourceLossTimeout (d : Fin 2) (s : State) : Answer := plain s (s.sourceLost d.val)

/-- PTP_SYNC (R432): A Sync arrives; t2 is taken and a Delay_Req is sent. -/
def execPtpSync (m : PtpSync) (s : State) : Answer := plain s (s.ptpSync m)

/-- PTP_FOLLOW_UP (R432): A Follow_Up supplies t1 for a two-step Sync. -/
def execPtpFollowUp (domain : Fin 128) (seqId : W16) (origin : W64 × W32) (corr : W64) (s : State) : Answer :=
  plain s (s.ptpFollowUp domain.val seqId.toNat origin corr)

/-- PTP_DELAY_RESP (R432): A Delay_Resp supplies t4; offset and delay are published. -/
def execPtpDelayResp (domain : Fin 128) (seqId : W16) (receive : W64 × W32) (corr : W64) (s : State) : Answer :=
  plain s (s.ptpDelayResp domain.val seqId.toNat receive corr)

/-- PTP_ANNOUNCE (R431): An Announce feeds master selection. -/
def execPtpAnnounce (domain : Fin 128) (vector : List Nat) (s : State) : Answer := plain s (s.ptpAnnounce domain.val vector)

/-- TMU_CAPTURE (R436): Latches the output clock and both domains into SNAP registers. -/
def execTmuCapture (s : State) : Answer := plain s s.tmuCapture

/-- SLEW_DONE (R426): The residual s reaches 0. -/
def execSlewDone (s : State) : Answer := plain s s.slewDone

/-- PTP_UNSUPPORTED (R431): An unsupported PTP message is discarded and counted. -/
def execPtpUnsupported (s : State) : Answer := plain s s.ptpUnsupported

end Sys2Proof.Machine
end

