-- ==== Sys2Proof/Machine/ExecTorus.lean ====
section
/-! DEFINITION. Meanings: the torus: alarms, Survey, landings and collectives (R279 to R304). -/
namespace Sys2Proof.Machine

/-- ALARM_SLOT_RX (R286): A torus alarm slot is checked, deduplicated, relayed and passed to the control island. -/
def execAlarmSlotRx (port : Fin 6) (slot : BitVec 128) (s : State) : Answer := ctl s (s.alarmSlotRx port.val slot)

/-- ALARM_TRIPLE_EXPIRY (R286): A held alarm triple expires after 100 µs. -/
def execAlarmTripleExpiry (origin : W16) (side : Bool) (seqNo : Byte) (s : State) : Answer :=
  plain s (s.tripleExpiry ⟨origin, side, seqNo⟩)

/-- HELLO_RX (R290): A hello is received; dims, neighbour state and Survey changes are updated. -/
def execHelloRx (port : Fin 6) (body : List Byte) (s : State) : Answer := ctl s (s.helloRx port.val body)

/-- PACKET_ROUTE (R294): A torus packet not for this controller is forwarded by dimension order or discarded. -/
def execPacketRoute (port : Fin 6) (vc : Fin 4) (p : Packet) (s : State) : Answer := plain s (s.packetRoute port.val vc.val p)

/-- XFER_RX (R296): An XFER packet lands in an open landing, or is discarded; the last byte triggers ACK. -/
def execXferRx (port : Fin 17) (p : Packet) (s : State) : Answer := ctl s (s.xferRx port.val p)

/-- LAND_REQUEST (R296): A receiver chooses a target and answers GRANT or REFUSE. -/
def execLandRequest (p : Packet) (s : State) : Answer := ctl s (s.formed (landOk p.content) p (s.landRequest p))

/-- LAND_GRANT (R296): A sender receives a GRANT and sends XFER packets. -/
def execLandGrant (p : Packet) (s : State) : Answer := ctl s (s.formed (landOk p.content) p (s.landGrant p))

/-- LAND_ACK (R296): A sender learns that every byte has landed; gated commit steps proceed. -/
def execLandAck (p : Packet) (s : State) : Answer := ctl s (s.formed (landOk p.content) p (s.landAck p))

/-- LAND_REFUSE (R296): A sender receives a refusal of its landing. -/
def execLandRefuse (p : Packet) (s : State) : Answer := ctl s (s.formed (landOk p.content) p (s.landRefuse p))

/-- LANDING_TIMEOUT (R296): A landing not completed within 1 s of its last packet is refused and freed. -/
def execLandingTimeout (landing : W16) (s : State) : Answer := ctl s (s.landExpired landing)

/-- COLL_UP (R301): A child's UP arrives; when all are in, the merged value goes to the parent. -/
def execCollUp (p : Packet) (s : State) : Answer := ctl s (s.formed (collOk 0x80 p.content) p (s.collUp p))

/-- COLL_DOWN (R301): A DOWN result arrives, is forwarded to children and the partner, and is applied by op. -/
def execCollDown (p : Packet) (s : State) : Answer :=
  ctl s (s.formed (collOk 0x81 p.content) p (s.collDown p.hdr.jobId p.content true))

/-- COLLECTIVE_TIMEOUT (R303): A step collective does not complete within its timeout. -/
def execCollectiveTimeout (job : W32) (op : Fin 6) (ident : W64) (layer : W16) (phase : Byte) (s : State) : Answer :=
  ctl s (
    match collOpOf (op.val + 1) with
      | some o => s.collExpired ⟨job, o, ident, layer, phase⟩
      | none => s)

/-- NEIGHBOUR_TIMEOUT (R292): No hello for 3 intervals; the port's neighbour state becomes NONE. -/
def execNeighbourTimeout (port : Fin 6) (s : State) : Answer := ctl s (s.neighbourTimeout port.val)

/-- LIGHT_DETECT (R280): The receive monitor reports light on lane 0 and a DOWN port retrains. -/
def execLightDetect (port : Fin 6) (s : State) : Answer := ctl s (s.lightDetect port.val)

/-- LASER_FAULT (R283): A laser fault takes the port DOWN with a Degrade event. -/
def execLaserFault (port : Fin 6) (lanes : Byte) (s : State) : Answer := ctl s (s.laserFault port.val lanes)

/-- OPT_POWER_LOW (R283): Received optical power falls below threshold; failure warning. -/
def execOptPowerLow (port : Fin 6) (powers : List Nat) (s : State) : Answer :=
  let t := s.opticalLow port.val powers
  ctl s (if s.lanesLow powers = 0 then t else t.failureWarning)

/-- ALARM_LANE_LOCK (R284): Lane 0 of a torus port gains or loses signal lock, so its alarm lane comes up or goes down and alarm_up
changes. -/
def execAlarmLaneLock (port : Fin 6) (locked : Bool) (s : State) : Answer := plain s (s.alarmLane port.val locked)

/-- HELLO_TX (R289): A hello is sent on each ACTIVE torus port every hello interval. -/
def execHelloTx (s : State) : Answer := plain s s.helloTx

/-- DIMS_STABLE (R290): 64 hello intervals pass without a dims change; dims_stable is set. -/
def execDimsStable (s : State) : Answer := ctl s s.dimsStable

end Sys2Proof.Machine
end

