-- ==== Sys2Proof/Machine/Dispatch.lean ====
section
/-! DEFINITION. The dispatch: one arm for each command, a direct call of its meaning. -/
namespace Sys2Proof.Machine
open Sys2Proof

/-- The effect of a command on everything but the queue. -/
def exec (i : Instr) (s : State) : Host.Outcome State Fault Refusal :=
  match i with
  | .vadd k vd va vb vc mask mode => Sys2Proof.Machine.execVadd k vd va vb vc mask mode s
  | .vsub k vd va vb vc mask mode => Sys2Proof.Machine.execVsub k vd va vb vc mask mode s
  | .vmul k vd va vb vc mask mode => Sys2Proof.Machine.execVmul k vd va vb vc mask mode s
  | .vfma k vd va vb vc mask mode => Sys2Proof.Machine.execVfma k vd va vb vc mask mode s
  | .vfnma k vd va vb vc mask mode => Sys2Proof.Machine.execVfnma k vd va vb vc mask mode s
  | .vmax k vd va vb vc mask mode => Sys2Proof.Machine.execVmax k vd va vb vc mask mode s
  | .vmin k vd va vb vc mask mode => Sys2Proof.Machine.execVmin k vd va vb vc mask mode s
  | .vabs k vd va vb vc mask mode => Sys2Proof.Machine.execVabs k vd va vb vc mask mode s
  | .vneg k vd va vb vc mask mode => Sys2Proof.Machine.execVneg k vd va vb vc mask mode s
  | .vsel k vd va vb vc mask mode => Sys2Proof.Machine.execVsel k vd va vb vc mask mode s
  | .vcmp k vd va vb vc mask mode => Sys2Proof.Machine.execVcmp k vd va vb vc mask mode s
  | .vclass k vd va vb vc mask mode => Sys2Proof.Machine.execVclass k vd va vb vc mask mode s
  | .vmov k vd va vb vc mask mode => Sys2Proof.Machine.execVmov k vd va vb vc mask mode s
  | .vcvt k vd va fr sel => Sys2Proof.Machine.execVcvt k vd va fr sel s
  | .vadds k vd va vb sa mask mode => Sys2Proof.Machine.execVadds k vd va vb sa mask mode s
  | .vmuls k vd va vb sa mask mode => Sys2Proof.Machine.execVmuls k vd va vb sa mask mode s
  | .vfmas k vd va vb sa mask mode => Sys2Proof.Machine.execVfmas k vd va vb sa mask mode s
  | .vbcast k vd va vb sa mask mode => Sys2Proof.Machine.execVbcast k vd va vb sa mask mode s
  | .vdiv k vd va vb vc mask mode => Sys2Proof.Machine.execVdiv k vd va vb vc mask mode s
  | .vsqrt k vd va vb vc mask mode => Sys2Proof.Machine.execVsqrt k vd va vb vc mask mode s
  | .vrsqrt k vd va vb vc mask mode => Sys2Proof.Machine.execVrsqrt k vd va vb vc mask mode s
  | .vld k v sa stream sel rsv => Sys2Proof.Machine.execVld k v sa stream sel rsv s
  | .vst k v sa stream sel rsv => Sys2Proof.Machine.execVst k v sa stream sel rsv s
  | .vtld k v sa stream sel rsv => Sys2Proof.Machine.execVtld k v sa stream sel rsv s
  | .vtst k v sa stream sel rsv => Sys2Proof.Machine.execVtst k v sa stream sel rsv s
  | .vseek k v sa stream sel rsv => Sys2Proof.Machine.execVseek k v sa stream sel rsv s
  | .vaccsq k vd va slot field rsv mask mode => Sys2Proof.Machine.execVaccsq k vd va slot field rsv mask mode s
  | .vwelf k vd va slot field rsv mask mode => Sys2Proof.Machine.execVwelf k vd va slot field rsv mask mode s
  | .vhsum k vd va slot field rsv mask mode => Sys2Proof.Machine.execVhsum k vd va slot field rsv mask mode s
  | .rdget k vd va slot field rsv mask mode => Sys2Proof.Machine.execRdget k vd va slot field rsv mask mode s
  | .rdclr k vd va slot field rsv mask mode => Sys2Proof.Machine.execRdclr k vd va slot field rsv mask mode s
  | .sadd k sd sa sb sub rsv => Sys2Proof.Machine.execSadd k sd sa sb sub rsv s
  | .saddi k sd sa imm => Sys2Proof.Machine.execSaddi k sd sa imm s
  | .sli k sd sa imm => Sys2Proof.Machine.execSli k sd sa imm s
  | .sfop k sd sa sb sub rsv => Sys2Proof.Machine.execSfop k sd sa sb sub rsv s
  | .scvt k sd sa sb sub rsv => Sys2Proof.Machine.execScvt k sd sa sb sub rsv s
  | .sldp k sd sa imm => Sys2Proof.Machine.execSldp k sd sa imm s
  | .sldb k sd sa imm => Sys2Proof.Machine.execSldb k sd sa imm s
  | .sstb k sd sa imm => Sys2Proof.Machine.execSstb k sd sa imm s
  | .loop k sd sa imm => Sys2Proof.Machine.execLoop k sd sa imm s
  | .br k sa cond rsv off => Sys2Proof.Machine.execBr k sa cond rsv off s
  | .fence k sa cond rsv off => Sys2Proof.Machine.execFence k sa cond rsv off s
  | .halt k sa cond rsv off => Sys2Proof.Machine.execHalt k sa cond rsv off s
  | .signal k sd sa imm => Sys2Proof.Machine.execSignal k sd sa imm s
  | .kernelLimit k => Sys2Proof.Machine.execKernelLimit k s
  | .illegal k w => Sys2Proof.Machine.execIllegal k w s
  | .slotFlagWrite slot v => Sys2Proof.Machine.execSlotFlagWrite slot v s
  | .hostSlotWrite slot off bytes => Sys2Proof.Machine.execHostSlotWrite slot off bytes s
  | .pageFlagWrite word v => Sys2Proof.Machine.execPageFlagWrite word v s
  | .windowPageAccess w off n data => Sys2Proof.Machine.execWindowPageAccess w off n data s
  | .hstCqHeadWrite v => Sys2Proof.Machine.execHstCqHeadWrite v s
  | .hstCqEnable v => Sys2Proof.Machine.execHstCqEnable v s
  | .bdrReturn v chunk => Sys2Proof.Machine.execBdrReturn v chunk s
  | .regWriteGeneral site a v => Sys2Proof.Machine.execRegWriteGeneral site a v s
  | .rcRegisterRead site a => Sys2Proof.Machine.execRcRegisterRead site a s
  | .regPairLoRead site offset => Sys2Proof.Machine.execRegPairLoRead site offset s
  | .regPairHiRead site offset => Sys2Proof.Machine.execRegPairHiRead site offset s
  | .regPairLoWrite site offset v => Sys2Proof.Machine.execRegPairLoWrite site offset v s
  | .regPairHiWrite site offset v => Sys2Proof.Machine.execRegPairHiWrite site offset v s
  | .regPair8bAccess site offset write => Sys2Proof.Machine.execRegPair8bAccess site offset write s
  | .noop slot c => Sys2Proof.Machine.execNoop slot c s
  | .cmdQuery slot c => Sys2Proof.Machine.execCmdQuery slot c s
  | .jobStatus slot c => Sys2Proof.Machine.execJobStatus slot c s
  | .siteCap slot c => Sys2Proof.Machine.execSiteCap slot c s
  | .siteRegRead slot c => Sys2Proof.Machine.execSiteRegRead slot c s
  | .windowMap slot c => Sys2Proof.Machine.execWindowMap slot c s
  | .windowUnmap slot c => Sys2Proof.Machine.execWindowUnmap slot c s
  | .kernelLoad slot c => Sys2Proof.Machine.execKernelLoad slot c s
  | .kernelUnload slot c => Sys2Proof.Machine.execKernelUnload slot c s
  | .profileLoad slot c => Sys2Proof.Machine.execProfileLoad slot c s
  | .profileUnload slot c => Sys2Proof.Machine.execProfileUnload slot c s
  | .spokeTrain slot c => Sys2Proof.Machine.execSpokeTrain slot c s
  | .torusTrain slot c => Sys2Proof.Machine.execTorusTrain slot c s
  | .bedrockTargets slot c => Sys2Proof.Machine.execBedrockTargets slot c s
  | .fillArm slot c => Sys2Proof.Machine.execFillArm slot c s
  | .fillSend slot c => Sys2Proof.Machine.execFillSend slot c s
  | .pairRejoin slot c => Sys2Proof.Machine.execPairRejoin slot c s
  | .tileCopy slot c => Sys2Proof.Machine.execTileCopy slot c s
  | .observeSet slot c => Sys2Proof.Machine.execObserveSet slot c s
  | .evrClear slot c => Sys2Proof.Machine.execEvrClear slot c s
  | .fwStage slot c => Sys2Proof.Machine.execFwStage slot c s
  | .attest slot c => Sys2Proof.Machine.execAttest slot c s
  | .regionQuota slot c => Sys2Proof.Machine.execRegionQuota slot c s
  | .jobStage slot c => Sys2Proof.Machine.execJobStage slot c s
  | .pelotonLoad slot c => Sys2Proof.Machine.execPelotonLoad slot c s
  | .jobStart slot c => Sys2Proof.Machine.execJobStart slot c s
  | .jobTeardown slot c => Sys2Proof.Machine.execJobTeardown slot c s
  | .scheduleLoad slot c => Sys2Proof.Machine.execScheduleLoad slot c s
  | .paramsSet slot c => Sys2Proof.Machine.execParamsSet slot c s
  | .jobRollback slot c => Sys2Proof.Machine.execJobRollback slot c s
  | .stepRetry slot c => Sys2Proof.Machine.execStepRetry slot c s
  | .jobResume slot c => Sys2Proof.Machine.execJobResume slot c s
  | .siteReset slot c => Sys2Proof.Machine.execSiteReset slot c s
  | .derailStage slot c => Sys2Proof.Machine.execDerailStage slot c s
  | .pageRepair slot c => Sys2Proof.Machine.execPageRepair slot c s
  | .buddySeed slot c => Sys2Proof.Machine.execBuddySeed slot c s
  | .positionAssign slot c => Sys2Proof.Machine.execPositionAssign slot c s
  | .positionClear slot c => Sys2Proof.Machine.execPositionClear slot c s
  | .siteRegWrite slot c => Sys2Proof.Machine.execSiteRegWrite slot c s
  | .siteFreeze slot c => Sys2Proof.Machine.execSiteFreeze slot c s
  | .bedrockStart slot c => Sys2Proof.Machine.execBedrockStart slot c s
  | .bedrockArm slot c => Sys2Proof.Machine.execBedrockArm slot c s
  | .bedrockDisarm slot c => Sys2Proof.Machine.execBedrockDisarm slot c s
  | .bedrockAbandon slot c => Sys2Proof.Machine.execBedrockAbandon slot c s
  | .bedrockRestore slot c => Sys2Proof.Machine.execBedrockRestore slot c s
  | .pairSwitch slot c => Sys2Proof.Machine.execPairSwitch slot c s
  | .pairWithdraw slot c => Sys2Proof.Machine.execPairWithdraw slot c s
  | .gradientPacketRx site p => Sys2Proof.Machine.execGradientPacketRx site p s
  | .endOfSliceRx site p => Sys2Proof.Machine.execEndOfSliceRx site p s
  | .tileAssign job layer => Sys2Proof.Machine.execTileAssign job layer s
  | .kernelDispatch job => Sys2Proof.Machine.execKernelDispatch job s
  | .rootFinal job => Sys2Proof.Machine.execRootFinal job s
  | .voteCast job => Sys2Proof.Machine.execVoteCast job s
  | .confirmTimeout job => Sys2Proof.Machine.execConfirmTimeout job s
  | .readReferenceEnd holder => Sys2Proof.Machine.execReadReferenceEnd holder s
  | .repairCopyRx data => Sys2Proof.Machine.execRepairCopyRx data s
  | .streamEntryBegin site => Sys2Proof.Machine.execStreamEntryBegin site s
  | .streamPacketEnqueue site => Sys2Proof.Machine.execStreamPacketEnqueue site s
  | .streamPacketSend site => Sys2Proof.Machine.execStreamPacketSend site s
  | .windowRelease site m => Sys2Proof.Machine.execWindowRelease site m s
  | .arbSlot arb ready => Sys2Proof.Machine.execArbSlot arb ready s
  | .arbWindowEnd arb => Sys2Proof.Machine.execArbWindowEnd arb s
  | .arbGrantWithdraw arb => Sys2Proof.Machine.execArbGrantWithdraw arb s
  | .stmArbQuotaWrite arb r v => Sys2Proof.Machine.execStmArbQuotaWrite arb r v s
  | .sampleRecordRx site p => Sys2Proof.Machine.execSampleRecordRx site p s
  | .tapReportRx site p => Sys2Proof.Machine.execTapReportRx site p s
  | .signatureRx site p => Sys2Proof.Machine.execSignatureRx site p s
  | .localisationLevel d => Sys2Proof.Machine.execLocalisationLevel d s
  | .admitSite port m => Sys2Proof.Machine.execAdmitSite port m s
  | .tagOpen port m => Sys2Proof.Machine.execTagOpen port m s
  | .tagClose port m => Sys2Proof.Machine.execTagClose port m s
  | .tagCommit port m => Sys2Proof.Machine.execTagCommit port m s
  | .directive port m => Sys2Proof.Machine.execDirective port m s
  | .resetDomain port m => Sys2Proof.Machine.execResetDomain port m s
  | .routeStage port m => Sys2Proof.Machine.execRouteStage port m s
  | .routeCommit port m => Sys2Proof.Machine.execRouteCommit port m s
  | .freeze port m => Sys2Proof.Machine.execFreeze port m s
  | .regRead port m => Sys2Proof.Machine.execRegRead port m s
  | .regWrite port m => Sys2Proof.Machine.execRegWrite port m s
  | .leave port m => Sys2Proof.Machine.execLeave port m s
  | .ack site m => Sys2Proof.Machine.execAck site m s
  | .stepReport site m => Sys2Proof.Machine.execStepReport site m s
  | .hang site m => Sys2Proof.Machine.execHang site m s
  | .abortSeen site m => Sys2Proof.Machine.execAbortSeen site m s
  | .receivedThrough site m => Sys2Proof.Machine.execReceivedThrough site m s
  | .regData site m => Sys2Proof.Machine.execRegData site m s
  | .freezeData site m => Sys2Proof.Machine.execFreezeData site m s
  | .freezeCollectTimeout site => Sys2Proof.Machine.execFreezeCollectTimeout site s
  | .controlMsgRepeat site => Sys2Proof.Machine.execControlMsgRepeat site s
  | .streamPacketArrival p => Sys2Proof.Machine.execStreamPacketArrival p s
  | .consume entry tag => Sys2Proof.Machine.execConsume entry tag s
  | .gradientSlice d => Sys2Proof.Machine.execGradientSlice d s
  | .gradientPacketTx scales elems => Sys2Proof.Machine.execGradientPacketTx scales elems s
  | .tapElement d cRow scales elems => Sys2Proof.Machine.execTapElement d cRow scales elems s
  | .tileSelect a => Sys2Proof.Machine.execTileSelect a s
  | .sampleCaptureDone index payload => Sys2Proof.Machine.execSampleCaptureDone index payload s
  | .sampleCaptureTimeout index => Sys2Proof.Machine.execSampleCaptureTimeout index s
  | .lease tag stream count => Sys2Proof.Machine.execLease tag stream count s
  | .cursorAdvance tag feed index => Sys2Proof.Machine.execCursorAdvance tag feed index s
  | .stepDone tag => Sys2Proof.Machine.execStepDone tag s
  | .stepReportTx tag => Sys2Proof.Machine.execStepReportTx tag s
  | .progressPulse k => Sys2Proof.Machine.execProgressPulse k s
  | .watchdogExpiry k => Sys2Proof.Machine.execWatchdogExpiry k s
  | .abortMarkerRx fabricPort m => Sys2Proof.Machine.execAbortMarkerRx fabricPort m s
  | .fabricTransferGate tag => Sys2Proof.Machine.execFabricTransferGate tag s
  | .abortDone newer => Sys2Proof.Machine.execAbortDone newer s
  | .domReady domain => Sys2Proof.Machine.execDomReady domain s
  | .routeLookup index => Sys2Proof.Machine.execRouteLookup index s
  | .freezeCaptureDone points => Sys2Proof.Machine.execFreezeCaptureDone points s
  | .frameRx port f => Sys2Proof.Machine.execFrameRx port f s
  | .nakRepeat port => Sys2Proof.Machine.execNakRepeat port s
  | .replayStart port q => Sys2Proof.Machine.execReplayStart port q s
  | .ackTimeout port => Sys2Proof.Machine.execAckTimeout port s
  | .linkEscalate port => Sys2Proof.Machine.execLinkEscalate port s
  | .peerDetect port => Sys2Proof.Machine.execPeerDetect port s
  | .detectTimeout port => Sys2Proof.Machine.execDetectTimeout port s
  | .alignMeasureDone port errors => Sys2Proof.Machine.execAlignMeasureDone port errors s
  | .equaliseDone port errors => Sys2Proof.Machine.execEqualiseDone port errors s
  | .paramExchange port r => Sys2Proof.Machine.execParamExchange port r s
  | .autoRetrain port => Sys2Proof.Machine.execAutoRetrain port s
  | .spkDisableWrite spoke disable => Sys2Proof.Machine.execSpkDisableWrite spoke disable s
  | .alarmSlotRx port slot => Sys2Proof.Machine.execAlarmSlotRx port slot s
  | .alarmTripleExpiry origin side seqNo => Sys2Proof.Machine.execAlarmTripleExpiry origin side seqNo s
  | .helloRx port body => Sys2Proof.Machine.execHelloRx port body s
  | .packetRoute port vc p => Sys2Proof.Machine.execPacketRoute port vc p s
  | .xferRx port p => Sys2Proof.Machine.execXferRx port p s
  | .landRequest p => Sys2Proof.Machine.execLandRequest p s
  | .landGrant p => Sys2Proof.Machine.execLandGrant p s
  | .landAck p => Sys2Proof.Machine.execLandAck p s
  | .landRefuse p => Sys2Proof.Machine.execLandRefuse p s
  | .landingTimeout landing => Sys2Proof.Machine.execLandingTimeout landing s
  | .collUp p => Sys2Proof.Machine.execCollUp p s
  | .collDown p => Sys2Proof.Machine.execCollDown p s
  | .collectiveTimeout job op ident layer phase => Sys2Proof.Machine.execCollectiveTimeout job op ident layer phase s
  | .prepare p => Sys2Proof.Machine.execPrepare p s
  | .ready p fromPartner => Sys2Proof.Machine.execReady p fromPartner s
  | .startRefuse p fromPartner => Sys2Proof.Machine.execStartRefuse p fromPartner s
  | .prepareChildTimeout job child => Sys2Proof.Machine.execPrepareChildTimeout job child s
  | .startCommit p => Sys2Proof.Machine.execStartCommit p s
  | .cancel p => Sys2Proof.Machine.execCancel p s
  | .committed p => Sys2Proof.Machine.execCommitted p s
  | .startedReportTimeout job => Sys2Proof.Machine.execStartedReportTimeout job s
  | .startTimeReached job => Sys2Proof.Machine.execStartTimeReached job s
  | .preparedWaitTimeout job => Sys2Proof.Machine.execPreparedWaitTimeout job s
  | .queryRepeat job => Sys2Proof.Machine.execQueryRepeat job s
  | .query p fromPartner => Sys2Proof.Machine.execQuery p fromPartner s
  | .outcome p => Sys2Proof.Machine.execOutcome p s
  | .teardown p => Sys2Proof.Machine.execTeardown p s
  | .gone p => Sys2Proof.Machine.execGone p s
  | .escrowTimeout job => Sys2Proof.Machine.execEscrowTimeout job s
  | .pairDirective m => Sys2Proof.Machine.execPairDirective m s
  | .heartbeat m => Sys2Proof.Machine.execHeartbeat m s
  | .journal m => Sys2Proof.Machine.execJournal m s
  | .journalResend m => Sys2Proof.Machine.execJournalResend m s
  | .apply m => Sys2Proof.Machine.execApply m s
  | .handover m => Sys2Proof.Machine.execHandover m s
  | .items m => Sys2Proof.Machine.execItems m s
  | .root m => Sys2Proof.Machine.execRoot m s
  | .record m => Sys2Proof.Machine.execRecord m s
  | .gateClose m => Sys2Proof.Machine.execGateClose m s
  | .verdicts m => Sys2Proof.Machine.execVerdicts m s
  | .result m => Sys2Proof.Machine.execResult m s
  | .jobAlarm m => Sys2Proof.Machine.execJobAlarm m s
  | .pairAck m => Sys2Proof.Machine.execPairAck m s
  | .pairMsgRepeat ty ident => Sys2Proof.Machine.execPairMsgRepeat ty ident s
  | .assistTimeout id => Sys2Proof.Machine.execAssistTimeout id s
  | .bedrockChunkWrite job => Sys2Proof.Machine.execBedrockChunkWrite job s
  | .memberReport job bid report => Sys2Proof.Machine.execMemberReport job bid report s
  | .bedrockSealed job bid => Sys2Proof.Machine.execBedrockSealed job bid s
  | .abandon job bid code detail => Sys2Proof.Machine.execAbandon job bid code detail s
  | .bedrockTimeout job => Sys2Proof.Machine.execBedrockTimeout job s
  | .failureWarningReport job => Sys2Proof.Machine.execFailureWarningReport job s
  | .tmuFreqAdjWrite d a => Sys2Proof.Machine.execTmuFreqAdjWrite d a s
  | .tmuStepWrite d amount => Sys2Proof.Machine.execTmuStepWrite d amount s
  | .tmuLoad d => Sys2Proof.Machine.execTmuLoad d s
  | .tmuInvalidate d => Sys2Proof.Machine.execTmuInvalidate d s
  | .tmuSelectWrite d => Sys2Proof.Machine.execTmuSelectWrite d s
  | .frameTx port => Sys2Proof.Machine.execFrameTx port s
  | .prepareWaitTimeout job => Sys2Proof.Machine.execPrepareWaitTimeout job s
  | .regReadTimeout site => Sys2Proof.Machine.execRegReadTimeout site s
  | .pinCopyDone job => Sys2Proof.Machine.execPinCopyDone job s
  | .pcieLinkSettle rate width => Sys2Proof.Machine.execPcieLinkSettle rate width s
  | .hopParityError cls again => Sys2Proof.Machine.execHopParityError cls again s
  | .hopEscalation cls island hit => Sys2Proof.Machine.execHopEscalation cls island hit s
  | .hopReplayRate cls => Sys2Proof.Machine.execHopReplayRate cls s
  | .hbmCorrectedError stack => Sys2Proof.Machine.execHbmCorrectedError stack s
  | .hbmUncorrectedError stack area => Sys2Proof.Machine.execHbmUncorrectedError stack area s
  | .linkReplayRate port => Sys2Proof.Machine.execLinkReplayRate port s
  | .fecHeavyWarning port => Sys2Proof.Machine.execFecHeavyWarning port s
  | .neighbourTimeout port => Sys2Proof.Machine.execNeighbourTimeout port s
  | .lightDetect port => Sys2Proof.Machine.execLightDetect port s
  | .laserFault port lanes => Sys2Proof.Machine.execLaserFault port lanes s
  | .optPowerLow port powers => Sys2Proof.Machine.execOptPowerLow port powers s
  | .timeInterval d => Sys2Proof.Machine.execTimeInterval d s
  | .timeRequest port body => Sys2Proof.Machine.execTimeRequest port body s
  | .timeResponse port body => Sys2Proof.Machine.execTimeResponse port body s
  | .sourceLossTimeout d => Sys2Proof.Machine.execSourceLossTimeout d s
  | .ptpSync m => Sys2Proof.Machine.execPtpSync m s
  | .ptpFollowUp domain seqId origin corr => Sys2Proof.Machine.execPtpFollowUp domain seqId origin corr s
  | .ptpDelayResp domain seqId receive corr => Sys2Proof.Machine.execPtpDelayResp domain seqId receive corr s
  | .ptpAnnounce domain vector => Sys2Proof.Machine.execPtpAnnounce domain vector s
  | .reservationDone crcOk => Sys2Proof.Machine.execReservationDone crcOk s
  | .pwrGoodRise highUs => Sys2Proof.Machine.execPwrGoodRise highUs s
  | .chipRstN lowUs => Sys2Proof.Machine.execChipRstN lowUs s
  | .warmRstN lowUs => Sys2Proof.Machine.execWarmRstN lowUs s
  | .perstN asserted => Sys2Proof.Machine.execPerstN asserted s
  | .strapSample a b c => Sys2Proof.Machine.execStrapSample a b c s
  | .pwrResetCluster unit => Sys2Proof.Machine.execPwrResetCluster unit s
  | .pwrResetCore mask => Sys2Proof.Machine.execPwrResetCore mask s
  | .domainReqWrite req => Sys2Proof.Machine.execDomainReqWrite req s
  | .bistDone codes => Sys2Proof.Machine.execBistDone codes s
  | .hbmTrainDone stack result => Sys2Proof.Machine.execHbmTrainDone stack result s
  | .startDone partnerRole => Sys2Proof.Machine.execStartDone partnerRole s
  | .fuseGo readBackOk => Sys2Proof.Machine.execFuseGo readBackOk s
  | .brownout hbmRail => Sys2Proof.Machine.execBrownout hbmRail s
  | .thermalSample tj => Sys2Proof.Machine.execThermalSample tj s
  | .sbHeartbeat payload => Sys2Proof.Machine.execSbHeartbeat payload s
  | .presence site payload => Sys2Proof.Machine.execPresence site payload s
  | .bmcNotice payload => Sys2Proof.Machine.execBmcNotice payload s
  | .sbUnknownFrame src type bad payload => Sys2Proof.Machine.execSbUnknownFrame src type bad payload s
  | .sbStuckRecheck freed => Sys2Proof.Machine.execSbStuckRecheck freed s
  | .presenceTimeout drop => Sys2Proof.Machine.execPresenceTimeout drop s
  | .i3cPrivateWrite offset => Sys2Proof.Machine.execI3cPrivateWrite offset s
  | .i3cPrivateRead words => Sys2Proof.Machine.execI3cPrivateRead words s
  | .entdaa addr => Sys2Proof.Machine.execEntdaa addr s
  | .setdasa addr => Sys2Proof.Machine.execSetdasa addr s
  | .alarmLaneLock port locked => Sys2Proof.Machine.execAlarmLaneLock port locked s
  | .traceEvent core trap count value => Sys2Proof.Machine.execTraceEvent core trap count value s
  | .busMasterEnableWrite on => Sys2Proof.Machine.execBusMasterEnableWrite on s
  | .slotTake => Sys2Proof.Machine.execSlotTake s
  | .functionLevelReset => Sys2Proof.Machine.execFunctionLevelReset s
  | .poisonedTlp => Sys2Proof.Machine.execPoisonedTlp s
  | .phaseBarrier => Sys2Proof.Machine.execPhaseBarrier s
  | .sampleCheckDone => Sys2Proof.Machine.execSampleCheckDone s
  | .abftCheckDone => Sys2Proof.Machine.execAbftCheckDone s
  | .endOfSliceTx => Sys2Proof.Machine.execEndOfSliceTx s
  | .fabricLifetimeElapsed => Sys2Proof.Machine.execFabricLifetimeElapsed s
  | .abortIncomplete => Sys2Proof.Machine.execAbortIncomplete s
  | .domainResetHoldEnd => Sys2Proof.Machine.execDomainResetHoldEnd s
  | .domainReadyTimeout => Sys2Proof.Machine.execDomainReadyTimeout s
  | .routeSwap => Sys2Proof.Machine.execRouteSwap s
  | .brxFreezeRelease => Sys2Proof.Machine.execBrxFreezeRelease s
  | .brxCapLock => Sys2Proof.Machine.execBrxCapLock s
  | .brxPor => Sys2Proof.Machine.execBrxPor s
  | .presenceTx => Sys2Proof.Machine.execPresenceTx s
  | .helloTx => Sys2Proof.Machine.execHelloTx s
  | .dimsStable => Sys2Proof.Machine.execDimsStable s
  | .heartbeatTx => Sys2Proof.Machine.execHeartbeatTx s
  | .hbTimeout => Sys2Proof.Machine.execHbTimeout s
  | .fenceWatchdogExpiry => Sys2Proof.Machine.execFenceWatchdogExpiry s
  | .linkGraceTimeout => Sys2Proof.Machine.execLinkGraceTimeout s
  | .tmuCapture => Sys2Proof.Machine.execTmuCapture s
  | .slewDone => Sys2Proof.Machine.execSlewDone s
  | .ptpUnsupported => Sys2Proof.Machine.execPtpUnsupported s
  | .recoveryGo => Sys2Proof.Machine.execRecoveryGo s
  | .svnCommit => Sys2Proof.Machine.execSvnCommit s
  | .signatureDone => Sys2Proof.Machine.execSignatureDone s
  | .pwrGoodFall => Sys2Proof.Machine.execPwrGoodFall s
  | .pwrResetCold => Sys2Proof.Machine.execPwrResetCold s
  | .pwrResetWarm => Sys2Proof.Machine.execPwrResetWarm s
  | .pwrResetPartition => Sys2Proof.Machine.execPwrResetPartition s
  | .startWatchdogExpiry => Sys2Proof.Machine.execStartWatchdogExpiry s
  | .calSave => Sys2Proof.Machine.execCalSave s
  | .throttleClear => Sys2Proof.Machine.execThrottleClear s
  | .repeatWindowExpiry => Sys2Proof.Machine.execRepeatWindowExpiry s
  | .recordProgramDone => Sys2Proof.Machine.execRecordProgramDone s
  | .opMsCheckpoint => Sys2Proof.Machine.execOpMsCheckpoint s
  | .sbHeartbeatTx => Sys2Proof.Machine.execSbHeartbeatTx s
  | .sbArbLoss => Sys2Proof.Machine.execSbArbLoss s
  | .sbRetry => Sys2Proof.Machine.execSbRetry s
  | .sbStuck => Sys2Proof.Machine.execSbStuck s
  | .rstdaa => Sys2Proof.Machine.execRstdaa s
  | .enec => Sys2Proof.Machine.execEnec s
  | .disec => Sys2Proof.Machine.execDisec s
  | .getpid => Sys2Proof.Machine.execGetpid s
  | .getbcr => Sys2Proof.Machine.execGetbcr s
  | .getdcr => Sys2Proof.Machine.execGetdcr s
  | .getstatus => Sys2Proof.Machine.execGetstatus s
  | .strapChange => Sys2Proof.Machine.execStrapChange s
  | .warmRstMaskEnd => Sys2Proof.Machine.execWarmRstMaskEnd s
  | .sbReadbackMismatch => Sys2Proof.Machine.execSbReadbackMismatch s
  | .evrEraseDone => Sys2Proof.Machine.execEvrEraseDone s

end Sys2Proof.Machine
end

