-- ==== Sys2Proof/Safety.lean ====
section
/-! DEFINITION. What claims call a state in order: the bookkeeping of the Bruix block, a controller on which nothing is due, and a run on
which nothing stops. -/
namespace Sys2Proof.Machine
open Sys2Proof

/-- The open-tag set (R47, R223): a tag stands in the newer position only over one in the older, and follows it; and no tag is open at a
site that no job has admitted (R218). -/
def Brx.tagsOk (b : Brx) : Bool :=
  (match b.older, b.newer with
   | _, none => true
   | some o, some n => n.step.setWidth 8 == o.step.setWidth 8 + 1
   | none, some _ => false) && (b.job != 0 || b.older.isNone)

/-- The lists of the Bruix block keep the bounds that the spec gives them: 32 recorded command IDs (R215), 32 markers (R232), 64 waiting
cursor advances (R235) and 16 open taps (R238). -/
def Brx.listsOk (b : Brx) : Bool :=
  decide (b.cmds.length ≤ 32) && decide (b.markersSeen.length ≤ 32) && decide (b.cursorQueue.length ≤ 64) &&
    decide (b.taps.length ≤ 16)

/-- The Bruix block is in order. -/
def State.siteOk (s : State) : Bool := s.brx.tagsOk && s.brx.listsOk

/-- Nothing is under way on the controller that a command could leave due. -/
def State.quiet (s : State) : Bool :=
  s.jobs.isEmpty && s.host.runs.isEmpty && s.tor.colls.isEmpty && s.sec.mailbox.isEmpty && s.store.repair.isNone &&
    s.pair.switching.isNone && s.pair.rejoin.isNone && s.host.kernelDue.isEmpty && s.asy.abftHold == 0 && s.asy.withheld == s.sampFull &&
    (List.range 8).all fun k => (s.port k).withhold.getD 3 false == s.asy.withheld

/-- A step ends in a next state. -/
def State.goesOn (s : State) : Prop := ∃ t, step s = .next t

/-! ### What a command answers -/

/-- The state that a controller command answers whose own effect leaves `u`: what `u` leaves due happens at once, and the queue and
the Bruix block are as they were. -/
def State.after (s u : State) : State := (s.due u).keeping s s.brx

/-- The same where the discrete outputs that change are reported too (R510, R512). -/
def State.afterPins (s u : State) : State := (State.pinsFrom s (s.due u)).keeping s s.brx

/-- The same for a register write, which may reach the Bruix block over its local window; BRX_INT_N follows its level (R250). -/
def State.afterAccess (s u : State) : State := (State.brxPin s (State.pinsFrom s (s.due u))).keeping s u.brx

/-- The same for an event of a link, whose other end may be the Bruix block's. -/
def State.afterLink (s u : State) : State := (State.brxPin s (s.due u)).keeping s u.brx

/-- The controller of `s`, with the registers, ports, messages and free values that the records of the two chips share, and the Bruix block,
as they are in `u` (log entry 1). -/
def State.siteParts (s u : State) : State :=
  { s with brx := u.brx, regs := u.regs, shadow := u.shadow, heldLo := u.heldLo, ports := u.ports, outbox := u.outbox, fresh := u.fresh }

/-- The state that a command of the Bruix block answers whose effect leaves `u`: the controller stays, and BRX_INT_N follows its level
(R250). -/
def State.atSite (s u : State) : State := s.siteParts (State.brxPin s u)

/-- Registers whose write does more than store its fields: they act, or let a set interrupt through. -/
def Reg.writeActs (r : Reg) : Bool :=
  r.status?.isSome || ([.spkCtrl, .stmArbQuota, .asyQueue, .torCtrl, .torPodId, .tmuCtrl, .tmuCapture, .tmuFreqAdj, .tmuDomainCtrl,
    .tmuStepLo, .tmuStepHi, .secCtrl, .pwrReset, .pwrDomainReqLo, .pwrDomainReqHi, .pwrCalCtrl, .hstCtrl, .hstCqHead,
    .updIntStatus] : List Reg).contains r

/-- Job `id` is `j`, and its oldest open step is `o` (R47). -/
def State.Oldest (s : State) (id : W32) (j : Job) (o : OpenStep) : Prop := s.job? id = some j ∧ j.open_.head? = some o

/-! ### What claims say of host commands -/

/-- The host has posted a packet in slot `k` and firmware has taken it (R402, R403). -/
def State.posted (s : State) (op : Nat) (k : Fin 256) (c : CmdPkt) : State :=
  { (s.setSlot k.val (c.bytes op)).flagWrite k.val 1 with host.lastTaken := k.val }

/-- The parameters of a packet (R404). -/
def CmdPkt.given (c : CmdPkt) (op : Nat) : List Byte := sliceBytes (c.bytes op) 64 (fieldLE (c.bytes op) 0x12 2)

/-- The command ID and the job of a packet (R404). -/
def CmdPkt.ident (c : CmdPkt) (op : Nat) : W64 := BitVec.ofNat 64 (fieldLE (c.bytes op) 8 8)
def CmdPkt.jobId (c : CmdPkt) (op : Nat) : W32 := BitVec.ofNat 32 (fieldLE (c.bytes op) 4 4)

/-- Flag irq_on_reply (R404). -/
def CmdPkt.irqOnReply (c : CmdPkt) (op : Nat) : Bool := (fieldLE (c.bytes op) 3 1).testBit 1

/-- The pages that the references of a packet cover. -/
def CmdPkt.pages (c : CmdPkt) (op : Nat) : List (Nat × Nat × Nat) := (opRefs op (c.given op)).map fun o => wrefPages (wrefOf (c.given op) o)

/-- Firmware runs, the slot is the host's and empty-handed, and the packet passes steps 1, 2 and 5 of R406. -/
def State.admits (s : State) (op : Nat) (k : Fin 256) (c : CmdPkt) : Bool :=
  !s.host.device.getLsbD k.val && s.hubRuns && !s.slotTaken k.val && formCode op (c.bytes op) == 0 &&
    (opInfo op).any (fun q => (s.posted op k c).roleAdmits q) &&
    (s.posted op k c).admitCode op (c.jobId op) (BitVec.ofNat 16 (fieldLE (c.bytes op) 0x10 2)) (c.given op) == 0

/-- It also passes steps 3 and 4: the PCI Express link, a new ID above the floor, and an entry of the journal to write (R397, R409). -/
def State.takes (s : State) (op : Nat) (k : Fin 256) (c : CmdPkt) : Bool :=
  s.admits op k c && s.host.linkOk && (s.entry? (c.ident op)).isNone && (s.run? (c.ident op)).isNone && decide (s.host.idFloor.toNat < (c.ident op).toNat) && !s.journalBusy

/-- The record of a command in work. -/
def CmdPkt.run (c : CmdPkt) (op : Nat) (slot : Option Nat) : CmdRun :=
  ⟨c.ident op, op, c.jobId op, fieldLE (c.bytes op) 3 1, true, c.given op, slot, 0, 0, c.pages op⟩

/-- The command is in the journal as RECEIVED and waits for its acceptance; beside a partner the digest of a layer schedule table goes out
(R163, R364). -/
def State.received (s : State) (op : Nat) (k : Fin 256) (c : CmdPkt) : State :=
  let t := (s.posted op k c).journalPut (c.ident op) (c.jobId op) 1 false (c.bytes op) []
  ({ t with host.runs := t.host.runs ++ [c.run op (some k.val)] }).scheduleDigest op (c.ident op) (c.given op)

/-- The command is accepted and has the effect `eff`: it ends at once with a code, a detail and a result, or goes on. Where the opcode's
outcome comes over the ring, the slot already reads ACCEPTED (R364, R406 to R408). -/
def State.accepted (s : State) (op : Nat) (k : Fin 256) (c : CmdPkt) (eff : State → CmdRun → State × CmdEnd) : State :=
  let id := c.ident op
  let seqNo := s.host.nextSeq
  let irq := c.irqOnReply op
  let r := c.run op none
  let t := ((s.received op k c).bump .hstCmdsAccepted).modRun id fun r => { r with slot := none }
  let b := t.replyBytes id op 2 0 0 0 seqNo 0
  let t := t.modEntry id fun e => { e with state := 2, status := b }
  if (opInfo op).any OpInfo.ring then
    match eff (t.slotReply k.val b irq) r with
    | (u, some (c, d, v)) => u.finish id c d v
    | (u, none) => u
  else
    let q := eff t r
    let e := q.2.getD (0, 0, 0)
    let u := q.1.modEntry id fun x => { x with state := 3, status := q.1.replyBytes id op 3 1 e.1 e.2.1 seqNo e.2.2 }
    let u := { u with host.runs := u.host.runs.filter fun (x : CmdRun) => x.id != id }
    (u.pagesBack r.pages).slotReply k.val (u.replyBytes id op 2 1 e.1 e.2.1 seqNo e.2.2) irq

/-- A command of class L, or of class P on a side that journals alone, is accepted with the effect `eff`. -/
def CommandAccepted (s : State) (i : Instr) (op : Nat) (k : Fin 256) (c : CmdPkt) (eff : State → CmdRun → State × CmdEnd) : Prop :=
  exec i s = .next (s.afterPins (s.accepted op k c eff))

/-! ### What claims say of the update slices -/

/-- Lane `e` of a vector operand under a mode. -/
def Slice.lane (x : Slice) (mode r e : Nat) : Nat := (x.vget mode r).getD e 0

/-- The value of a lane of a vector operand (R123). -/
def Slice.value (x : Slice) (mode r e : Nat) : Val := fpDecode (modeFmt mode) (x.lane mode r e)

/-- The instruction of slice `k` ended normally: the slice is `y` but for its place in the program, which moves on from the
instruction (R127), and nothing else of the machine has changed but the register words that `t` gives. -/
def SliceDone (s t : State) (k : Fin 16) (y : Slice) : Prop :=
  t = { s.setSlice k.val { y with pc := (Slice.loopEnd (s.slice k.val).loops (s.slice k.val).pc).1
                                  loops := (Slice.loopEnd (s.slice k.val).loops (s.slice k.val).pc).2 } with regs := t.regs }

/-- Only the counter of NaNs of slice `k` may differ, by `n` more, saturating (R14, R124). -/
def NansCounted (s t : State) (k : Fin 16) (n : Nat) : Prop :=
  (t.rd .updArithNan k.val).toNat = min ((s.rd .updArithNan k.val).toNat + n) 0xFFFFFFFF ∧
    ∀ (r : Reg) (o : Nat), r.key o ≠ Reg.updArithNan.key k.val → t.rd r o = s.rd r o

/-- A vector instruction ended normally: lanes of `vd` whose mask bit is set hold `res`, the others keep their value, no other
register of the slice changes, and the lanes written with a NaN that no operand in `ops` was are counted (R124). -/
def VectorDone (s : State) (i : Instr) (k : Fin 16) (mode vd mask : Nat) (ops : Nat → List Val) (res : Nat → Nat) : Prop :=
  let x := s.slice k.val
  ∃ (t : State) (v : Tbl (BitVec 16384)), exec i s = .next t ∧ SliceDone s t k { x with v := v } ∧
    (∀ e, e < modeElems mode → Slice.lane { x with v := v } mode vd e =
      if (x.mget mask).getLsbD e then res e % 2 ^ modeWidth mode else x.lane mode vd e) ∧
    (∀ r, r ≠ vd → (mode = 3 → r ≠ vd + 1) → Slice.vreg { x with v := v } r = x.vreg r) ∧
    NansCounted s t k ((List.range (modeElems mode)).filter fun e => (x.mget mask).getLsbD e &&
      valIsNan (fpDecode (modeFmt mode) (res e)) && !((ops e).any valIsNan)).length

/-- An instruction of slice `k` ended in a kernel fault (R141): the slice stops with its registers as they were, no invocation is left
to start on any slice, and where no fault is recorded yet UPD.FAULT and UPD.FAULT_PC take the code, the stream, the kernel slot and
the pc. -/
def SliceFaulted (s u : State) (k : Fin 16) (code stream : Nat) : Prop :=
  let x := s.slice k.val
  u.slice k.val = { x with stopped := true, todo := [] } ∧ (∀ j, j ≠ k.val → u.slice j = { s.slice j with todo := [] }) ∧
    (s.fld .updFault 16 8 k.val = 0 → u.rd .updFault k.val = BitVec.ofNat 32 (code * 2 ^ 16 + stream * 2 ^ 12 +
        ((s.upd.run.map Dispatcher.kernel).getD 0) * 2 ^ 8) ∧ u.rd .updFaultPc k.val = BitVec.ofNat 32 x.pc) ∧
    (s.fld .updFault 16 8 k.val ≠ 0 → u.rd .updFault k.val = s.rd .updFault k.val ∧ u.rd .updFaultPc k.val = s.rd .updFaultPc k.val) ∧
    (u.rd .updIntStatus).getLsbD 2 = true ∧ u.mem = s.mem ∧ u.acc = s.acc ∧ u.host = { s.host with msixPending := u.host.msixPending }

/-- A vector instruction that computes nothing ended normally: the lanes of `vd` are `res` and nothing else changes. -/
def LanesWritten (s : State) (i : Instr) (k : Fin 16) (mode vd : Nat) (res : Nat → Nat) : Prop :=
  let x := s.slice k.val
  ∃ (t : State) (v : Tbl (BitVec 16384)), exec i s = .next t ∧ SliceDone s t k { x with v := v } ∧ t.regs = s.regs ∧
    (∀ e, e < modeElems mode → Slice.lane { x with v := v } mode vd e = res e % 2 ^ modeWidth mode) ∧
    (∀ r, r ≠ vd → (mode = 3 → r ≠ vd + 1) → Slice.vreg { x with v := v } r = x.vreg r)

/-- An instruction that writes a mask register ended normally: bit `e` of the register is `bit e`, and nothing else changes. -/
def MaskWritten (s : State) (i : Instr) (k : Fin 16) (md : Nat) (bit : Nat → Bool) : Prop :=
  ∃ (t : State) (m : BitVec 1024), exec i s = .next t ∧ SliceDone s t k ((s.slice k.val).mput md m) ∧ t.regs = s.regs ∧
    ∀ e, e < 1024 → m.getLsbD e = bit e

/-- A scalar instruction ended normally: register `sd` is `v` (s0 stays 0, R122), and nothing else changes. -/
def ScalarWritten (s : State) (i : Instr) (k : Fin 16) (sd : Nat) (v : W64) : Prop :=
  ∃ t : State, exec i s = .next t ∧ SliceDone s t k ((s.slice k.val).sput sd v) ∧ t.regs = s.regs

/-- The value of a magnitude of a format as an encoding gives it (R99), the encodings above the largest finite one read in the same way. -/
def FpFormat.magnitude (f : FpFormat) (g : Nat) : ℚ :=
  let low : Int := 1 - (f.bias : Int) - (f.manBits : Int)
  if g / 2 ^ f.manBits = 0 then (g : ℚ) * 2 ^ low
  else ((2 ^ f.manBits + g % 2 ^ f.manBits : Nat) : ℚ) * 2 ^ (low + (g / 2 ^ f.manBits : Nat) - 1)

/-- Commands of the Bruix block. -/
def onSite : Instr → Bool
  | .admitSite .. | .tagOpen .. | .tagClose .. | .tagCommit .. | .directive .. | .resetDomain .. | .routeStage .. | .routeCommit .. | .freeze ..
  | .regRead .. | .regWrite .. | .leave .. | .streamPacketArrival .. | .consume .. | .gradientSlice .. | .gradientPacketTx .. | .tapElement ..
  | .tileSelect .. | .sampleCaptureDone .. | .sampleCaptureTimeout .. | .lease .. | .cursorAdvance .. | .stepDone .. | .stepReportTx ..
  | .progressPulse .. | .watchdogExpiry .. | .abortMarkerRx .. | .fabricTransferGate .. | .abortDone .. | .domReady .. | .routeLookup ..
  | .freezeCaptureDone .. | .endOfSliceTx | .fabricLifetimeElapsed | .abortIncomplete | .domainResetHoldEnd | .domainReadyTimeout | .routeSwap
  | .brxFreezeRelease | .brxCapLock | .brxPor | .presenceTx => true
  | _ => false

/-- Commands that may reach either chip: accesses of the register windows, and events of a link. -/
def onBoth : Instr → Bool
  | .regWriteGeneral .. | .rcRegisterRead .. | .regPairLoRead .. | .regPairHiRead .. | .regPairLoWrite .. | .regPairHiWrite ..
  | .regPair8bAccess .. | .frameRx .. | .nakRepeat .. | .replayStart .. | .ackTimeout .. | .linkEscalate .. | .peerDetect .. | .detectTimeout ..
  | .alignMeasureDone .. | .equaliseDone .. | .paramExchange .. | .autoRetrain .. | .frameTx .. | .linkReplayRate .. => true
  | _ => false

end Sys2Proof.Machine
end

