-- ==== Sys2Proof/WellFormed.lean ====
section
/-! DEFINITION. Well-formed commands: operands that can stand on the wires and ports of the block. The fields whose width is fixed are typed,
so that only lengths are left to check. -/
namespace Sys2Proof
open Machine

/-- A command packet has at most 192 bytes of parameters (R404). -/
def Machine.CmdPkt.wf (c : CmdPkt) : Bool := c.params.length ≤ 192

/-- A packet has the bytes of content that its header gives (R261). -/
def Machine.Packet.wf (p : Packet) : Bool := p.content.length == p.hdr.length.toNat

/-- A control message, with its envelope of 16 bytes, fills whole flits (R214, R217). -/
def Machine.CtlMsg.wf (m : CtlMsg) : Bool := (16 + m.bytes.length) % 32 == 0

/-- A frame has at most 23 flit slots, and at most its 640 symbols are wrong (R253 to R255). -/
def Machine.Frame.wf (f : Frame) : Bool := f.slots.length ≤ 23 && f.errors.length ≤ 640

/-- The opcode, slot and packet of a host command (R416). -/
def Machine.hostOp : Instr → Option (Nat × Fin 256 × CmdPkt)
  | .noop k c => some (0x0001, k, c)
  | .cmdQuery k c => some (0x0002, k, c)
  | .jobStatus k c => some (0x0003, k, c)
  | .siteCap k c => some (0x0004, k, c)
  | .siteRegRead k c => some (0x0005, k, c)
  | .windowMap k c => some (0x0101, k, c)
  | .windowUnmap k c => some (0x0102, k, c)
  | .kernelLoad k c => some (0x0103, k, c)
  | .kernelUnload k c => some (0x0104, k, c)
  | .profileLoad k c => some (0x0105, k, c)
  | .profileUnload k c => some (0x0106, k, c)
  | .spokeTrain k c => some (0x0107, k, c)
  | .torusTrain k c => some (0x0108, k, c)
  | .bedrockTargets k c => some (0x0109, k, c)
  | .fillArm k c => some (0x010A, k, c)
  | .fillSend k c => some (0x010B, k, c)
  | .pairRejoin k c => some (0x010C, k, c)
  | .tileCopy k c => some (0x010D, k, c)
  | .observeSet k c => some (0x010E, k, c)
  | .evrClear k c => some (0x010F, k, c)
  | .fwStage k c => some (0x0110, k, c)
  | .attest k c => some (0x0111, k, c)
  | .regionQuota k c => some (0x0201, k, c)
  | .jobStage k c => some (0x0202, k, c)
  | .pelotonLoad k c => some (0x0203, k, c)
  | .jobStart k c => some (0x0204, k, c)
  | .jobTeardown k c => some (0x0205, k, c)
  | .scheduleLoad k c => some (0x0206, k, c)
  | .paramsSet k c => some (0x0207, k, c)
  | .jobRollback k c => some (0x0208, k, c)
  | .stepRetry k c => some (0x0209, k, c)
  | .jobResume k c => some (0x020A, k, c)
  | .siteReset k c => some (0x020B, k, c)
  | .derailStage k c => some (0x020C, k, c)
  | .pageRepair k c => some (0x020D, k, c)
  | .buddySeed k c => some (0x020E, k, c)
  | .positionAssign k c => some (0x020F, k, c)
  | .positionClear k c => some (0x0210, k, c)
  | .siteRegWrite k c => some (0x0211, k, c)
  | .siteFreeze k c => some (0x0212, k, c)
  | .bedrockStart k c => some (0x0213, k, c)
  | .bedrockArm k c => some (0x0214, k, c)
  | .bedrockDisarm k c => some (0x0215, k, c)
  | .bedrockAbandon k c => some (0x0216, k, c)
  | .bedrockRestore k c => some (0x0217, k, c)
  | .pairSwitch k c => some (0x0218, k, c)
  | .pairWithdraw k c => some (0x0219, k, c)
  | _ => none

/-- The packet that arrives with a command. -/
def Instr.packet : Instr → Option Packet
  | .gradientPacketRx _ p | .endOfSliceRx _ p | .sampleRecordRx _ p | .tapReportRx _ p | .signatureRx _ p
  | .streamPacketArrival p | .packetRoute _ _ p | .xferRx _ p | .landRequest p | .landGrant p | .landAck p | .landRefuse p
  | .collUp p | .collDown p | .prepare p | .ready p _ | .startRefuse p _ | .startCommit p | .cancel p | .committed p
  | .query p _ | .outcome p | .teardown p | .gone p => some p
  | _ => none

/-- The control message that arrives with a command. -/
def Instr.message : Instr → Option CtlMsg
  | .windowRelease _ m | .admitSite _ m | .tagOpen _ m | .tagClose _ m | .tagCommit _ m | .directive _ m | .resetDomain _ m
  | .routeStage _ m | .routeCommit _ m | .freeze _ m | .regRead _ m | .regWrite _ m | .leave _ m | .ack _ m | .stepReport _ m
  | .hang _ m | .abortSeen _ m | .receivedThrough _ m | .regData _ m | .freezeData _ m | .heartbeat m
  | .journal m | .journalResend m | .apply m | .handover m | .items m | .root m | .record m | .gateClose m | .verdicts m
  | .result m | .jobAlarm m | .pairAck m => some m
  | .pairDirective m => some m.msg
  | _ => none

/-- Byte strings and numbers whose width no rule's layout fixes keep to it: within a command slot of 256 bytes (R402), within a bulk window
of 256 MiB (R413), a frame of 2 MiB (R60), the 10 numbers that rank a clock (R431), a code for each unit of the floor plan table (R468), a signed
temperature of 8 bits (R512). -/
def Instr.sized : Instr → Bool
  | .hostSlotWrite _ off bytes => off.val + bytes.length ≤ 256
  | .windowPageAccess _ off n data => off.toNat + n ≤ 2 ^ 28 && data.all fun d => d.length == n
  | .frameRx _ f => f.wf
  | .repairCopyRx data => data.length == 2 ^ 21
  | .ptpAnnounce _ vector => vector.length == 10
  | .bistDone codes => codes.length == 72
  | .thermalSample tj => decide (-128 ≤ tj ∧ tj < 128)
  | _ => true

/-- A command is well formed: what it carries has the length that the wires and ports give it. -/
def Instr.wf (i : Instr) : Bool :=
  i.sized && (hostOp i).all (fun e => e.2.2.wf) && i.packet.all Packet.wf && i.message.all CtlMsg.wf

end Sys2Proof
end

