-- ==== Sys2Proof/Certificates/Slice0/Obligations.lean ====
section
/-! DEFINITION. The statements for the provers. -/
open Sys2Proof Sys2Proof.Machine

/-- A step takes the command at the front of the queue and runs its meaning with the queue's rest. -/
def Obligations.StepRunsFront : Prop :=
  ∀ (s : State) (c : Instr) (rest : List Instr), s.pending = c :: rest → step s = exec c { s with pending := rest }

/-- Every command is answered with a next state, in every state; none touches the queue. A command of the controller leaves the Bruix block as
it is, and a command of the block the controller, but for the registers, ports, messages and free values that the record of both holds (R207,
R209; log entry 1). -/
def Obligations.CommandsAnswer : Prop :=
  ∀ (c : Instr) (s : State), ∃ t, exec c s = .next t ∧ t.pending = s.pending ∧
    (onSite c = false → onBoth c = false → t.brx = s.brx) ∧ (onSite c = true → t = s.siteParts t)

/-- Where neither the state before nor the state after an effect has a job, a command in work, a collective, a signature, a repair, a switch,
a rejoin, a waiting kernel change or a sample credit to withhold or return, the effect leaves nothing due: the command answers the effect
itself. -/
def Obligations.NothingLeftDue : Prop :=
  ∀ (s u : State), s.quiet = true → u.quiet = true → s.after u = u.keeping s s.brx ∧ s.afterLink u = (State.brxPin s u).keeping s u.brx ∧
    s.afterPins u = (State.pinsFrom s u).keeping s s.brx ∧ s.afterAccess u = (State.brxPin s (State.pinsFrom s u)).keeping s u.brx

/-- The machine after reset: nothing waits, no memory is written, no job is held, every register reads its reset value (R427, R518), the
Bruix block is as after BRX_POR_N (R227) and in order, and nothing is due. Values that the spec does not give are those of log entries 5 to
7. -/
def Obligations.ResetState : Prop :=
  let s := State.reset
  s.pending = [] ∧ s.outbox = [] ∧ s.mem = [] ∧ Memory.wf s.mem = true ∧ s.jobs = [] ∧ s.quiet = true ∧ s.siteOk = true ∧
    (∀ r o, s.rd r o = s.resetReg r o) ∧ (∀ p, s.port p = portInit p) ∧ (∀ k, s.slice k = Slice.init) ∧
    s.tmu.dom0.t = 0 ∧ s.tmu.dom0.valid = false ∧ s.tmu.dom1.t = 0 ∧ s.tmu.dom1.valid = false ∧ s.fld .tmuCtrl 0 1 = 0 ∧ s.tmu.resid = 0 ∧
    s.rd .tmuFreqAdj 0 = 0 ∧ s.rd .tmuFreqAdj 1 = 0 ∧ s.outTime = 0 ∧ s.brx.gen = 0 ∧ s.brx.job = 0 ∧ s.brx.older = none ∧ s.brx.newer = none ∧
    (∀ f, f < 4 → s.brx.cursors.getD f 0 = BitVec.allOnes 64) ∧ s.host.device = 0 ∧ s.host.journal = [] ∧ s.store.quota = []

/-- Every step keeps the Bruix block in order (R47, R215, R218, R223, R232, R235, R238): a newer tag stands only over an older one and
follows it, no tag is open without a job, and its lists keep their bounds. -/
def Obligations.SiteOrderKept : Prop :=
  ∀ (s t : State), s.siteOk = true → step s = .next t → t.siteOk = true

/-- The words of the slice instructions decode to the instruction that they encode, with every operand at every value, and every word is the
encoding of what it decodes to (R126 to R128). -/
def Obligations.SliceWordsRoundTrip : Prop :=
  (∀ (i : Instr) (k : Fin 16) (w : W32), encodeSlice i = some (k, w) → decodeSlice k w = i) ∧
    (∀ (k : Fin 16) (w : W32), encodeSlice (decodeSlice k w) = some (k, w))

/-- Every instruction of a slice is one 32-bit word in one of the forms of R126, its fields listed from bit 31 down. -/
def Obligations.SliceWordForms : Prop :=
  ∀ (k : Fin 16) (a b c d : Fin 32) (mask mode slot field : Fin 8) (fr sel : Byte) (stream rsv4 : Fin 16) (rsv6 : Fin 64) (rsv2 : Fin 4)
    (imm : BitVec 16),
    let f5 := fun (x : Fin 32) => BitVec.ofFin (w := 5) x
    let f3 := fun (x : Fin 8) => BitVec.ofFin (w := 3) x
    let f4 := fun (x : Fin 16) => BitVec.ofFin (w := 4) x
    -- V and VS
    (∀ e ∈ ([(0x01, .vadd k a b c d mask mode), (0x02, .vsub k a b c d mask mode), (0x03, .vmul k a b c d mask mode),
        (0x04, .vfma k a b c d mask mode), (0x05, .vfnma k a b c d mask mode), (0x06, .vmax k a b c d mask mode),
        (0x07, .vmin k a b c d mask mode), (0x08, .vabs k a b c d mask mode), (0x09, .vneg k a b c d mask mode),
        (0x0A, .vsel k a b c d mask mode), (0x0B, .vcmp k a b c d mask mode), (0x0C, .vclass k a b c d mask mode),
        (0x0D, .vmov k a b c d mask mode), (0x10, .vadds k a b c d mask mode), (0x11, .vmuls k a b c d mask mode),
        (0x12, .vfmas k a b c d mask mode), (0x13, .vbcast k a b c d mask mode), (0x18, .vdiv k a b c d mask mode),
        (0x19, .vsqrt k a b c d mask mode), (0x1A, .vrsqrt k a b c d mask mode)] : List (BitVec 6 × Instr)),
      encodeSlice e.2 = some (k, e.1 ++ f5 a ++ f5 b ++ f5 c ++ f5 d ++ f3 mask ++ f3 mode)) ∧
    -- C
    encodeSlice (.vcvt k a b fr sel) = some (k, (0x0E : BitVec 6) ++ f5 a ++ f5 b ++ fr ++ sel) ∧
    -- T
    (∀ e ∈ ([(0x20, .vld k a b stream sel rsv4), (0x21, .vst k a b stream sel rsv4), (0x22, .vtld k a b stream sel rsv4),
        (0x23, .vtst k a b stream sel rsv4), (0x24, .vseek k a b stream sel rsv4)] : List (BitVec 6 × Instr)),
      encodeSlice e.2 = some (k, e.1 ++ f5 a ++ f5 b ++ f4 stream ++ sel ++ f4 rsv4)) ∧
    -- D
    (∀ e ∈ ([(0x28, .vaccsq k a b slot field rsv4 mask mode), (0x29, .vwelf k a b slot field rsv4 mask mode),
        (0x2A, .vhsum k a b slot field rsv4 mask mode), (0x2B, .rdget k a b slot field rsv4 mask mode),
        (0x2C, .rdclr k a b slot field rsv4 mask mode)] : List (BitVec 6 × Instr)),
      encodeSlice e.2 = some (k, e.1 ++ f5 a ++ f5 b ++ f3 slot ++ f3 field ++ f4 rsv4 ++ f3 mask ++ f3 mode)) ∧
    -- S
    (∀ e ∈ ([(0x30, .sadd k a b c d rsv6), (0x33, .sfop k a b c d rsv6), (0x34, .scvt k a b c d rsv6)] : List (BitVec 6 × Instr)),
      encodeSlice e.2 = some (k, e.1 ++ f5 a ++ f5 b ++ f5 c ++ f5 d ++ BitVec.ofFin (w := 6) rsv6)) ∧
    -- SI
    (∀ e ∈ ([(0x31, .saddi k a b imm), (0x32, .sli k a b imm), (0x35, .sldp k a b imm), (0x36, .sldb k a b imm), (0x37, .sstb k a b imm),
        (0x38, .loop k a b imm), (0x3C, .signal k a b imm)] : List (BitVec 6 × Instr)),
      encodeSlice e.2 = some (k, e.1 ++ f5 a ++ f5 b ++ imm)) ∧
    -- B
    (∀ e ∈ ([(0x39, .br k a mask rsv2 imm), (0x3A, .fence k a mask rsv2 imm), (0x3B, .halt k a mask rsv2 imm)] : List (BitVec 6 × Instr)),
      encodeSlice e.2 = some (k, e.1 ++ f5 a ++ f3 mask ++ BitVec.ofFin (w := 2) rsv2 ++ imm))

/-- A conversion rounds the exact value once (R103, R105): between the two magnitudes of the format that bracket it RNE takes the nearer one,
a tie the even one, RTZ the smaller one, and SR the larger one as the stochastic word says; what rounds above the largest finite magnitude,
an infinity and a NaN become what the table of R105 gives. -/
def Obligations.ConversionRoundsOnce : Prop :=
  (∀ (code : Nat) (f : FpFormat) (neg sat : Bool) (m : Nat) (e : Int) (mode r g : Nat), fpFormat code = some f → mode < 3 → r < 2 ^ 32 →
    let v := (m : ℚ) * 2 ^ e
    let a := f.magnitude g
    let b := f.magnitude (g + 1)
    a ≤ v → v < b →
      let up := (mode = 0 ∧ (b - v < v - a ∨ (v - a = b - v ∧ g % 2 = 1))) ∨ (mode = 2 ∧ (2 : ℚ) ^ 32 ≤ ⌊(v - a) / (b - a) * 2 ^ 32⌋ + r)
      let mag := fun (h : Nat) => if h ≤ f.maxMag then h else if f.hasInf ∧ sat = false ∧ mode ≠ 1 then f.maxMag + 1 else f.maxMag
      let sign := if neg then 2 ^ (f.width - 1) else 0
      (up → (fpConvert f sat mode r (.fin neg m e)).1 = sign + mag (g + 1)) ∧
      (¬ up → (fpConvert f sat mode r (.fin neg m e)).1 = sign + mag g)) ∧
  -- an infinity and a NaN
  (∀ (code : Nat) (f : FpFormat) (neg sat : Bool) (mode r : Nat), fpFormat code = some f →
    (fpConvert f sat mode r (.inf neg)).1 = (if neg then 2 ^ (f.width - 1) else 0) + (if f.hasInf ∧ sat = false then f.maxMag + 1 else f.maxMag) ∧
    (fpConvert f sat mode r .nan).1 = f.nanBits.getD 0) ∧
  -- INT8
  (∀ (mx neg : Bool) (m : Nat) (e : Int) (mode r g : Nat), mode < 3 → r < 2 ^ 32 →
    let v := (m : ℚ) * 2 ^ e
    let gap : ℚ := if mx then 2 ^ (-6 : Int) else 1
    (g : ℚ) * gap ≤ v → v < (g + 1) * gap →
      let frac := v / gap - g
      let up := (mode = 0 ∧ (1 - frac < frac ∨ (frac = 1 - frac ∧ g % 2 = 1))) ∨ (mode = 2 ∧ (2 : ℚ) ^ 32 ≤ ⌊frac * 2 ^ 32⌋ + r)
      let byte := fun (h : Nat) => (if neg then -(min h 127 : Int) else min h 127)
      (up → (int8Convert mx mode r (.fin neg m e)).1 = (BitVec.ofInt 8 (byte (g + 1))).toNat) ∧
      (¬ up → (int8Convert mx mode r (.fin neg m e)).1 = (BitVec.ofInt 8 (byte g)).toNat)) ∧
  (∀ (mx neg : Bool) (mode r : Nat), (int8Convert mx mode r (.inf neg)).1 = (if neg then 0x81 else 0x7F) ∧ (int8Convert mx mode r .nan).1 = 0)

/-- An encoding that is finite, read exactly and converted back, is itself in every mode (R99, R103), and the exact operations of R16 are
exact: sums over a common scale, quotients that come out even, and roots. -/
def Obligations.ExactValues : Prop :=
  (∀ (code : Nat) (f : FpFormat) (x : Nat) (neg sat : Bool) (m : Nat) (e : Int) (mode r : Nat), fpFormat code = some f → x < 2 ^ f.width →
    fpDecode f x = .fin neg m e → fpConvert f sat mode r (.fin neg m e) = (x, .none)) ∧
  (∀ (n1 n2 : Bool) (m1 m2 : Nat) (e1 e2 : Int), ∃ n m, valAdd (.fin n1 m1 e1) (.fin n2 m2 e2) = .fin n m (min e1 e2) ∧
    valInt n m (min e1 e2) (min e1 e2) = valInt n1 m1 e1 (min e1 e2) + valInt n2 m2 e2 (min e1 e2)) ∧
  (∀ (f : FpFormat) (n1 n2 : Bool) (m k : Nat) (e1 e2 : Int), k ≠ 0 → m ≠ 0 →
    fpDiv f (.fin n1 (m * k) e1) (.fin n2 k e2) = rne f (.fin (n1 != n2) m (e1 - e2))) ∧
  (∀ (f : FpFormat) (m : Nat) (e : Int), m ≠ 0 → fpSqrt f (.fin false (m * m) (2 * e)) = rne f (.fin false m e)) ∧
  (∀ n, isqrt n * isqrt n ≤ n ∧ n < (isqrt n + 1) * (isqrt n + 1))

/-- Elements are packed without gaps (R101): element `k` of width `w` occupies bits `w·k` up of the bytes read as one little-endian bit
string. -/
def Obligations.PackedWithoutGaps : Prop :=
  ∀ (w : Nat) (l : List Nat), (packBits w l).length = (w * l.length + 7) / 8 ∧ leNat (packBits w l) < 2 ^ (w * l.length) ∧
    (∀ k, k < l.length → leNat (packBits w l) / 2 ^ (w * k) % 2 ^ w = l.getD k 0 % 2 ^ w) ∧
    (∀ i, w = 4 → 2 * i + 1 < l.length → (packBits w l).getD i 0 = BitVec.ofNat 8 (l.getD (2 * i) 0 % 16 + l.getD (2 * i + 1) 0 % 16 * 16)) ∧
    (w = 6 → l.length = 4 → (packBits w l).length = 3)

/-- Counters saturate at their maximum unless their meaning says that they wrap (R14). -/
def Obligations.CountersSaturate : Prop :=
  ∀ (s : State) (r : Reg) (n o : Nat), let t := s.bumpBy r n o
    (r.wraps = false → (t.rd r o).toNat = min ((s.rd r o).toNat + n) 0xFFFFFFFF) ∧
    (r.wraps = true → (t.rd r o).toNat = ((s.rd r o).toNat + n) % 2 ^ 32) ∧
    (∀ q p, q.key p ≠ r.key o → t.rd q p = s.rd q p) ∧ t = { s with regs := t.regs }

/-- Reads of BAR0 registers (R11 rules 2, 6, 7 and 8, R12, R518): the value, what it clears, and the shadow of a pair; a narrow read gives zeros. -/
def Obligations.RegisterReads : Prop :=
  ∀ (s : State) (off : BitVec 24),
    let a := off.toNat
    let out := fun (t : State) (w : W32) => t.emit (.readData (leBytes 4 w.toNat))
    (∀ (site : Bool) (n : Fin 5), n ≠ 4 →
      exec (.rcRegisterRead site ⟨n, off⟩) s = .next (s.emit (.readData (List.replicate n.val 0)))) ∧
    (a % 4 ≠ 0 → exec (.rcRegisterRead false ⟨4, off⟩) s = .next (out s 0)) ∧
    (a % 4 = 0 → s.regAt a = none → (a < 0x148000 ∨ 0x149008 ≤ a) → exec (.rcRegisterRead false ⟨4, off⟩) s = .next (out s 0)) ∧
    ∀ (r : Reg) (o i : Nat), s.regAt a = some (r, o, i) →
      let k := o * r.row.count + i
      let v := s.live r o i &&& ~~~(BitVec.ofNat 32 (r.row.maskOf .wo))
      (r.hi? = none → r.lo? = none → ∃ t, exec (.rcRegisterRead false ⟨4, off⟩) s = .next t ∧
        t = { s with regs := t.regs, pwr := { s.pwr with tjPeak := t.pwr.tjPeak }
                     outbox := s.outbox ++ [.readData (leBytes 4 v.toNat)] } ∧
        (r.row.maskOf .rc = 0 → t.regs = s.regs ∧ t.pwr = s.pwr) ∧
        (r ≠ .pwrTherm → t.pwr = s.pwr ∧ (∀ b, b < 32 → (t.rd r k).getLsbD b =
          if (r.row.maskOf .rc).testBit b then r.row.resetWord.testBit b else (s.rd r k).getLsbD b) ∧
          ∀ q p, q.key p ≠ r.key k → t.rd q p = s.rd q p)) ∧
      (∀ h, r.hi? = some h →
        exec (.regPairLoRead false off) s = .next (out { s with shadow := Tbl.set s.shadow a (s.live h o i) } v)) ∧
      (∀ l, r.lo? = some l → r.hi? = none →
        (Tbl.has s.shadow (a - 4) = true → exec (.regPairHiRead false off) s =
          .next (out { s with shadow := Tbl.erase s.shadow (a - 4) } (Tbl.get s.shadow 0 (a - 4)))) ∧
        (Tbl.has s.shadow (a - 4) = false → exec (.regPairHiRead false off) s = .next (out s v)))

/-- Writes of BAR0 registers (R10, R11 rules 3, 4 and 6 to 8, R12). -/
def Obligations.RegisterWrites : Prop :=
  ∀ (s : State) (off : BitVec 24) (v : W32) (w : W64),
    let a := off.toNat
    let masked := fun (r : Reg) (c : Access) (b : Nat) => (r.row.maskOf c).testBit b
    (∀ (site : Bool) (n : Fin 5), n ≠ 4 → exec (.regWriteGeneral site ⟨n, off⟩ v) s = .next (s.afterAccess s)) ∧
    (a % 4 ≠ 0 → exec (.regWriteGeneral false ⟨4, off⟩ v) s = .next (s.afterAccess s)) ∧
    ∀ (r : Reg) (o i : Nat), s.regAt a = some (r, o, i) →
      (r.hi? = none → r.lo? = none → r.writeActs = false → ∃ u, exec (.regWriteGeneral false ⟨4, off⟩ v) s = .next (s.afterAccess u) ∧
        u = { s with regs := u.regs } ∧ (∀ q p, q.key p ≠ r.key (o * r.row.count + i) → u.rd q p = s.rd q p) ∧
        ∀ b, b < 32 → (u.rd r (o * r.row.count + i)).getLsbD b =
          ((if masked r .rw b || masked r .rwl b then v.getLsbD b else (s.rd r (o * r.row.count + i)).getLsbD b) &&
            !(masked r .rw1c b && v.getLsbD b))) ∧
      (∀ h, r.hi? = some h →
        exec (.regPairLoWrite false off v) s = .next (s.afterAccess { s with heldLo := Tbl.set s.heldLo a v }) ∧
        exec (.regPair8bAccess false off (some w)) s = .next (s.afterAccess
          (({ s with heldLo := Tbl.erase s.heldLo a }).pairWrite r h o i (w.setWidth 32) ((w >>> 32).setWidth 32)))) ∧
      (∀ h, r.hi? = some h → exec (.regPair8bAccess false off none) s = .next (s.afterAccess (s.emit (.readData
          (leBytes 4 (s.live r o i &&& ~~~(BitVec.ofNat 32 (r.row.maskOf .wo))).toNat ++
           leBytes 4 (s.live h o i &&& ~~~(BitVec.ofNat 32 (h.row.maskOf .wo))).toNat))))) ∧
      (∀ l, r.lo? = some l → r.hi? = none →
        (Tbl.has s.heldLo (a - 4) = true → exec (.regPairHiWrite false off v) s = .next (s.afterAccess
          (({ s with heldLo := Tbl.erase s.heldLo (a - 4) }).pairWrite l r o i (Tbl.get s.heldLo 0 (a - 4)) v))) ∧
        (Tbl.has s.heldLo (a - 4) = false → exec (.regPairHiWrite false off v) s = .next (s.afterAccess (s.regWrite r o i v)))) ∧
      (∀ h, r.hi? = some h → r.writeActs = false → h.writeActs = false → ∀ x y : W32,
        s.pairWrite r h o i x y = (s.keep r (o * r.row.count + i) false x).keep h (o * h.row.count + i) false y)

/-- Class Q (R405 to R407, R409, R416): a query is answered at once in its slot, is not journalled, and may reuse an ID. -/
def Obligations.QueriesAnswerInTheSlot : Prop :=
  ∀ (s : State) (k : Fin 256) (c : CmdPkt),
    let t := fun (op : Nat) => s.posted op k c
    let reply := fun (op : Nat) (u : State) (code : Nat) (v : W64) =>
      (u.pagesBack (c.pages op)).slotReply k.val (u.replyBytes (c.ident op) op 3 1 code 0 0 v) (c.irqOnReply op)
    (s.admits 0x0001 k c = true →
      exec (.noop k c) s = .next (s.afterPins (reply 1 (t 1) 0 (BitVec.ofNat 64 s.pair.role.code)))) ∧
    (s.admits 0x0002 k c = true → exec (.cmdQuery k c) s = .next (s.afterPins ((t 2).slotReply k.val
      (match s.entry? (BitVec.ofNat 64 (fieldLE (c.given 2) 0 8)) with
        | some e => replyFlags (s.recorded e) 8
        | none => s.replyBytes (BitVec.ofNat 64 (fieldLE (c.given 2) 0 8)) 2 3 1 0x0113 0 0 0) (c.irqOnReply 2)))) ∧
    (s.admits 0x0003 k c = true → ∀ j, s.job? (c.jobId 3) = some j →
      exec (.jobStatus k c) s = .next (s.afterPins (reply 3 ((t 3).jobStatus j (c.given 3)) 0 0))) ∧
    (s.admits 0x0004 k c = true → ∀ b, s.host.siteCap.find? (fun e => e.1 == fieldLE (c.given 4) 0 1) = some b →
      exec (.siteCap k c) s = .next (s.afterPins (reply 4 ((t 4).wrefPut (c.given 4) 8 (sliceBytes b.2 0 256)) 0 0)))

/-- Class L (R405, R406, R416): what each side-local command does once accepted. -/
def Obligations.SideCommandsAct : Prop :=
  ∀ (s : State) (k : Fin 256) (c : CmdPkt),
    let go := fun (i : Instr) (op : Nat) (eff : State → CmdRun → State × CmdEnd) =>
      s.takes op k c = true → CommandAccepted s i op k c eff
    let f := fun (r : CmdRun) => fieldLE r.params
    let done := fun (t : State) => (t, cmdOk)
    let later := fun (t : State) => (t, (none : CmdEnd))
    go (.siteRegRead k c) 0x0005 (fun t r => later (t.siteSend (f r 0 1) 0x19 0 0 (leBytes 4 (f r 4 4) ++ leBytes 1 (f r 1 1) ++ [0, 0, 0]) r.id)) ∧
    go (.windowMap k c) 0x0101 (fun t r => done (t.windowMap r.job r.params)) ∧
    go (.windowUnmap k c) 0x0102 (fun t r =>
      done (({ t with host.windows := Tbl.erase t.host.windows (f r 0 1) }).refEnd (windowRef (f r 0 1)))) ∧
    -- a load or an unload takes effect between steps of every job (R138); M2 takes a load's digest on acceptance
    go (.kernelLoad k c) 0x0103 (fun t r =>
      let b := t.wrefBytes r.params 8
      let img := b.take (0x240 + 4 * fieldLE b 0x18 2)
      let m2 := shake256 (digestBytes t.sec.m2 ++ digestBytes (shake256 img))
      if s.kernelsIdle && s.host.kernelDue.isEmpty then
        (State.raise { t with host.kernels := Tbl.set t.host.kernels (f r 0 1) img, sec.m2 := m2 } .updIntStatus 0,
          some (0, 0, BitVec.ofNat 64 (fieldLE b 4 2)))
      else later { t with host.kernelDue := t.host.kernelDue ++ [⟨f r 0 1, some img, r.id⟩], sec.m2 := m2 }) ∧
    go (.kernelUnload k c) 0x0104 (fun t r =>
      if s.kernelsIdle && s.host.kernelDue.isEmpty then done { t with host.kernels := Tbl.erase t.host.kernels (f r 0 1) }
      else later { t with host.kernelDue := t.host.kernelDue ++ [⟨f r 0 1, none, r.id⟩] }) ∧
    go (.profileLoad k c) 0x0105 (fun t r =>
      let b := (t.wrefBytes r.params 8).take 64
      done { t with host.profiles := Tbl.set t.host.profiles (f r 0 1) b
                    sec.m2 := shake256 (digestBytes t.sec.m2 ++ digestBytes (shake256 b)) }) ∧
    go (.profileUnload k c) 0x0106 (fun t r => done { t with host.profiles := Tbl.erase t.host.profiles (f r 0 1) }) ∧
    go (.spokeTrain k c) 0x0107 (fun t r => later (t.trainMask 0 (f r 0 1) (f r 1 1))) ∧
    go (.torusTrain k c) 0x0108 (fun t r => later (t.trainMask 9 (f r 0 1) (f r 1 1))) ∧
    go (.bedrockTargets k c) 0x0109 (fun t r => done { t with host.targets := some ⟨BitVec.ofNat 64 (f r 0 8),
      (List.range (f r 12 4 / 16)).map fun i => (BitVec.ofNat 64 (fieldLE (t.wrefBytes r.params 8) (16 * i) 8),
        BitVec.ofNat 64 (fieldLE (t.wrefBytes r.params 8) (16 * i + 8) 8)), 0, []⟩ }) ∧
    go (.fillArm k c) 0x010A (fun t r => done (t.fillArm r.job (BitVec.ofNat 16 (f r 0 2)) (BitVec.ofNat 16 (f r 2 2)) r.id)) ∧
    go (.fillSend k c) 0x010B (fun t r => later (t.fillSend r.job (BitVec.ofNat 16 (f r 0 2)) (f r 2 1) r.id)) ∧
    go (.pairRejoin k c) 0x010C (fun t r => later (t.rejoinBegin r)) ∧
    go (.tileCopy k c) 0x010D (fun t r => done (t.tileCopy r.params)) ∧
    go (.observeSet k c) 0x010E (fun t r => done (t.observeSet (BitVec.ofNat 64 (f r 0 8)) (t.wrefBytes r.params 8))) ∧
    go (.evrClear k c) 0x010F (fun t _ => done t.evrClear) ∧
    go (.fwStage k c) 0x0110 (fun t r => done (t.fwStage (t.wrefBytes r.params 0))) ∧
    go (.attest k c) 0x0111 (fun t r =>
      later ({ t with sec.mailbox := t.sec.mailbox ++ [RotReq.attest r.id (t.attestRecord (r.params.take 32))] }).rotGo)

/-- Class P on a side that journals alone (R364, R366, R405, R416): what each pair command does once accepted. -/
def Obligations.PairCommandsAct : Prop :=
  ∀ (s : State) (k : Fin 256) (c : CmdPkt), s.partnerJournals = false → s.pair.partnerFailed = true → s.leads = true →
    let go := fun (i : Instr) (op : Nat) (eff : State → CmdRun → State × CmdEnd) =>
      s.takes op k c = true → CommandAccepted s i op k c eff
    let goJob := fun (i : Instr) (op : Nat) (eff : Job → State → CmdRun → State × CmdEnd) =>
      s.takes op k c = true → ∀ j, s.job? (c.jobId op) = some j → CommandAccepted s i op k c (eff j)
    let f := fun (r : CmdRun) => fieldLE r.params
    let done := fun (t : State) => (t, cmdOk)
    let later := fun (t : State) => (t, (none : CmdEnd))
    let atBoundary := fun (t : State) (r : CmdRun) => later (t.applyAt r (t.boundaryOf r))
    go (.regionQuota k c) 0x0201 (fun t r => done (t.regionQuota (f r 0 1) (f r 2 2) r.id)) ∧
    go (.jobStage k c) 0x0202 (fun t r =>
      done (t.setJob (Job.staged (f r 0 1) (t.wrefBytes r.params 8) (t.wrefBytes r.params 16)))) ∧
    go (.pelotonLoad k c) 0x0203 (fun t r =>
      let b := t.wrefBytes r.params 0
      if (t.pelUsers (fieldLE b 0xD 1)).isEmpty then done { t with tor.peloton := Tbl.set t.tor.peloton (fieldLE b 0xD 1) (pelOf b) }
      else atBoundary t r) ∧
    goJob (.jobStart k c) 0x0204 (fun j t r => later
      ((t.startBegin j.id r.id j.firstStart (((t.pel j.pelSlot).map PelTable.gen).getD 0) (shake256 j.desc)).startGo j.id)) ∧
    goJob (.jobTeardown k c) 0x0205 (fun j t r => later (t.teardownBegin j.id r.id (f r 0 1 == 0))) ∧
    go (.scheduleLoad k c) 0x0206 atBoundary ∧
    go (.paramsSet k c) 0x0207 atBoundary ∧
    go (.jobRollback k c) 0x0208 atBoundary ∧
    goJob (.stepRetry k c) 0x0209 (fun j t r => later (t.resumeCmd j r)) ∧
    goJob (.jobResume k c) 0x020A (fun j t r => later (t.resumeCmd j r)) ∧
    goJob (.siteReset k c) 0x020B (fun j t r => later (t.siteReset j.id (f r 0 1) (f r 2 2) r.id)) ∧
    goJob (.derailStage k c) 0x020C (fun j t r =>
      later (t.derailStage j.id (f r 0 1) (t.wrefBytes r.params 8) (BitVec.ofNat 256 (f r 16 32)) r.id)) ∧
    goJob (.buddySeed k c) 0x020E (fun j t r => later ((t.seedSend j.id).modRun r.id fun r => { r with stage := 1 })) ∧
    go (.positionAssign k c) 0x020F (fun t r => done (({ t with tor.position := some (BitVec.ofNat 16 (f r 0 2)) }).surveyAll)) ∧
    go (.positionClear k c) 0x0210 (fun t _ => done (({ t with tor.position := none }).surveyAll)) ∧
    go (.siteRegWrite k c) 0x0211 (fun t r =>
      later (t.siteSend (f r 0 1) 0x1A r.id 0 (leBytes 4 (f r 4 4) ++ leBytes 4 (f r 8 4)) r.id)) ∧
    go (.siteFreeze k c) 0x0212 (fun t r => later (t.siteSend (f r 0 1) 0x18 r.id 0 [] r.id)) ∧
    go (.bedrockStart k c) 0x0213 atBoundary ∧
    goJob (.bedrockArm k c) 0x0214 (fun j t r =>
      let a : BedArm := ⟨BitVec.ofNat 64 (f r 0 8), secondsOr (f r 8 4) 3600, secondsOr (f r 12 4) 21600, f r 16 1, t.wrefBytes r.params 24⟩
      done (t.setJob { j with arm := some a })) ∧
    goJob (.bedrockDisarm k c) 0x0215 (fun j t _ => done (t.setJob { j with arm := none })) ∧
    goJob (.bedrockAbandon k c) 0x0216 (fun j t _ => done (t.bedAbandonNow j.id 0x0505 0)) ∧
    goJob (.bedrockRestore k c) 0x0217 (fun j t r => later (t.restoreBegin j.id r.id (secondsOr (f r 4 4) 3600)
      ((List.range (f r 0 1)).map fun i => t.wrefBytes r.params (16 + 8 * i))))

/-- Class P beside a partner (R364, R366): the command is journalled and goes to the partner in a JOURNAL message, and its slot waits. Once the
partner has acknowledged it, PAGE_REPAIR, PAIR_SWITCH and PAIR_WITHDRAW, which only a pair runs, act. -/
def Obligations.PairCommandsGoToThePartner : Prop :=
  (∀ (s : State) (k : Fin 256) (c : CmdPkt) (i : Instr) (op : Nat) (q : OpInfo), hostOp i = some (op, k, c) →
    opInfo op = some q → q.cls = .pair → s.partnerJournals = true → s.takes op k c = true →
    ∃ e : JEntry, e.seqNo = s.host.nextSeq ∧ e.id = c.ident op ∧ e.job = c.jobId op ∧ e.state = 1 ∧ e.partnerSeen = false ∧
      e.packet = c.bytes op ∧ (s.received op k c).entry? (c.ident op) = some e ∧
      exec i s = .next (s.afterPins ((s.received op k c).pairSend 0x41 (c.ident op) (c.jobId op) ((s.received op k c).entryBytes e)))) ∧
  ∀ (s : State) (r : CmdRun) (e : JEntry), s.run? r.id = some r → s.entry? r.id = some e → r.own = true →
    let t := s.cmdStart r.id true
    let f := fieldLE r.params
    -- PAGE_REPAIR asks for the copy of the page
    (r.opcode = 0x020D → s.store.repair = none → s.pair.partnerFailed = false → ∀ j, s.job? r.job = some j →
      j.repairable (f 0 1 == 1) (f 4 4) (BitVec.ofNat 64 (f 8 8)) = true →
      t.store.repair = some (j.id, f 0 1 == 1, f 4 4, BitVec.ofNat 64 (f 8 8), some r.id) ∧ t.mem = s.mem ∧ t.jobs = s.jobs) ∧
    -- PAIR_SWITCH stands ready to hand over
    (r.opcode = 0x0218 → s.leads = true → t.pair = { s.pair with switching := some r.id } ∧ t.jobs = s.jobs ∧ t.mem = s.mem) ∧
    -- PAIR_WITHDRAW halts and fences the side that it names, and only that side
    (r.opcode = 0x0219 → (f 0 1 == 1) = s.sideB → s.pair.fenced = false → t.pair.role = .withdrawn ∧ t.pair.fenced = true) ∧
    (r.opcode = 0x0219 → (f 0 1 == 1) ≠ s.sideB → t.pair = s.pair ∧ t.jobs = s.jobs ∧ t.mem = s.mem)

/-- The order of refusals of a taken slot (R397, R402, R403, R406, R409): every host command, form first, then role, link, identity and
the journal's room; a command ID already recorded is answered with the recorded reply and has no further effect. -/
def Obligations.RefusalsInOrder : Prop :=
  ∀ (s : State) (i : Instr) (op : Nat) (k : Fin 256) (c : CmdPkt) (q : OpInfo), hostOp i = some (op, k, c) → opInfo op = some q →
    let t := s.posted op k c
    let id := c.ident op
    let refuse := fun (code : Nat) => exec i s = .next (s.afterPins (t.cmdRefuse k.val id op code 0 (c.irqOnReply op)))
    let form := formCode op (c.bytes op)
    (s.host.device.getLsbD k.val = true → exec i s = .next (s.afterPins s.slotViolation)) ∧
    (s.host.device.getLsbD k.val = false → (s.hubRuns = false ∨ s.slotTaken k.val = true) →
      exec i s = .next (s.afterPins ((s.setSlot k.val (c.bytes op)).flagWrite k.val 1))) ∧
    (s.host.device.getLsbD k.val = false → s.hubRuns = true → s.slotTaken k.val = false →
      (form ≠ 0 → refuse form) ∧
      (form = 0 → t.roleAdmits q = false → refuse 0x0103) ∧
      (form = 0 → t.roleAdmits q = true → q.cls ≠ .query →
        (s.host.linkOk = false → refuse 0x010F) ∧
        (s.host.linkOk = true →
          (∀ e, s.entry? id = some e → ∃ b, exec i s = .next (s.afterPins ((t.bump .hstCmdsRepeated).slotReply k.val b (c.irqOnReply op))) ∧
            b.take 0xB = (s.recorded e).take 0xB ∧ b.drop 0xC = (s.recorded e).drop 0xC ∧ (fieldLE b 0xB 1).testBit 1 = true) ∧
          (s.entry? id = none → id.toNat ≤ s.host.idFloor.toNat → refuse 0x010C) ∧
          (s.entry? id = none → s.host.idFloor.toNat < id.toNat → s.journalBusy = true → refuse 0x0111))))

/-- Slots, page flags and windows (R402, R412, R444). The completion ring and the PCI Express function (R397 to R399, R403, R408, R421). -/
def Obligations.SlotsWindowsAndRing : Prop :=
  (∀ (s : State) (k : Fin 256) (v : W32) (off : Fin 256) (bytes : List Byte) (word : Fin 16384) (w : Fin 64) (a : BitVec 28) (n : Nat)
      (data : Option (List Byte)),
      -- a host write of 1 makes a HOST slot DEVICE; every other write of a flag is ignored
      (∃ u, exec (.slotFlagWrite k v) s = .next (s.after u) ∧ u = { s with host.device := u.host.device } ∧
        ∀ j, j < 256 → u.host.device.getLsbD j = (s.host.device.getLsbD j || (decide (j = k.val) && v.getLsbD 0))) ∧
      -- a write to the bytes of a HOST slot lands; to a DEVICE slot it is discarded and counted
      (s.host.device.getLsbD k.val = false → bytes.length = 4 ∨ bytes.length = 8 → off.val % bytes.length = 0 →
        ∃ u, exec (.hostSlotWrite k off bytes) s = .next u ∧ u = { s with host.slots := u.host.slots } ∧
          (∀ j, j ≠ k.val → u.slotBytes j = s.slotBytes j) ∧ u.slotBytes k.val = putBytes (s.slotBytes k.val) off.val bytes) ∧
      (s.host.device.getLsbD k.val = true → exec (.hostSlotWrite k off bytes) s = .next ((s.bump .hstSlotViolations).raise .hstIntStatus 5)) ∧
      -- a flag word changes pages from HOST to DEVICE and in no other way
      (∀ x, s.window? (word.val / 256) = some x → x.kind = 1 → ∃ u, exec (.pageFlagWrite word v) s = .next u ∧
        u = { s with host.windows := u.host.windows } ∧ (∀ j p, u.pageFlag j p = if s.pageFlag j p = 0 ∧ j = word.val / 256 ∧
          p / 16 = word.val % 256 ∧ v.toNat / 4 ^ (p % 16) % 4 = 1 then 1 else s.pageFlag j p)) ∧
      -- an access follows the flag of its page
      (s.sec.recovery = false → ∀ x, s.window? w.val = some x →
        (s.pageFlag w.val (a.toNat / 65536) = 0 →
          (∀ b, data = some b → exec (.windowPageAccess w a n data) s = .next (s.winPut x a.toNat b)) ∧
          (data = none → exec (.windowPageAccess w a n data) s = .next (s.emit (.readData (s.winBytes x a.toNat n))))) ∧
        (s.pageFlag w.val (a.toNat / 65536) = 1 →
          (∀ b, data = some b → exec (.windowPageAccess w a n data) s = .next s.windowViolation) ∧
          (data = none → exec (.windowPageAccess w a n data) s = .next (s.windowViolation.emit (.readData (List.replicate n 0xFF))))) ∧
        (s.pageFlag w.val (a.toNat / 65536) = 2 →
          (∀ b, data = some b → exec (.windowPageAccess w a n data) s = .next s.windowViolation) ∧
          (data = none → exec (.windowPageAccess w a n data) s = .next (s.emit (.readData (s.winBytes x a.toNat n)))))) ∧
      (s.sec.recovery = false → s.pageFlag w.val (a.toNat / 65536) = 3 →
        (∀ b, data = some b → exec (.windowPageAccess w a n data) s = .next s) ∧
        (data = none → exec (.windowPageAccess w a n data) s = .next (s.emit (.readData (List.replicate n 0)))))) ∧
  (∀ (s : State) (v : W32) (rate : Fin 7) (width : Fin 6) (on : Bool),
      -- the head moves, and queued completions are written while there is room
      exec (.hstCqHeadWrite v) s = .next (s.wr .hstCqHead v).cqDrain ∧
      (s.host.cqQueue = [] → exec (.hstCqHeadWrite v) s = .next (s.wr .hstCqHead v)) ∧
      (∀ e r, s.host.cqQueue = e :: r → r = [] → (s.wr .hstCqHead v).cqRoom = true → s.host.busMaster = true → s.fld .hstCtrl 0 1 = 1 →
        e.2 = false → ∃ u, exec (.hstCqHeadWrite v) s = .next u ∧ u.host.cqQueue = [] ∧ u.rd .hstCqTail = s.rd .hstCqTail + 1 ∧
          u.rd .hstCqHead = v ∧ u.outbox = s.outbox ++ [.hostWrite ((s.rd .hstCqBaseHi).toNat * 2 ^ 32 + (s.rd .hstCqBaseLo).toNat / 64 * 64 +
            32 * ((s.rd .hstCqTail).toNat % s.cqSize)) e.1]) ∧
      -- enabling the ring starts it empty
      (s.fld .hstCtrl 0 1 = 0 → v.getLsbD 0 = true → s.host.cqQueue = [] → ∃ u, exec (.hstCqEnable v) s = .next u ∧
        u.rd .hstCqTail = s.rd .hstCqHead ∧ u.fld .hstCtrl 0 1 = 1 ∧ u = { s with regs := u.regs }) ∧
      -- the link's rate and width
      (s.host.cqQueue = [] → ∃ u, exec (.pcieLinkSettle rate width) s = .next u ∧ u.host.linkRate = rate.val ∧ u.host.linkWidth = width.val ∧
        u.host.linkOk = decide (5 ≤ rate.val ∧ 3 ≤ width.val) ∧
        ((rate.val < 6 ∨ width.val < 5) → (u.rd .hstIntStatus).getLsbD 4 = true)) ∧
      -- with Bus Master Enable, messages that wait and are not masked leave, and queued completions are written; without it nothing leaves
      (∃ u : State, exec (.busMasterEnableWrite on) s = .next (s.after u.cqDrain) ∧
        u = { s with host := { s.host with busMaster := on, msixPending := u.host.msixPending }, outbox := u.outbox } ∧
        (∀ b, b < 64 → u.host.msixPending.getLsbD b =
          (s.host.msixPending.getLsbD b && (!on || (Tbl.get s.host.msixTable 0 (4 * b + 3)).getLsbD 0))) ∧
        (on = false → u.outbox = s.outbox)) ∧
      -- a function-level reset clears what the host set and nothing else
      (∃ u, exec .functionLevelReset s = .next u ∧ u.host.device = 0 ∧ (∀ j, u.slotBytes j = List.replicate 256 0) ∧ u.host.cqQueue = [] ∧
        u.host.msixTable = [] ∧ u.host.msixPending = 0 ∧ u.fld .hstCtrl 0 1 = 0 ∧ u.rd .hstCqTail = 0 ∧ u.rd .hstCqHead = 0 ∧
        u.host.journal = s.host.journal ∧ u.host.windows = s.host.windows ∧ u.host.kernels = s.host.kernels ∧
        u = { s with host := u.host, regs := u.regs }) ∧
      exec .poisonedTlp s = .next ((s.bump .hstPoisonedRx).emit (.aer 0)) ∧
      -- firmware takes DEVICE slots in ascending order from the one after the last taken, wrapping at 255
      (∀ d, d < 256 → s.hubRuns = true → (∀ e, e < d → s.host.device.getLsbD ((s.host.lastTaken + 1 + e) % 256) = false) →
        s.host.device.getLsbD ((s.host.lastTaken + 1 + d) % 256) = true → s.slotTaken ((s.host.lastTaken + 1 + d) % 256) = false →
        exec .slotTake s = .next (s.afterPins (({ s with host.lastTaken := (s.host.lastTaken + 1 + d) % 256 }).cmdHandle
          ((s.host.lastTaken + 1 + d) % 256)))))

/-- Arrival of a gradient packet or an end-of-slice marker (R33, R35, R48, R49, R227): a stale generation or a tag that is not open is
counted and discarded; under tag n+1 it is held, and credits are withheld once the hold area is full; a repeated sequence number adds
nothing; and a packet of the oldest open step is staged before anything is added. -/
def Obligations.GradientArrival : Prop :=
  ∀ (s : State) (k : Fin 8) (p : Packet),
    let h := p.hdr
    let g := gradPkt p.content
    let answers := fun (u : State) =>
      exec (.gradientPacketRx k p) s = .next (s.after u) ∧ exec (.endOfSliceRx k p) s = .next (s.after u)
    (s.genStale k.val h = true → answers (s.bump .spkGenDiscards k.val)) ∧
    (s.genStale k.val h = false → s.job? h.jobId = none → answers (s.bump .spkTagDiscards k.val)) ∧
    ∀ j, s.genStale k.val h = false → s.job? h.jobId = some j →
      (j.tag? h.tag = none → answers (s.bump .spkTagDiscards k.val)) ∧
      ∀ o, j.tag? h.tag = some o →
        (o.phase = .speculative → answers ((s.setJob { j with hold := j.hold ++ [(k.val, p)]
                                                              holdFull := j.holdFull || decide (j.holdGib * 2 ^ 30 ≤ j.holdUsed + p.content.length) }).gradCredits)) ∧
        (o.phase ≠ .speculative →
          ((s.gradIn j.id o.step k.val).seqs.contains h.seq.toNat = true → answers s) ∧
          ((s.gradIn j.id o.step k.val).seqs.contains h.seq.toNat = false → g.fmt = j.gradFormat → g.step = o.step.toNat →
            let i := s.gradIn j.id o.step k.val
            let seen := { i with seqs := i.seqs ++ [h.seq.toNat] }
            (g.marker = true → answers ((State.accumulate (s.setGradIn (GradIn.settle { seen with
                markers := i.markers ++ [(g.lastSeq, g.first, g.count, g.layer)] })) j.id g.layer).gradCredits)) ∧
            (g.marker = false → g.elems.any (lossElem g.fmt) = false →
              let t := s.setGradIn seen.settle
              let staged := { t with acc.staged := t.acc.staged ++ [(⟨j.id, o.step, k.val, g.layer, g.first, g.fmt, g.scales, g.elems⟩ : Staged)] }
              answers (((staged.stagingCheck g.first).accumulate j.id g.layer).gradCredits))))

/-- Accumulation in canonical order (R33, R35, R109, R110): once every site of the tray has completed its contribution, each element of an ACCUM
tile of a job with binary32 accumulation is the sum, site after site in the job's order, of the rounded contributions; the tile is then
CLOSED, but stays ACCUM for the other replicas' partial sums where the job has them. One contribution to a block in block-scaled mode (R111, R113): the first sets the exponent; each adds its images exactly, at the block's
exponent; a NaN absorbs; and a sum that leaves the range raises the exponent as R113 says and takes every contribution of the block again. -/
def Obligations.AccumulationInCanonicalOrder : Prop :=
  (∀ (s : State) (j : Job) (o : OpenStep) (a : Nat),
      let t := s.tile a
      let n := (j.tileOf t.layer t.first).2
      let sum := fun (e : Nat) => (j.sites.drop t.added).foldl (fun (x : Nat) k =>
        add32 x (rne fmtB32 (s.contribution j.id o.step k t.layer (t.first + e)))) (Tbl.get t.elems 0 e).toNat
      formatMx j.gradFormat = false → t.state = .accum → t.added < j.sites.length → j.sites.length ≤ 8 → j.sites.Nodup →
      (∀ k ∈ j.sites.drop t.added, (s.gradIn j.id o.step k).covers t.layer t.first n = true) →
      let u := (s.tileAdd j o a).tile a
      (s.coverKind j ≠ 1 → u.state = .closed) ∧ (s.coverKind j = 1 → u.state = .accum) ∧
        u.added = j.sites.length ∧ u.job = t.job ∧ u.step = t.step ∧ u.layer = t.layer ∧ u.first = t.first ∧
        ∀ e, e < n → Tbl.get u.elems 0 e = BitVec.ofNat 32 (sum e)) ∧
  (∀ (fmt h maxRep : Nat) (put : List (Nat × List Val)) (c : Nat × List Val) (x : Bsa),
      let y := bsaPut fmt h maxRep put c x
      let q := if put.isEmpty then (c.1 : Int) - 127 + boundB fmt - (30 - h) else x.q
      let sums := (List.range 32).map fun i => x.images.getD i 0 + valRoundInt 0 (valScale (-q) (c.2.getD i (.fin false 0 0)))
      let fits := ∀ v ∈ sums, v.natAbs ≤ 2 ^ 31 - 1
      (x.nan = true → y = x) ∧
      (x.nan = false → c.1 = 0xFF ∨ (c.2.any valNonfinite) = true → y.nan = true ∧ y.repeats = x.repeats ∧ y.exhausted = x.exhausted) ∧
      (x.nan = false → c.1 ≠ 0xFF → (c.2.any valNonfinite) = false → x.images.length = 32 → c.2.length = 32 →
        (fits → y = { x with q := q, images := sums }) ∧
        (¬ fits → x.repeats < maxRep → x.repeats < y.repeats ∧ q < y.q) ∧
        (¬ fits → maxRep ≤ x.repeats → y.nan = true ∧ y.exhausted = true)))

/-- Tiles, dispatch and barriers of an update (R109, R134, R135, R139). A phase barrier (R115, R134, R139): no phase ends while a slice still runs it; then the slots are merged, and the next phase starts
or the layer is ready. -/
def Obligations.UpdateDispatchAndBarriers : Prop :=
  (∀ (s : State) (id : W32) (layer : W16) (j : Job) (o : OpenStep), s.Oldest id j o →
      -- FREE tiles of the slice of its group go to the layer, and credits resume
      (o.phase ≠ .speculative → layer.toNat < j.nLayers → o.closedLayers.contains layer.toNat = false →
        let one := fun (t : State) (x : Nat) =>
          let first := j.tileFirst layer.toNat x
          if (t.tileAt id o.step layer.toNat first).isSome then t
          else match t.tileFor j o layer.toNat first with
            | some a => t.setTile a { Tile.free with state := .accum, job := id, step := o.step, layer := layer.toNat, first := first }
            | none => t
        exec (.tileAssign id layer) s = .next (s.after
          ((((List.range (j.layerTiles layer.toNat)).foldl one s).accumulate id layer.toNat).gradCredits))) ∧
      -- the tiles of a layer lie on a slice in ascending element order
      (∀ first a, (∃ p ∈ j.tileList layer.toNat, p.1 = first) → s.tileFor j o layer.toNat first = some a →
        a ∈ s.freeTiles (sliceOf first) ∧ ∀ p ∈ j.tileList layer.toNat, sliceOf p.1 = sliceOf first →
          ∀ x, s.tileAt j.id o.step layer.toNat p.1 = some x → (p.1 < first → x < a) ∧ (first < p.1 → a < x)) ∧
      (o.phase = .speculative → exec (.tileAssign id layer) s = .next (s.after s)) ∧
      -- the first layer to close that has not been updated is dispatched, once nothing is being updated
      (s.upd.run = none → j.phase = .running → o.kernelFault = false →
        ∀ l slot, o.closedLayers.find? (fun l => !o.ready.contains l) = some l →
          s.kernelSlot (j.kernelDigest (j.layer l).2.2) = some slot →
          let d : Dispatcher := ⟨j.id, o.step, l, 0, slot, if o.replay then 2 else if o.clipRerun then 1 else 0, [], false⟩
          let s1 := (List.range 16).foldl (fun (t : State) k =>
            t.setSlice k { t.slice k with slots := if Tbl.has o.slot0 k then [(0, Tbl.get o.slot0 RedSlot.empty k)] else [] }) s
          ∀ t, s1.takeScratch d (imgScratch (s.image slot)) = some t →
            exec (.kernelDispatch id) s = .next (s.after
              (let t := t.modJob id fun v => v.setStep { o with silt := some (o.silt.getD (v.openSilt o)) }
               let t := if j.strata.working.isSome then t else t.openWorking j.id o.step
               t.startPhase d ((t.job? id).getD j) ((((t.job? id).getD j).step? o.step).getD o) 0))) ∧
      (s.upd.run.isSome = true → exec (.kernelDispatch id) s = .next (s.after s))) ∧
  (∀ (s : State) (d : Dispatcher), s.upd.run = some d →
      ((∃ k, k < 16 ∧ (s.slice k).run.isSome = true) → exec .phaseBarrier s = .next (s.after s)) ∧
      ∀ j o, s.upd.faulted = none → d.waiting = false → (∀ k, k < 16 → (s.slice k).run = none ∧ (s.slice k).stopped = false) →
        d.mode < 3 → s.job? d.job = some j → j.step? d.step = some o →
        let img := s.image d.kernel
        let scope := (List.range 8).filter fun n => (imgScope img).testBit n
        let merged := (List.range 8).map fun n => (n, (s.slotItem n).fields)
        (d.phase + 1 < imgPhases img →
          let t := s.startPhase { d with merged := merged, waiting := !scope.isEmpty } j o (d.phase + 1)
          exec .phaseBarrier s = .next (s.after (if scope = [] then t
            else t.collStart d.job .layerSlots d.step (BitVec.ofNat 16 d.layer) (BitVec.ofNat 8 d.phase) (scope.map s.slotItem)))) ∧
        (imgPhases img ≤ d.phase + 1 →
          let t := if scope = [] then s.layerReady d
            else (s.layerReady d).collStart d.job .layerSlots d.step (BitVec.ofNat 16 d.layer) (BitVec.ofNat 8 d.phase) (scope.map s.slotItem)
          (d.mode ≠ 0 ∨ o.ready.length + 1 ≠ j.nLayers → exec .phaseBarrier s = .next (s.after t)) ∧
          (d.mode = 0 → o.ready.length + 1 = j.nLayers → exec .phaseBarrier s = .next (s.after (t.collStart d.job .scalar
            d.step 0 0 [s.slotItem 0, .or (if o.lossFlag then 1 else 0)])))))

/-- Working root, checks and vote, and the confirm timeout (R36 to R38, R73, R303). -/
def Obligations.ConfirmationCommands : Prop :=
  ∀ (s : State) (id : W32) (j : Job) (o : OpenStep), s.Oldest id j o →
    -- the working root is formed once, when all layers are updated and the scalar all-reduce has returned
    (o.ownRoot = none → (o.skip = true ∨ o.ready.length = j.nLayers) → o.scalar.isSome = true → o.kernelFault = false → o.replay = false →
      ∃ (w : Stratum) (j' : Job), w.root = s.rootOf j w ∧ w.scalars = Tbl.set (Tbl.set
          (j.strata.working.getD { j.strata.committed with step := o.step }).scalars 448 ((j.lossAfter o).1.setWidth 64)) 449 (j.lossAfter o).2 ∧
        j'.strata = { j.strata with working := some w } ∧ ((j'.step? o.step).bind OpenStep.ownRoot) = some w.root ∧
        let t := (s.setJob j').pairSend 0x46 o.step id (digestBytes w.root)
        exec (.rootFinal id) s = .next (s.after ((if s.coverKind j = 1 then t.collStart id .roots o.step 0 0 [.root w.root 0] else t).mirrorSend id o.step))) ∧
    (o.ownRoot.isSome = true → exec (.rootFinal id) s = .next (s.after s)) ∧
    -- the five checks are decided once everything they need has come, or will not come; each that fails is recorded; the vote carries their
    -- AND and clean_through; and where a root differs the pages are sought
    (s.voteReady j o = false → exec (.voteCast id) s = .next (s.after s)) ∧
    (s.voteReady j o = true →
      let whole := !(o.missing || o.kernelFault || o.scalarLate)
      let abft := !o.abftFail && (!whole || s.tapsAll j o)
      let roots := s.pair.partnerFailed || o.partnerRoot.isNone || o.ownRoot.isNone || o.partnerRoot == o.ownRoot
      let scalar := o.missing || o.scalar.isSome && !o.scalarFail && !o.scalarLate && !o.kernelFault
      let yes := whole && abft && !o.linkFail && roots && !o.replicaFail && scalar && !o.pairDiffer
      let differs := fun (r : Option Digest) => r.isSome && o.replicaRoot.isSome && r != o.replicaRoot
      let names := fun (side : Bool) => some (s.wilostRec 3 id o.step 0 0 [(24, cborArray [cborNat (s.holderId side)])])
      let self := if differs o.ownRoot then names s.sideB else none
      let report := fun (ok : Bool) (src : Blk) (check : Nat) (w : Option (List Byte)) (t : State) =>
        if ok then t else t.evReason 1 src 2 j.id o.step [check] w
      let t := if whole then s.tapsMissing j o else s
      let t := if o.missing then t.evReason 1 .upd 0xFFFF id o.step [] else t
      let t := report (!o.linkFail) .spk 2 none (report abft .asy 1 none t)
      let t := report roots .pair 3 (self <|> if differs o.partnerRoot then names (!s.sideB) else none) t
      let t := report scalar .upd 5 none (report (!o.replicaFail) .tor 4 self t)
      let v := t.cleanThrough j o.step
      let t := t.modStep id o.step fun o => { o with voted := some yes, abftFail := !abft }
      let t := ({ t with asy.clean := Tbl.set t.asy.clean j.slot v }).collStart id .vote o.step 0 0 [.and (if yes then 1 else 0), .min v]
      let t := if roots then t else t.descentStart j o (t.holderId (!t.sideB))
      exec (.voteCast id) s = .next (s.after (if o.replicaFail then t.descentStart j o (t.replicaHolder j) else t))) ∧
    -- a step that lacks a contribution at the timeout votes no; else a vote that has not returned in time is a Job-abort: the step is never
    -- confirmed alone
    (o.voteBack = false → o.replay = false → j.phase = .running → o.phase = .open → o.voted = none →
      exec (.confirmTimeout id) s = .next (s.after ((s.modStep id o.step fun o => { o with missing := true }).voteCast id))) ∧
    (o.voteBack = false → o.replay = false → j.phase = .running → (o.phase ≠ .open ∨ o.voted.isSome = true) →
      exec (.confirmTimeout id) s = .next (s.after ((s.evReason 3 .str 0xFFFF id o.step []).jobAbort id holdConfirmTimeout))) ∧
    (o.voteBack = true → exec (.confirmTimeout id) s = .next (s.after s)) ∧
    -- an escrow acknowledgement that is missing does not hold the commit; a PIN copy lets it go on
    (o.commit = .copies → o.landings.contains (escrowId o.step) = true →
      exec (.escrowTimeout id) s = .next (s.after
        ((((s.modStep id o.step fun o => { o with landings := o.landings.filter fun x => x != escrowId o.step, escrowMissing := true }).modJob id
          fun j => { j with escrowMissing := true }).evReason 1 .str 8 id o.step []).commitGo id))) ∧
    (∀ x, j.strata.pinCopy = some x → exec (.pinCopyDone id) s = .next (s.after
      (((s.flipped id fun y => { y with pin := some x, pinCopy := none }).modJob id
        fun j => { j with bed := j.bed.map fun (b : Bedrock) => { b with step := some x.step } }).commitGo id)))

/-- Errors of the hops and of HBM, and read references (R72, R83, R84, R86, R87). A repair copy (R85, R74): it is verified against the leaf or the payload root before anything is written, a frame is found in the
job's region or among the repair frames, and every stratum that named the frame names the new one; a silt entry stays damaged
while another of its pages or its header is bad. -/
def Obligations.StoreErrorsAndRepair : Prop :=
  (∀ (s : State) (cls : Fin 5) (again : Bool) (island : Byte) (hit : List (W32 × W64)) (k : Fin 16) (area : UeArea) (holder : Nat),
      -- a replay counts, and a repeated failure of one transfer counts towards its escalation
      (let old := Tbl.get s.store.hopWin (s.now, 0, false) cls.val
       let w := if s.now < old.1 + 1000 * max 1 (s.fld .strParityWin 0 16) then old else (s.now, 0, false)
       (∃ u, exec (.hopParityError cls again) s = .next u ∧
         u.rd .strHopReplays cls.val = (if (s.rd .strHopReplays cls.val) = 0xFFFFFFFF then 0xFFFFFFFF else s.rd .strHopReplays cls.val + 1) ∧
         Tbl.get u.store.hopTries 0 cls.val = (if again then Tbl.get s.store.hopTries 0 cls.val + 1 else 0) ∧
         Tbl.get u.store.hopWin (0, 0, false) cls.val = (w.1, w.2.1 + 1, w.2.2) ∧
         u = { s with regs := u.regs, store.hopTries := u.store.hopTries, store.hopWin := u.store.hopWin }) ∧
       -- a window in which the replays exceed the threshold is reported once
       (w.2.2 = true ∨ w.2.1 ≤ s.fld .strParityWin 16 16 → exec (.hopReplayRate cls) s = .next s) ∧
       (w.2.2 = false → s.fld .strParityWin 16 16 < w.2.1 → exec (.hopReplayRate cls) s = .next
         ((({ s with store.hopWin := Tbl.set s.store.hopWin cls.val (w.1, w.2.1, true) }).evInt 1 .strIntStatus 5 0 0 [cls.val, w.2.1]).keeping s s.brx))) ∧
      -- the transfer escalates at the attempt set: Degrade, or Tray-halt for the fifth within a second of the command or commit hop
      (Tbl.get s.store.hopTries 0 cls.val < s.hopAttempts → exec (.hopEscalation cls island hit) s = .next (s.after s)) ∧
      (s.hopAttempts ≤ Tbl.get s.store.hopTries 0 cls.val →
        let times := (Tbl.get s.store.hopEsc [] cls.val).filter (fun a => s.now < a + 10 ^ 9) ++ [s.now]
        let halts := cls.val < 2 ∧ 5 ≤ times.length
        let w := s.wilostRec 8 (hit.headD (0, 0)).1 (hit.headD (0, 0)).2 0 0 [(31, cborArray [cborNat 3, cborNat cls.val, cborNat 0])]
        let t := { s with store.hopTries := Tbl.set s.store.hopTries cls.val 0, store.hopEsc := Tbl.set s.store.hopEsc cls.val times }
        (¬ halts → exec (.hopEscalation cls island hit) s = .next (s.after ((((t.bump .strHopEscalations cls.val).evInt 1 .strIntStatus 6
          (hit.headD (0, 0)).1 (hit.headD (0, 0)).2 [cls.val, island.toNat] 0 (some w)).failSteps hit).emit (.hopPoison cls.val island)))) ∧
        (halts → exec (.hopEscalation cls island hit) s = .next (s.after (((((({ t with store.hopFailed := true }).bump .strHopEscalations
          cls.val).evInt 4 .strIntStatus 6 (hit.headD (0, 0)).1 (hit.headD (0, 0)).2 [cls.val, island.toNat] 0 (some w)).failSteps hit).emit
          (.hopPoison cls.val island)).trayHalt)))) ∧
      -- a corrected error counts; with its report enabled the count comes with an event; the one that crosses the hour's threshold is the failure
      -- warning (when it is crossed: log entry 45)
      (let times := (Tbl.get s.store.ceTimes [] k.val).filter (fun a => s.now < a + 3600 * 10 ^ 9) ++ [s.now]
       let thresh := (s.rd .strEccCeThresh).toNat
       let again := s.store.ceWarned.getLsbD k.val && decide (thresh < times.length - 1)
       let t := { s with store.ceTimes := Tbl.set s.store.ceTimes k.val times }
       let t := if s.fld .strCtrl 1 1 = 1 then t.evCount 0 .strEccCe 0 0 [k.val] k.val else t.bump .strEccCe k.val
       (times.length ≤ thresh → exec (.hbmCorrectedError k) s = .next (s.after
         { t with store.ceWarned := s.store.ceWarned &&& ~~~(1#16 <<< k.val) })) ∧
       (thresh < times.length → again = true → exec (.hbmCorrectedError k) s = .next (s.after t)) ∧
       (thresh < times.length → again = false → exec (.hbmCorrectedError k) s = .next (s.after
         ((({ t with store.ceWarned := s.store.ceWarned ||| (1#16 <<< k.val) }).evInt 1 .strIntStatus 3 0 0 [k.val, times.length]).failureWarning)))) ∧
      -- an uncorrected error is handled by its frame's area; the seventeenth within an hour fails the stack
      (let times := (Tbl.get s.store.ueTimes [] k.val).filter (fun a => s.now < a + 3600 * 10 ^ 9) ++ [s.now]
       let t := ({ s with store.ueTimes := Tbl.set s.store.ueTimes k.val times }.bump .strEccUe k.val).evInt 1 .strIntStatus 4 0 0
         [k.val, match area with | .frame f => f.toNat | _ => 0]
       let u := match area with
         | .frame f => t.jobs.vals.foldl (fun (u : State) (j : Job) => u.frameError f.toNat j) t
         | .hold job i => t.modJob job fun j => { j with hold := j.hold.eraseIdx i }
         | .map _ => t
         | .system c => if c.val = 0 then { t with store.sys0 := t.store.sys1 } else { t with store.sys1 := t.store.sys0 }
       (times.length ≤ 16 → exec (.hbmUncorrectedError k area) s = .next (s.after u)) ∧
       (17 ≤ times.length → u.store.failedStacks.getLsbD k.val = false → exec (.hbmUncorrectedError k area) s = .next (s.after
         ((({ u with store.failedStacks := u.store.failedStacks ||| BitVec.ofNat 16 (2 ^ k.val) }).evInt 4 .strIntStatus 7 0 0 [k.val]).trayHalt)))) ∧
      -- a read reference ends
      exec (.readReferenceEnd holder) s =
        .next (s.after (({ s with store.refs := s.store.refs.filter fun r => r.holder != holder }).quotaCheck))) ∧
  (∀ (s : State) (data : List Byte) (job : W32) (silt : Bool) (page : Nat) (step : W64) (cmd : Option W64),
      let bytes := sliceBytes data 0 (2 ^ 21)
      let ends := fun (u : State) (code : Nat) => exec (.repairCopyRx data) s = .next (s.after (u.repairEnd cmd code))
      (s.store.repair = none → exec (.repairCopyRx data) s = .next (s.after s)) ∧
      (s.store.repair = some (job, silt, page, step, cmd) →
        (s.job? job = none → ends s 0x0106) ∧
        ∀ j, s.job? job = some j →
          (silt = false → ∀ x, (j.strata.committed :: j.strata.assayed :: j.strata.retained ++ j.strata.pin.toList ++ j.strata.pinCopy.toList).find?
              (fun x => x.step == step && Tbl.has x.map page) = some x →
            (leafDigest 0x4C j.id page bytes ≠ Tbl.get x.leaf 0 page → ends s 0x010D) ∧
            (leafDigest 0x4C j.id page bytes = Tbl.get x.leaf 0 page → s.repairFrame j (j.home page) = none → ends (s.bump .strJobAllocRefused j.slot) 0x010A) ∧
            (leafDigest 0x4C j.id page bytes = Tbl.get x.leaf 0 page → ∀ g, s.repairFrame j (j.home page) = some g →
              let t := s.flipped job fun y => y.swap (Tbl.get x.map 0 page) g
              ends (({ t with mem := memWriteBytes t.mem (frameAddr g) bytes }).bump .strRepairCount) 0)) ∧
          (silt = true → ∀ e, j.silt.find? (fun e => e.step == step) = some e →
            let root := treeTop ((List.range j.siltPages).map fun p =>
              leafDigest 0x47 j.id p (if p = page then bytes else s.frameBytes (mapFrame e.pages p)))
            (root ≠ e.payloadRoot → ends s 0x010D) ∧
            (root = e.payloadRoot → s.repairFrame j (j.siltHome page) = none → ends (s.bump .strJobAllocRefused j.slot) 0x010A) ∧
            (root = e.payloadRoot → ∀ g, s.repairFrame j (j.siltHome page) = some g →
              ends (({ (s.modJob job fun j => { j with silt := j.silt.map fun (x : SiltEntry) =>
                  if x.step == step then { x with pages := Tbl.set x.pages page g, bad := x.bad.erase page
                                                  damaged := x.damaged && (!(x.bad.erase page).isEmpty || x.bad.isEmpty) } else x })
                with mem := memWriteBytes s.mem (frameAddr g) bytes }).bump .strRepairCount) 0))))

/-- Vector arithmetic of a slice that no fault has stopped, on a legal mode and legal registers (R123, R124, R127). -/
def Obligations.VectorArithmetic : Prop :=
  ∀ (s : State) (k : Fin 16) (vd va vb vc : Fin 32) (mask mode : Fin 8),
    let x := s.slice k.val
    let f := modeFmt mode.val
    let a := x.value mode.val va.val
    let b := x.value mode.val vb.val
    let c := x.value mode.val vc.val
    let q := x.sval mode.val vc.val
    x.stopped = false →
    (modeOk mode.val [vd.val, va.val] = true →
      VectorDone s (.vabs k vd va vb vc mask mode) k mode.val vd.val mask.val (fun e => [a e]) (fun e => rne f (valAbs (a e))) ∧
      VectorDone s (.vneg k vd va vb vc mask mode) k mode.val vd.val mask.val (fun e => [a e]) (fun e => rne f (valNeg (a e))) ∧
      VectorDone s (.vsqrt k vd va vb vc mask mode) k mode.val vd.val mask.val (fun e => [a e]) (fun e => fpSqrt f (a e)) ∧
      VectorDone s (.vrsqrt k vd va vb vc mask mode) k mode.val vd.val mask.val (fun e => [a e]) (fun e => fpRsqrt f (a e)) ∧
      VectorDone s (.vadds k vd va vb vc mask mode) k mode.val vd.val mask.val (fun e => [a e, q]) (fun e => rne f (valAdd (a e) q)) ∧
      VectorDone s (.vmuls k vd va vb vc mask mode) k mode.val vd.val mask.val (fun e => [a e, q]) (fun e => rne f (valMul (a e) q))) ∧
    (modeOk mode.val [vd.val, va.val, vb.val] = true →
      VectorDone s (.vadd k vd va vb vc mask mode) k mode.val vd.val mask.val (fun e => [a e, b e])
        (fun e => rne f (valAdd (a e) (b e))) ∧
      VectorDone s (.vsub k vd va vb vc mask mode) k mode.val vd.val mask.val (fun e => [a e, b e])
        (fun e => rne f (valAdd (a e) (valNeg (b e)))) ∧
      VectorDone s (.vmul k vd va vb vc mask mode) k mode.val vd.val mask.val (fun e => [a e, b e])
        (fun e => rne f (valMul (a e) (b e))) ∧
      VectorDone s (.vmax k vd va vb vc mask mode) k mode.val vd.val mask.val (fun e => [a e, b e])
        (fun e => rne f (valMax (a e) (b e))) ∧
      VectorDone s (.vmin k vd va vb vc mask mode) k mode.val vd.val mask.val (fun e => [a e, b e])
        (fun e => rne f (valMin (a e) (b e))) ∧
      VectorDone s (.vdiv k vd va vb vc mask mode) k mode.val vd.val mask.val (fun e => [a e, b e]) (fun e => fpDiv f (a e) (b e)) ∧
      VectorDone s (.vfmas k vd va vb vc mask mode) k mode.val vd.val mask.val (fun e => [a e, b e, q])
        (fun e => rne f (valAdd (valMul (a e) q) (b e)))) ∧
    (modeOk mode.val [vd.val, va.val, vb.val, vc.val] = true →
      VectorDone s (.vfma k vd va vb vc mask mode) k mode.val vd.val mask.val (fun e => [a e, b e, c e])
        (fun e => rne f (valAdd (valMul (a e) (b e)) (c e))) ∧
      VectorDone s (.vfnma k vd va vb vc mask mode) k mode.val vd.val mask.val (fun e => [a e, b e, c e])
        (fun e => rne f (valAdd (valNeg (valMul (a e) (b e))) (c e))))

/-- Moves, selects, compares and classes of a slice that no fault has stopped (R124, R127). -/
def Obligations.MovesSelectsAndMasks : Prop :=
  ∀ (s : State) (k : Fin 16) (vd va vb vc : Fin 32) (mask mode : Fin 8),
    let x := s.slice k.val
    let f := modeFmt mode.val
    let m := x.mget mask.val
    let a := x.lane mode.val va.val
    let b := x.lane mode.val vb.val
    let old := x.lane mode.val vd.val
    x.stopped = false →
    (modeOk mode.val [vd.val, va.val] = true →
      LanesWritten s (.vmov k vd va vb vc mask mode) k mode.val vd.val (fun e => if m.getLsbD e then a e else old e)) ∧
    (modeOk mode.val [vd.val] = true →
      LanesWritten s (.vbcast k vd va vb vc mask mode) k mode.val vd.val (fun e => if m.getLsbD e then
        (if mode.val = 1 ∨ mode.val = 2 then rne f (x.sval mode.val vc.val) else (x.sget vc.val).toNat) else old e)) ∧
    (modeOk mode.val [vd.val, va.val, vb.val] = true →
      LanesWritten s (.vsel k vd va vb vc mask mode) k mode.val vd.val (fun e => if m.getLsbD e then a e else b e)) ∧
    (modeOk mode.val [va.val, vb.val] = true → vc.val ≤ 4 →
      MaskWritten s (.vcmp k vd va vb vc mask mode) k (vd.val % 8) (fun e => decide (e < modeElems mode.val) && m.getLsbD e &&
        cmpCond vc.val (fpDecode f (a e)) (fpDecode f (b e)))) ∧
    (modeOk mode.val [va.val] = true → vb.val ≤ 3 →
      MaskWritten s (.vclass k vd va vb vc mask mode) k (vd.val % 8) (fun e => decide (e < modeElems mode.val) && m.getLsbD e &&
        (if vb.val = 3 then (a e).testBit (modeWidth mode.val - 1) else classOf vb.val (fpDecode f (a e)))))

/-- Reduction slots (R115 to R117, R127, R134): each of the five instructions completes on every slice that no fault has stopped, on a legal
mode, slot and field. RDGET completes unless the phase's merge is still under way. Scalar instructions (R127, R122, R124): the integer ones, SFOP and SCVT, each of which completes on every slice that no fault has stopped,
with every operand. -/
def Obligations.SlotsAndScalars : Prop :=
  (∀ (s : State) (k : Fin 16) (vd va : Fin 32) (slot field : Fin 8) (rsv : Fin 16) (mask mode : Fin 8),
      let x := s.slice k.val
      let m := x.mget mask.val
      x.stopped = false → rsv = 0 →
      (modeOk mode.val [va.val] = true → 2 ≤ slot.val → ∃ t, exec (.vaccsq k vd va slot field rsv mask mode) s = .next t ∧
        SliceDone s t k (x.setSlot slot.val ((x.slot slot.val).sumsq (x.operand mode.val va.val mask.val))) ∧ t.regs = s.regs) ∧
      (modeOk mode.val [va.val] = true → 2 ≤ slot.val → ∃ t, exec (.vwelf k vd va slot field rsv mask mode) s = .next t ∧
        SliceDone s t k (x.setSlot slot.val ((x.slot slot.val).welford (x.operand mode.val va.val mask.val))) ∧ t.regs = s.regs) ∧
      (mode.val < 4 → ∃ t, exec (.rdclr k vd va slot field rsv mask mode) s = .next t ∧
        SliceDone s t k (x.setSlot slot.val RedSlot.empty) ∧ t.regs = s.regs) ∧
      (modeOk mode.val [va.val] = true →
        let nan := fun (n : Nat) => valIsNan (fpDecode fmtB64 n)
        let lane := fun e => if m.getLsbD e then rne fmtB64 (x.value mode.val va.val e) else 0
        let steps := (if modeElems mode.val = 1024 then [512] else []) ++ [256, 128, 64, 32, 16, 8, 4, 2, 1]
        let sums := fun (j : Nat) => (steps.take j).foldl (fun l n => halve n l) ((List.range (modeElems mode.val)).map lane)
        let made := fun (j : Nat) => ((List.range (steps.getD j 0)).filter fun i =>
          let a := (sums j).getD i 0
          let b := (sums j).getD (i + steps.getD j 0) 0
          nan (add64 a b) && !nan a && !nan b).length
        ∃ t, exec (.vhsum k vd va slot field rsv mask mode) s = .next t ∧
          SliceDone s t k (x.sput vd.val (BitVec.ofNat 64 ((sums steps.length).headD 0))) ∧
          NansCounted s t k ((List.range steps.length).map made).sum) ∧
      (field.val ≤ 4 → mode.val < 4 → (∀ d, s.upd.run = some d → d.waiting = false) →
        ∃ t, exec (.rdget k vd va slot field rsv mask mode) s = .next t ∧
          SliceDone s t k (x.sput vd.val
            ((match s.upd.run with
              | some d => if d.phase = 0 then [] else Tbl.get d.merged [] slot.val
              | none => []).getD field.val 0)) ∧ t.regs = s.regs)) ∧
  (∀ (s : State) (k : Fin 16) (sd sa sb sub : Fin 32) (imm : W16),
      let x := s.slice k.val
      let a := x.sget sa.val
      let b := x.sget sb.val
      let nan := fun (v : W64) => valIsNan (fpDecode fmtB64 v.toNat)
      let rounded := valRoundInt 1 (fpDecode fmtB64 a.toNat)
      let fits := valNonfinite (fpDecode fmtB64 a.toNat) = false ∧ -(2 ^ 63) ≤ rounded ∧ rounded < 2 ^ 63
      x.stopped = false →
      (∃ t, exec (.saddi k sd sa imm) s = .next t ∧ SliceDone s t k (x.sput sd.val (a + imm.signExtend 64)) ∧ t.regs = s.regs) ∧
      (∃ t, exec (.sli k sd sa imm) s = .next t ∧ SliceDone s t k (x.sput sd.val
        ((x.sget sd.val &&& ~~~(0xFFFF#64 <<< (16 * (sa.val % 4)))) ||| (imm.setWidth 64 <<< (16 * (sa.val % 4))))) ∧ t.regs = s.regs) ∧
      (∃ t, exec (.sadd k sd sa sb 0 0) s = .next t ∧ SliceDone s t k (x.sput sd.val (a + b)) ∧ t.regs = s.regs) ∧
      (∃ t, exec (.sadd k sd sa sb 1 0) s = .next t ∧ SliceDone s t k (x.sput sd.val (a - b)) ∧ t.regs = s.regs) ∧
      (∀ v, sub.val ≤ 6 → sub.val ≠ 4 → v = BitVec.ofNat 64 (sfopVal sub.val a.toNat b.toNat) →
        ∃ t, exec (.sfop k sd sa sb sub 0) s = .next t ∧ SliceDone s t k (x.sput sd.val v) ∧
          NansCounted s t k (if nan v && !(nan a || nan b) then 1 else 0)) ∧
      (∀ v, v = BitVec.ofNat 64 (sqrt64 a.toNat) → ∃ t, exec (.sfop k sd sa sb 4 0) s = .next t ∧ SliceDone s t k (x.sput sd.val v) ∧
        NansCounted s t k (if nan v && !nan a then 1 else 0)) ∧
      -- a negative exponent of POWI, and a number that no int64 holds: the spec states no result, and the value is free (log entry 3)
      (b.msb = true → ∃ t, exec (.sfop k sd sa sb 7 0) s = .next t ∧ t.regs = s.regs ∧
        SliceDone { s with fresh := s.fresh + 1 } t k (x.sput sd.val ((Config.freeValue s.fresh).setWidth 64))) ∧
      (∀ v, b.msb = false → v = BitVec.ofNat 64 (powi a.toNat b.toNat) → ∃ t, exec (.sfop k sd sa sb 7 0) s = .next t ∧
        SliceDone s t k (x.sput sd.val v) ∧ NansCounted s t k (if nan v && !nan a then 1 else 0)) ∧
      (∃ t, exec (.scvt k sd sa sb 0 0) s = .next t ∧
        SliceDone s t k (x.sput sd.val (BitVec.ofNat 64 (rne fmtB64 (valOfInt a.toInt)))) ∧ t.regs = s.regs) ∧
      (∃ t, exec (.scvt k sd sa sb 1 0) s = .next t ∧
        SliceDone s t k (x.sput sd.val (BitVec.ofNat 64 (rne fmtB32 (fpDecode fmtB64 a.toNat)))) ∧ t.regs = s.regs) ∧
      (∃ t, exec (.scvt k sd sa sb 2 0) s = .next t ∧
        SliceDone s t k (x.sput sd.val (BitVec.ofNat 64 (rne fmtB64 (fpDecode fmtB32 (a.toNat % 2 ^ 32))))) ∧ t.regs = s.regs) ∧
      (fits → ∃ t, exec (.scvt k sd sa sb 3 0) s = .next t ∧
        SliceDone s t k (x.sput sd.val (BitVec.ofInt 64 rounded)) ∧ t.regs = s.regs) ∧
      (¬ fits → ∃ t, exec (.scvt k sd sa sb 3 0) s = .next t ∧ t.regs = s.regs ∧
        SliceDone { s with fresh := s.fresh + 1 } t k (x.sput sd.val ((Config.freeValue s.fresh).setWidth 64))))

/-- VCVT (R98, R103 to R105, R127, R519): round to the FR byte's format and return exactly in binary32. The stochastic words are those of the
job, the step, domain 0 and the instruction's selector; the logical page and the element index that R104 counts on are Config.vcvtPlace's, a free
function of where the invocation stands (log entry 3). -/
def Obligations.FormatConversion : Prop :=
  ∀ (s : State) (k : Fin 16) (vd va : Fin 32) (fr sel : Byte),
    let x := s.slice k.val
    let fmt := frFormat fr.toNat
    let word := fun e => if frRound fr.toNat = 2 then
        (match x.run with
        | some v =>
          let at_ := Config.vcvtPlace v.layer v.group x.pc (x.pos.map Prod.snd) e
          srWord v.job.toNat v.step.toNat at_.1 at_.2 0 0 sel.toNat
        | none => 0) else 0
    let q := fun e => frConvert fr.toNat (word e) (x.value 0 va.val e)
    x.stopped = false → frValid fr.toNat = true → 1 ≤ fmt → fmt ≤ 9 →
    ∃ (t : State) (v : Tbl (BitVec 16384)), exec (.vcvt k vd va fr sel) s = .next t ∧
      SliceDone s t k { x with v := v } ∧
      (∀ e, e < 512 → Slice.lane { x with v := v } 0 vd.val e = rne fmtB32 (elemDecode fmt (q e).1) % 2 ^ 32) ∧
      (∀ r, r ≠ vd.val → Slice.vreg { x with v := v } r = x.vreg r) ∧
      (t.rd .updConvSat k.val).toNat = min ((s.rd .updConvSat k.val).toNat +
        ((List.range 512).filter fun e => (q e).2 == .saturated).length) 0xFFFFFFFF ∧
      (t.rd .updConvNonfinite k.val).toNat = min ((s.rd .updConvNonfinite k.val).toNat +
        ((List.range 512).filter fun e => (q e).2 == .nonfinite || (q e).2 == .nanLost).length) 0xFFFFFFFF ∧
      (t.rd .updConvNanLost k.val).toNat = min ((s.rd .updConvNanLost k.val).toNat +
        ((List.range 512).filter fun e => (q e).2 == .nanLost).length) 0xFFFFFFFF

/-- Parameters, the scalar block and program control (R127, R128, R136). -/
def Obligations.ParametersAndControl : Prop :=
  ∀ (s : State) (k : Fin 16) (c : SliceCtx) (sd sa : Fin 32) (cond : Fin 8) (imm : W16),
    let x := s.slice k.val
    let target : Int := x.pc + imm.toInt
    let go := fun (i : Instr) (y : Slice) => exec i s = .next (s.setSlice k.val y)
    s.sliceCtx k.val = some c →
    (imm.toNat < imgParams c.img → ScalarWritten s (.sldp k sd sa imm) k sd.val
      (BitVec.ofNat 64 (fieldLE ((c.step.silt.map SiltEntry.params).getD c.job.params) (4 * imm.toNat) 4))) ∧
    (imm.toNat ≤ 511 → ScalarWritten s (.sldb k sd sa imm) k sd.val (c.job.strata.committed.scalar imm.toNat)) ∧
    (imm.toNat ≤ 447 → k.val ≠ 0 → ∃ t, exec (.sstb k sd sa imm) s = .next t ∧ SliceDone s t k x ∧ t.regs = s.regs) ∧
    (imm.toNat ≤ 447 → k.val = 0 → ∃ t, exec (.sstb k sd sa imm) s = .next t ∧ SliceDone { s with jobs := t.jobs } t k x ∧
      t.regs = s.regs ∧ t.jobs = (s.updMod c.disp fun j => { j with strata := { j.strata with working :=
        (j.strata.working.map fun w => { w with scalars := Tbl.set w.scalars imm.toNat (x.sget sa.val) }) } }).jobs) ∧
    (x.loops.length < 4 → x.pc + imm.toNat < imgTo c.img c.inv.phase → x.sget sa.val ≠ 0 → imm ≠ 0 →
      go (.loop k sd sa imm) { x with pc := x.pc + 1, loops := ⟨x.pc + 1, x.pc + imm.toNat, (x.sget sa.val).toNat⟩ :: x.loops }) ∧
    (x.loops.length < 4 → x.pc + imm.toNat < imgTo c.img c.inv.phase → x.sget sa.val = 0 ∨ imm = 0 →
      go (.loop k sd sa imm) (x.next (x.pc + imm.toNat))) ∧
    (cond.val ≤ 3 → brTaken cond.val (x.sget sa.val) = false → go (.br k sa cond 0 imm) (x.next x.pc)) ∧
    (cond.val ≤ 3 → brTaken cond.val (x.sget sa.val) = true → (imgFrom c.img c.inv.phase : Int) ≤ target →
      target < (imgTo c.img c.inv.phase : Int) → go (.br k sa cond 0 imm)
        { x with pc := target.toNat, loops := x.loops.dropWhile fun l => target.toNat < l.first || l.last < target.toNat }) ∧
    go (.fence k sa cond 0 imm) (x.next x.pc) ∧
    (∃ t, exec (.signal k sd sa imm) s = .next t ∧ t = (s.setSlice k.val (x.next x.pc)).evReason 0 .upd 0xFFFF
      c.inv.job c.inv.step [imm.toNat, k.val])

/-- Every instruction of a slice that a fault has stopped has no effect (R141). -/
def Obligations.StoppedSliceIsInert : Prop :=
  ∀ (s : State) (i : Instr) (k : Fin 16) (w : W32), (s.slice k.val).stopped = true → encodeSlice i = some (k, w) →
    exec i s = .next (s.after s) ∨ exec i s = .next s

/-- Input and output streams of a running invocation (R129 to R133, R71). -/
def Obligations.StreamLoadsAndStores : Prop :=
  ∀ (s : State) (k : Fin 16) (v sa : Fin 32) (stream : Fin 16) (sel : Byte) (c : SliceCtx),
    let x := s.slice k.val
    let st := stream.val
    let kind := imgStream c.img st 0 1
    let mode := imgStream c.img st 3 1
    let plane := imgStream c.img st 1 1
    let fr := imgStream c.img st 2 1
    let pos := x.streamPos c.img st
    let stop := imgStream c.img st 8 8 + imgStream c.img st 0x10 8
    let working := c.job.strata.working.getD c.job.strata.committed
    let moved := fun (y : Slice) => y.pc = (x.next x.pc).pc ∧ y.loops = (x.next x.pc).loops ∧
      y.streamPos c.img st = pos + modeElems mode
    s.sliceCtx k.val = some c → imgBound c.img st c.inv.phase = true → mode < 4 → (mode = 3 → v.val % 2 = 0) →
    -- a load of a plane of the committed (1) or working (6) stratum, element by element; pad lanes read +0
    (kind = 1 ∨ kind = 6 → pos < c.span → ∃ u, exec (.vld k v sa stream sel 0) s = .next (s.after u) ∧ moved (u.slice k.val) ∧
      u.mem = s.mem ∧ u.jobs = s.jobs ∧ u.acc = s.acc ∧
      ∀ e, e < modeElems mode → (u.slice k.val).lane mode v.val e = if pos + e < c.real then
        (elemConvert (modeCode mode) false 0 0 (elemDecode (c.job.shape (0x10 + plane) 1)
          (s.elemAt (if kind = 6 then working else c.job.strata.committed) (c.job.elemPlace plane (c.first + pos + e))
            (fmtBits (c.job.shape (0x10 + plane) 1) / 8)))).1 % 2 ^ modeWidth mode else 0) ∧
    -- a load of an auxiliary plane
    (kind = 4 → pos < stop → ∃ u, exec (.vld k v sa stream sel 0) s = .next (s.after u) ∧ moved (u.slice k.val) ∧
      u.mem = s.mem ∧ u.jobs = s.jobs ∧ u.acc = s.acc ∧
      ∀ e, e < modeElems mode → (u.slice k.val).lane mode v.val e = if pos + e < stop then
        (elemConvert (modeCode mode) false 0 0 (elemDecode (c.job.shape (0x30 + plane) 1)
          (s.elemAt working (c.job.auxPlace plane (pos + e)) (fmtBits (c.job.shape (0x30 + plane) 1) / 8)))).1 % 2 ^ modeWidth mode
        else 0) ∧
    -- a load of the gradient in a first run, without the flags that unscale, keep and sum it
    (kind = 3 → pos < c.span → imgStream c.img st 4 2 = 0 → c.disp.mode = 0 → c.job.siltFormat ≠ 2 →
      ∃ u, exec (.vld k v sa stream sel 0) s = .next (s.after u) ∧ moved (u.slice k.val) ∧ u.mem = s.mem ∧ u.jobs = s.jobs ∧
      u.acc = s.acc ∧ ∀ e, e < modeElems mode → (u.slice k.val).lane mode v.val e =
        if e < min (min (modeElems mode) (c.span - pos)) (c.real - pos) then
          rne (modeFmt mode) (fpDecode fmtB32 (s.gradElem c (c.first + pos + e))) % 2 ^ modeWidth mode else 0) ∧
    -- a store to a plane: the pages become the working stratum's own, then the elements are written, converted
    (kind = 2 → pos < c.span → c.span ≤ c.real → frRound fr ≠ 2 → ∀ t,
      let n := min (modeElems mode) (c.span - pos)
      let place := fun e => c.job.elemPlace plane (c.first + pos + e)
      let q := fun e => frConvert fr 0 (x.value mode v.val e)
      s.workPages c.disp ((List.range n).map fun e => (place e).1).eraseDups = some t →
      ∃ u, exec (.vst k v sa stream sel 0) s = .next (s.after u) ∧ moved (u.slice k.val) ∧ u.jobs = t.jobs ∧ u.acc = t.acc ∧
        u.mem = (t.workWrite c.disp (fmtBits (frFormat fr) / 8) ((List.range n).map fun e => (place e, (q e).1))).mem)

/-- Scratch tiles and seeks (R133, R135). -/
def Obligations.ScratchTilesAndSeek : Prop :=
  ∀ (s : State) (k : Fin 16) (v sa : Fin 32) (stream : Fin 16) (sel : Byte) (c : SliceCtx) (t o : Nat),
    let x := s.slice k.val
    let st := stream.val
    let e := (x.sget sa.val).toNat
    s.sliceCtx k.val = some c →
    (x.tileRef sa.val = some (t, o) →
      LanesWritten s (.vtld k v sa stream sel 0) k 0 v.val (fun e => (Tbl.get (s.tile t).elems 0 (512 * o + e)).toNat) ∧
      ∃ u, exec (.vtst k v sa stream sel 0) s = .next u ∧ SliceDone { s with acc := u.acc } u k x ∧ u.regs = s.regs ∧
        (∀ i, i < 512 → Tbl.get (u.tile t).elems 0 (512 * o + i) = BitVec.ofNat 32 (x.lane 0 v.val i)) ∧
        (∀ i, i < 512 * o ∨ 512 * o + 512 ≤ i → Tbl.get (u.tile t).elems 0 i = Tbl.get (s.tile t).elems 0 i) ∧
        (u.tile t = { s.tile t with elems := (u.tile t).elems }) ∧ (∀ a, a ≠ t → u.tile a = s.tile a)) ∧
    (imgBound c.img st c.inv.phase = true → imgStream c.img st 0 1 = 4 ∨ imgStream c.img st 0 1 = 5 → e % 512 = 0 →
      imgStream c.img st 8 8 ≤ e → e < imgStream c.img st 8 8 + imgStream c.img st 0x10 8 →
      ∃ u, exec (.vseek k v sa stream sel 0) s = .next u ∧ SliceDone s u k { x with pos := Tbl.set x.pos st e } ∧ u.regs = s.regs)

/-- HALT of an invocation whose output streams are complete and which poison has not reached (R139, R141). -/
def Obligations.HaltEndsInvocation : Prop :=
  ∀ (s : State) (k : Fin 16) (sa : Fin 32) (cond : Fin 8) (off : W16) (c : SliceCtx),
    let x := s.slice k.val
    let left := if c.inv.prologue then { x with left_ := (List.range 24).map (fun i => (i + 8, x.sget (i + 8))), leftV := x.v, leftM := x.m } else x
    let base := s.setSlice k.val { left with run := none, loops := [] }
    s.sliceCtx k.val = some c → x.poison = false →
    (c.inv.prologue = true ∨ ∀ st, st < 16 → imgBound c.img st c.inv.phase = true → imgStream c.img st 0 1 = 2 →
      c.span ≤ x.streamPos c.img st) →
    (∀ inv rest, x.todo = inv :: rest →
      ∃ u, exec (.halt k sa cond 0 off) s = .next (s.after u) ∧ u = base.startInv k.val c.disp c.job c.step inv rest ∧
        (u.slice k.val).run = some inv ∧ (u.slice k.val).todo = rest ∧
        (u.slice k.val).pc = (if inv.prologue then imgPrologue (s.image c.disp.kernel) inv.phase
          else imgBody (s.image c.disp.kernel) inv.phase) ∧
        -- a body finds the registers as the phase's prologue left them, but for those that are set at entry
        (inv.prologue = false → (u.slice k.val).v = left.leftV ∧ (∀ r, r ≠ 7 → (u.slice k.val).mget r = Slice.mget { left with m := left.leftM } r) ∧
          ∀ r, 8 ≤ r → r < 32 → (u.slice k.val).sget r = Tbl.get left.left_ 0 r)) ∧
    (x.todo = [] → (c.disp.mode = 3 ∨ c.inv.phase ≠ imgGradLast c.img) →
      exec (.halt k sa cond 0 off) s = .next (s.after base)) ∧
    (x.todo = [] → c.disp.mode ≠ 3 → c.inv.phase = imgGradLast c.img →
      exec (.halt k sa cond 0 off) s = .next (s.after (base.tilesConsumed c.disp k.val)))

/-- Kernel faults (R128, R141). -/
def Obligations.KernelFaults : Prop :=
  ∀ (s : State) (k : Fin 16) (w : W32) (vd va vb vc : Fin 32) (mask mode : Fin 8) (stream : Fin 16) (sel : Byte),
    (s.slice k.val).stopped = false →
    (∃ u, exec (.illegal k w) s = .next u ∧ SliceFaulted s u k 1 0) ∧
    (∀ c, s.sliceCtx k.val = some c → ∃ u, exec (.kernelLimit k) s = .next (s.after u) ∧ SliceFaulted s u k 7 0) ∧
    (modeOk mode.val [vd.val, va.val, vb.val] = false →
      ∃ u, exec (.vadd k vd va vb vc mask mode) s = .next u ∧ SliceFaulted s u k 1 0) ∧
    (∀ c, s.sliceCtx k.val = some c → imgBound c.img stream.val c.inv.phase = false →
      (∃ u, exec (.vld k va vb stream sel 0) s = .next (s.after u) ∧ SliceFaulted s u k 2 stream.val) ∧
      (∃ u, exec (.vst k va vb stream sel 0) s = .next (s.after u) ∧ SliceFaulted s u k 3 stream.val)) ∧
    (∀ c, s.sliceCtx k.val = some c → (s.slice k.val).tileRef vb.val = none →
      (∃ u, exec (.vtld k va vb stream sel 0) s = .next u ∧ SliceFaulted s u k 5 0) ∧
      (∃ u, exec (.vtst k va vb stream sel 0) s = .next u ∧ SliceFaulted s u k 5 0)) ∧
    (∀ c, s.sliceCtx k.val = some c → ∀ imm : W16, imgParams c.img ≤ imm.toNat →
      ∃ u, exec (.sldp k vd va imm) s = .next u ∧ SliceFaulted s u k 6 0)

/-- A site engine, its stream buffer and the stream (R84, R153, R154, R158 to R161): an entry begins only when its layer is readable and
the window has room for it; a unit is converted only when the buffer has room; and a packet leaves only under credits. Window releases and received-through values (R159, R160, R162, R217, R219): a released entry's packets that have not begun to leave are
dropped, counted and skipped; a parked engine resumes after what the block has received, and a tag that the block does not report starts
again. -/
def Obligations.StreamCommands : Prop :=
  (∀ (s : State) (k : Fin 8) (g : Engine) (j : Job) (e : SchedEntry), s.engineNow k.val = some g → s.job? g.job = some j →
      let l := schedList (j.schedFor g.step) k.val
      let fr := s.entryFr j k.val e
      let n := e.bytes fr
      let upd := fun (t : State) (f : Engine → Engine) =>
        t.setEngines k.val ((t.engines k.val).map fun x => if x.job = g.job ∧ x.step = g.step then f x else x)
      l[g.entry]? = some e →
      (g.begun = false → g.opened = true → j.mayStream = true → s.stm.parked.getLsbD k.val = false → g.released.contains g.entry = false →
        (j.layerReadable g.step e.layer = false → g.layerWait = false → exec (.streamEntryBegin k) s =
          .next (s.after ((upd s fun x => { x with layerWait := true }).bump .stmLayerWait k.val))) ∧
        (j.layerReadable g.step e.layer = true → (∀ c ∈ g.charged, c.1 ≠ g.entry) →
          (s.siteWindow k.val < s.windowOut k.val + n → g.winWait = false → exec (.streamEntryBegin k) s =
            .next (s.after ((upd s fun x => { x with winWait := true }).bump .stmWinWait k.val))) ∧
          (s.windowOut k.val + n ≤ s.siteWindow k.val → exec (.streamEntryBegin k) s =
            .next (s.after (upd s fun x => { x with begun := true, charged := x.charged ++ [(g.entry, n)] })))) ∧
        -- an entry that is charged already, since the engine resumes in its middle, is not charged again
        (j.layerReadable g.step e.layer = true → (∃ c ∈ g.charged, c.1 = g.entry) → s.windowOut k.val ≤ s.siteWindow k.val →
          exec (.streamEntryBegin k) s = .next (s.after (upd s fun x => { x with begun := true })))) ∧
      (g.begun = false → g.opened = true → j.mayStream = true → s.stm.parked.getLsbD k.val = false → g.released.contains g.entry = true →
        exec (.streamEntryBegin k) s = .next (s.after ((upd s fun x => { x.nextEntry l.length with seqNo := x.seqNo + e.units }).bumpBy
          .stmPktsSkipped e.units k.val))) ∧
      (g.begun = true → s.stm.parked.getLsbD k.val = false →
        let len := unitBytes (frFormat fr) (e.unitLen g.unit) e.rowStats
        let t := j.streamStratum g.step
        let vals := s.unitVals j t (e.first + 4096 * g.unit) (e.unitLen g.unit)
        let on := upd s fun x => if x.unit + 1 < e.units then { x with unit := x.unit + 1, seqNo := x.seqNo + 1 }
          else { x.nextEntry l.length with seqNo := x.seqNo + 1 }
        (2 ^ 23 < s.bufUsed k.val + len → exec (.streamPacketEnqueue k) s = .next (s.after s)) ∧
        (s.bufUsed k.val + len ≤ 2 ^ 23 → (∃ v ∈ vals, t.poisoned.contains v.2.1 = true) →
          exec (.streamPacketEnqueue k) s = .next (s.after on)) ∧
        (s.bufUsed k.val + len ≤ 2 ^ 23 → (∀ v ∈ vals, t.poisoned.contains v.2.1 = false) →
          let first := e.first + 4096 * g.unit
          let body := unitPayload fr (unitWords j g.step k.val vals) (vals.map Prod.fst) e.rowStats
          -- sites that stand near enough share the read, and its conversion under the same FR byte unless the rounding is stochastic
          let others := s.unitReaders j k.val g e.layer first
          ∃ p : Packet, p.content = streamHeader e fr g.entry g.unit n g.step ++ body.1 ∧ p.hdr.tag = g.step.setWidth 8 ∧
            p.hdr.seq = BitVec.ofNat 32 g.seqNo ∧ p.hdr.jobId = g.job ∧
            let u := if others = [] then on else on.bump .stmReadsShared k.val
            let u := { u with stm.buffers := Tbl.set s.stm.buffers k.val (Tbl.get s.stm.buffers [] k.val ++ [p]) }
            let left := 2 ^ 19 - first % 2 ^ 19
            exec (.streamPacketEnqueue k) s = .next (s.after (if others.contains fr = true ∧ frRound fr ≠ 2 then u
              else (u.countConv (sliceOf first) (body.2.take left)).countConv (sliceOf (first + left)) (body.2.drop left))))) ∧
      -- the next packet of the buffer is offered to the spoke, but does not leave the buffer before its flits have gone
      (∀ p, (Tbl.get s.stm.buffers [] k.val)[(s.port k.val).streams]? = some p →
        ((s.port k.val).up = false ∨ (s.port k.val).credit 0 < p.flitCount → exec (.streamPacketSend k) s = .next (s.after s)) ∧
        ((s.port k.val).up = true → p.flitCount ≤ (s.port k.val).credit 0 →
          exec (.streamPacketSend k) s = .next (s.after (s.queuePkt k.val 0 p))))) ∧
  (∀ (s : State) (k : Fin 8) (m : CtlMsg),
      (m.formOk 8 = false ∨ zeroBytes m.bytes 5 3 = false → exec (.windowRelease k m) s = .next (s.after (s.bump .spkMalformed k.val))) ∧
      (m.formOk 8 = true → zeroBytes m.bytes 5 3 = true →
        let entry := m.get 0 4
        let mine := fun (g : Engine) => g.job == m.jobId && g.step == m.ident && g.step.setWidth 8 == m.bytes.getD 4 0
        ((s.engines k.val).find? mine = none → exec (.windowRelease k m) s = .next (s.after s)) ∧
        ∀ g, (s.engines k.val).find? mine = some g → (g.entry ≠ entry ∨ g.begun = false) →
          let hit := fun (p : Packet) => p.hdr.jobId == g.job && p.hdr.tag == g.step.setWidth 8 && fieldLE p.content 4 4 == entry
          let buf := Tbl.get s.stm.buffers [] k.val
          let t := s.modEngine k.val g.job g.step fun x => { x with charged := x.charged.filter fun c => c.1 != entry
                                                                    released := if x.released.contains entry then x.released else x.released ++ [entry] }
          -- a packet that has begun to leave goes on; the others of the entry go
          let begun := ((s.port k.val).txq.filter fun (x : TxPkt) => x.pkt.hdr.kind == 1 && x.done != 0).length
          let gone := ((buf.drop begun).filter hit).length
          (gone = 0 → exec (.windowRelease k m) s = .next (s.after t)) ∧
          (gone ≠ 0 →
            let stays := fun (x : TxPkt) => x.pkt.hdr.kind != 1 || x.done != 0 || !hit x.pkt
            let t := t.setPort k.val { s.port k.val with txq := (s.port k.val).txq.filter stays }
            let t := { t with stm.buffers := Tbl.set s.stm.buffers k.val (buf.take begun ++ (buf.drop begun).filter fun p => !hit p) }
            exec (.windowRelease k m) s = .next (s.after ((t.bumpBy .stmPktsDropped gone k.val).bumpBy .stmPktsSkipped gone k.val)))) ∧
      (m.formOk 12 = true → m.get 2 1 < 4 → zeroBytes m.bytes 3 1 = true →
        (s.stm.parked.getLsbD k.val = false ∨ (s.port k.val).up = false → exec (.receivedThrough k m) s = .next (s.after s)) ∧
        (s.stm.parked.getLsbD k.val = true → (s.port k.val).up = true → ∃ u, exec (.receivedThrough k m) s = .next (s.after u) ∧
          u = { s with stm.engines := u.stm.engines, stm.parked := u.stm.parked } ∧ (∀ q, q ≠ k.val → u.engines q = s.engines q) ∧
          u.stm.parked.getLsbD k.val = false ∧ u.engines k.val = (s.engines k.val).map fun g =>
            let l := ((s.job? g.job).map fun j => schedList (j.schedFor g.step) k.val).getD []
            let bytes := fun (e : SchedEntry) => ((s.job? g.job).map fun j => e.bytes (s.entryFr j k.val e)).getD 0
            let tag := g.step.setWidth 8
            if g.job ≠ m.jobId ∧ m.jobId ≠ 0 then g
            else if (m.get 2 1).testBit 0 ∧ m.bytes.getD 0 0 = tag then
              { g.seek l bytes (if m.get 4 4 = 0xFFFFFFFF then 0 else m.get 4 4 + 1) with opened := true }
            else if (m.get 2 1).testBit 1 ∧ m.bytes.getD 1 0 = tag then
              { g.seek l bytes (if m.get 8 4 = 0xFFFFFFFF then 0 else m.get 8 4 + 1) with opened := true }
            else Engine.start g.job g.step)) ∧
      (m.formOk 12 = false → exec (.receivedThrough k m) s = .next (s.after (s.bump .spkMalformed k.val))))

/-- A slot of an arbiter (R166, R169, R170): floor, high, normal and surplus grants in that order, each to the next ready requester in
round-robin order; what a grant counts; and that a slot without a grant does not count. The end of a window, a withdrawn grant and a quota write (R166 to R168). -/
def Obligations.ArbiterSlots : Prop :=
  (∀ (s : State) (a : Fin 24) (ready : Byte),
      let x := s.arb a.val
      let rdy := fun (r : Nat) => (ready &&& arbServes a.val).getLsbD r
      let high := fun (r : Nat) => (s.fld .stmArbPrio 0 8 a.val).testBit r
      let quota := fun (r : Nat) => min 4096 (s.rd .stmArbQuota (8 * a.val + r)).toNat
      let floor := min 4096 (s.rd .stmArbFloor a.val).toNat
      let owed := x.normalGranted < floor ∧ 4096 - x.slot ≤ floor - x.normalGranted
      let normalOk := fun (r : Nat) => rdy r && !high r
      let highOk := fun (r : Nat) => rdy r && high r && !x.masked.getLsbD r
      let surplusOk := fun (r : Nat) => rdy r && high r && x.masked.getLsbD r && !x.cut.getLsbD r
      let picks := fun (last : Nat) (ok : Nat → Bool) (r : Nat) => r < 8 ∧ ok r = true ∧ ∃ i, i < 8 ∧ (last + 1 + i) % 8 = r ∧
        ∀ h, h < i → ok ((last + 1 + h) % 8) = false
      x.slot < 4096 →
      ∃ u, exec (.arbSlot a ready) s = .next u ∧ u = { s with regs := u.regs, stm.arbs := u.stm.arbs, ports := u.ports } ∧
        (∀ b, b ≠ a.val → u.arb b = s.arb b) ∧
        -- a grant of a spoke's arbiter lets 256 bytes of its stream go: eight flits (R164)
        (a.val < 16 ∨ (u.arb a.val).granted = none → u.ports = s.ports) ∧
        (16 ≤ a.val → (u.arb a.val).granted.isSome = true →
          u.ports = (s.setPort (a.val - 16) { s.port (a.val - 16) with granted := (s.port (a.val - 16)).granted + 8 }).ports) ∧
        let y := u.arb a.val
        let normal := fun (r : Nat) => y.granted = some (r, false) ∧ y.normalGranted = x.normalGranted + 1 ∧ y.lastNormal = r ∧ y.use = x.use ∧
          y.masked = x.masked ∧ y.lastHigh = x.lastHigh ∧ y.slot = x.slot + 1
        (owed → ∀ r, picks x.lastNormal normalOk r → normal r) ∧
        (¬ owed ∨ (∀ r, r < 8 → normalOk r = false) →
          (∀ r, picks x.lastHigh highOk r → y.granted = some (r, false) ∧ y.use = x.use.set r (x.use.getD r 0 + 1) ∧ y.lastHigh = r ∧
            (y.masked.getLsbD r = decide (quota r ≤ x.use.getD r 0 + 1)) ∧ y.normalGranted = x.normalGranted ∧ y.slot = x.slot + 1) ∧
          ((∀ r, r < 8 → highOk r = false) →
            (∀ r, picks x.lastNormal normalOk r → normal r) ∧
            ((∀ r, r < 8 → normalOk r = false) →
              (s.fld .stmCtrl 0 1 = 1 → ∀ r, picks x.lastHigh surplusOk r → y.granted = some (r, true) ∧ y.use = x.use ∧ y.slot = x.slot + 1) ∧
              (s.fld .stmCtrl 0 1 = 0 ∨ (∀ r, r < 8 → surplusOk r = false) → y.granted = none ∧ y.slot = x.slot ∧ y.use = x.use)))) ∧
        y.cut = x.cut ∧ (∀ r, r < 8 → (rdy r = false ∨ y.granted.map Prod.fst = some r → y.forecast.getD r 0 = 0) ∧ y.forecast.getD r 0 < 256)) ∧
  (∀ (s : State) (a : Fin 24) (r : Fin 8) (v : W32),
      let x := s.arb a.val
      let high := (s.fld .stmArbPrio 0 8 a.val).testBit
      let quota := fun (r : Nat) => min 4096 (s.rd .stmArbQuota (8 * a.val + r)).toNat
      (x.slot ≠ 4096 → exec (.arbWindowEnd a) s = .next s) ∧
      (x.slot = 4096 → ∃ y : Arb, exec (.arbWindowEnd a) s = .next ((s.setArb a.val y).bump .stmArbWindows a.val) ∧ y.slot = 0 ∧
        (∀ q, q < 8 → y.use.getD q 0 = 0) ∧ y.normalGranted = 0 ∧ y.cut = 0 ∧
        (∀ q, q < 8 → y.masked.getLsbD q = (high q && decide (quota q = 0))) ∧ y.lastHigh = x.lastHigh ∧ y.lastNormal = x.lastNormal) ∧
      (x.granted = none → exec (.arbGrantWithdraw a) s = .next s) ∧
      (let dead := fun (y : Arb) =>
         let t := (s.setArb a.val y).bump .stmArbDead a.val
         if a.val < 16 then t else t.setPort (a.val - 16) { s.port (a.val - 16) with granted := (s.port (a.val - 16)).granted - 8 }
       (∀ q, x.granted = some (q, true) ∨ (x.granted = some (q, false) ∧ high q = false) →
         exec (.arbGrantWithdraw a) s = .next (dead { x with granted := none })) ∧
       (∀ q, x.granted = some (q, false) → high q = true → ∃ y : Arb,
         exec (.arbGrantWithdraw a) s = .next (dead y) ∧ y = { x with
           granted := none, use := x.use.set q (x.use.getD q 0 - 1), masked := y.masked } ∧
         (∀ p, p ≠ q → y.masked.getLsbD p = x.masked.getLsbD p) ∧
         y.masked.getLsbD q = (x.masked.getLsbD q && !(decide (x.use.getD q 0 - 1 < quota q) && !x.cut.getLsbD q)))) ∧
      let t := s.wr .stmArbQuota v (8 * a.val + r.val)
      (high r.val = false ∨ x.use.getD r.val 0 < min 4096 v.toNat → exec (.stmArbQuotaWrite a r v) s = .next t) ∧
      (high r.val = true → min 4096 v.toNat ≤ x.use.getD r.val 0 → ∃ y : Arb, y = { x with masked := y.masked, cut := y.cut } ∧
        (∀ q, q < 8 → y.masked.getLsbD q = (x.masked.getLsbD q || decide (q = r.val)) ∧ y.cut.getLsbD q = (x.cut.getLsbD q || decide (q = r.val))) ∧
        exec (.stmArbQuotaWrite a r v) s = .next ((((t.setArb a.val y).bump .stmArbQuotaCuts a.val).evInt 1 .stmIntStatus 3 0 0
          [a.val, r.val, (s.rd .stmArbQuota (8 * a.val + r.val)).toNat, v.toNat, x.use.getD r.val 0]).keeping s s.brx)))

/-- What a Bruix block sends for the assay (R180 to R182, R188, R190, R192): records of an open step are queued whole, and credits are
withheld, not records dropped, once a queue is above its mark: of every spoke for the sample queue, of the spokes whose reports came for the
ABFT queue; what is of no open step is counted and discarded. The engine's own work (R182, R185, R189 to R191, R197 to R199): the oldest sample is judged and its verdict sent to the partner, a tap
report is judged or held for the non-finite count, and a descent goes one level down the nodes that differ. -/
def Obligations.Assay : Prop :=
  (∀ (s : State) (k : Fin 8) (p : Packet),
      let h := p.hdr
      let b := p.content
      let all := fun (u : State) => exec (.sampleRecordRx k p) s = .next (s.after u) ∧ exec (.tapReportRx k p) s = .next (s.after u) ∧
        exec (.signatureRx k p) s = .next (s.after u)
      (s.genStale k.val h = true → all (s.bump .spkGenDiscards k.val)) ∧
      (s.genStale k.val h = false → (∀ j, s.job? h.jobId = some j → j.tag? h.tag = none) → all (s.bump .spkTagDiscards k.val)) ∧
      ∀ j o, s.genStale k.val h = false → s.job? h.jobId = some j → j.tag? h.tag = some o →
        let x : Sample := ⟨k.val, j.id, h.gen, b, false, false⟩
        let size := fun (l : List Sample) => (l.map fun y => y.bytes.length).sum
        let mark := min 49152 (s.fld .asyQueue 0 16) * 1024
        -- what a state is after its credits have been settled
        let settled := fun (t u : State) =>
          let full := decide (mark < size t.asy.samples)
          let hold := if size (t.asy.taps ++ t.asy.heldTaps) ≤ 2 ^ 23 then 0 else t.asy.abftHold
          let v := if full && !t.asy.withheld then t.raise .asyIntStatus 4 else t
          u = { v with asy := { t.asy with withheld := full, abftHold := hold }, ports := u.ports } ∧
            ∀ q, q < 8 → 3 < (t.port q).withhold.length → (u.port q).withhold.getD 3 false = (full || hold.getLsbD q)
        (∃ u, exec (.sampleRecordRx k p) s = .next (s.after u) ∧
          settled (({ s with asy.samples := s.asy.samples ++ [x] }).bump .asySamplesReceived k.val) u) ∧
        (let t := { s with asy.taps := s.asy.taps ++ [x], asy.reported := s.asy.reported ++ [tapKey j.id k.val b] }
         ∃ u, exec (.tapReportRx k p) s = .next (s.after u) ∧ settled (if 2 ^ 23 < size (s.asy.taps ++ [x] ++ s.asy.heldTaps) then
           { t with asy.abftHold := t.asy.abftHold ||| BitVec.ofNat 8 (2 ^ k.val) } else t) u) ∧
        exec (.signatureRx k p) s = .next (s.after { s with asy.sigs := s.asy.sigs ++
          [⟨j.id, o.step, k.val, fieldLE b 4 2, fieldLE b 0x28 8, fieldLE b 0x30 8, fieldLE b 0x38 8⟩] })) ∧
  (∀ (s : State) (holder : W16) (digests : List Digest),
      (s.nextSample = none → exec .sampleCheckDone s = .next (s.after s)) ∧
      (∀ x, s.nextSample = some x →
        (x ∈ s.asy.samples ∧ (x.discarded = true ∨ s.sourceGone x = false) ∧ ∀ y ∈ s.asy.samples,
          (y.discarded = true ∨ s.sourceGone y = false) → x.step.toNat ≤ y.step.toNat) ∧
        let s1 := { s with asy.samples := s.asy.samples.erase x }
        (x.discarded = true → s.sourceGone x = true → exec .sampleCheckDone s = .next (s.after
          ((s1.bump .asySamplesUnchecked x.spoke).sampCredits))) ∧
        (∀ p e, s.judge x = (p, e) → x.discarded = false →
          let counted := if e.verdict = 2 then s1.bump .asySamplesMalformed x.spoke
            else if e.verdict = 1 then (s1.bump .asySamplesChecked x.spoke).bump .asySamplesMismatch x.spoke
            else s1.bump .asySamplesChecked x.spoke
          let b := x.bytes
          let steered := if e.verdict = 0 then counted
            else counted.boost x.job x.spoke (fieldLE b 0x10 2) (BitVec.ofNat 8 (2 ^ (fieldLE b 5 1 % 8))) (b.getD 7 0)
          let seqNo := fieldLE b 0x22 2
          let told := fun (t : State) => t.pairSend 0x49 x.step x.job (verdictsBody false [(x.spoke, seqNo, e.verdict)])
          let words := [fieldLE b 2 2, fieldLE b 0x10 2, fieldLE b 0x12 1, fieldLE b 0x20 2, fieldLE b 0x14 4]
          ∀ j, s.job? x.job = some j →
            (e.verdict = 0 → exec .sampleCheckDone s = .next (s.after
              (((told (steered.verdictPut x.job x.step x.spoke seqNo true 0 [])).verdictsLast x.job).advanceVote x.job).sampCredits)) ∧
            (e.verdict ≠ 0 → x.step.toNat ≤ j.committed.toNat → exec .sampleCheckDone s = .next (s.after
              ((((told (steered.verdictPut x.job x.step x.spoke seqNo true e.verdict [])).finding x.job x.step x.spoke words
                (s.sampWilost x p e)).verdictsLast x.job).advanceVote x.job).sampCredits)) ∧
            (e.verdict ≠ 0 → j.committed.toNat < x.step.toNat → exec .sampleCheckDone s = .next (s.after
              (((told (steered.verdictPut x.job x.step x.spoke seqNo true e.verdict (s.sampWilost x p e))).verdictsLast x.job).advanceVote
                x.job).sampCredits))) ∧
        -- a sample of a discarded attempt counts nowhere and closes no window, but a mismatch is reported, and steers
        (∀ p e, s.judge x = (p, e) → x.discarded = true → s.sourceGone x = false →
          let b := x.bytes
          let words := [fieldLE b 2 2, fieldLE b 0x10 2, fieldLE b 0x12 1, fieldLE b 0x20 2, fieldLE b 0x14 4]
          let u := if e.verdict = 0 then s1 else (s1.boost x.job x.spoke (fieldLE b 0x10 2) (BitVec.ofNat 8 (2 ^ (fieldLE b 5 1 % 8)))
            (b.getD 7 0)).evReason 1 .asy 0xFFFF x.job x.step (x.spoke :: words) (some (s.sampWilost x p e))
          exec .sampleCheckDone s = .next (s.after ((u.verdictsLast x.job).advanceVote x.job).sampCredits))) ∧
      (s.asy.taps = [] → exec .abftCheckDone s = .next (s.after s)) ∧
      (∀ x r, s.asy.taps = x :: r →
        let t := { s with asy.taps := r }
        let gone := x.gone = true ∨ ((s.job? x.job).bind fun j => j.stratumOf (x.step - 1) (fieldLE x.bytes 4 2)) = none
        let scalar := (s.job? x.job).bind fun j => (j.step? x.step).bind OpenStep.scalar
        let ends := fun (u : State) => exec .abftCheckDone s = .next (s.after u.sampCredits)
        -- a report with a non-finite value waits for the step's non-finite count, which decides it at once where it is known
        (x.discarded = false → tapNonfinite x.bytes = true →
          (scalar = none → ends { t with asy.heldTaps := s.asy.heldTaps ++ [x] }) ∧
          (∀ v f, scalar = some (v, 0, f) → ends ((t.tapJudged x).tapFail x none)) ∧
          (∀ v n f, scalar = some (v, n, f) → n ≠ 0 → ends t)) ∧
        (x.discarded = false → tapNonfinite x.bytes = false →
          (t.tapCheck x = none → ends (t.tapJudged x)) ∧ (∀ e, t.tapCheck x = some e → ends ((t.tapJudged x).tapFail x e))) ∧
        -- one of a discarded attempt is dropped where its source is gone; else it counts nowhere, but a failure is reported
        (x.discarded = true → gone ∨ tapNonfinite x.bytes = true → ends t) ∧
        (x.discarded = true → ¬ gone → tapNonfinite x.bytes = false →
          (t.tapCheck x = none → ends t) ∧ (∀ e, t.tapCheck x = some e → ends (t.tapFail x e)))) ∧
      -- a descent with a holder goes one level down the nodes that differ, and sends this side's digests of the next; at the leaves it ends
      (let which := (s.asy.descents.find? fun d => d.holder == holder.toNat) <|> s.asy.descents.find? fun d => d.holder == 0xFFFF
       (which = none → exec (.localisationLevel ⟨holder, digests⟩) s = .next (s.after s)) ∧
       ∀ old, which = some old →
         let d := { old with holder := holder.toNat }
         let put := fun (x : Descent) => { s with asy.descents := s.asy.descents.map fun y => if y == old then x else y }
         let own := treeNodes (d.level - 1) (d.leaves ++ List.replicate (2 ^ bitLength (d.leaves.length - 1) - d.leaves.length) 0)
         let kids := d.nodes.flatMap fun n => [2 * n, 2 * n + 1]
         let differ := (kids.zipIdx.filter fun e => own.getD e.1 0 != digests.getD e.2 0).map Prod.fst
         (d.level = 0 → exec (.localisationLevel ⟨holder, digests⟩) s = .next (s.after ((put d).descentEnd d d.nodes))) ∧
         (d.level = 1 ∨ (2 ≤ d.level ∧ differ = []) → exec (.localisationLevel ⟨holder, digests⟩) s =
           .next (s.after ((put d).descentEnd d ((differ.filter fun p => p < d.leaves.length).take 16)))) ∧
         (2 ≤ d.level → differ ≠ [] →
           let x := { d with level := d.level - 1, nodes := differ }
           exec (.localisationLevel ⟨holder, digests⟩) s =
             .next (s.after ((put x).emit (.nodeDigests holder.toNat d.job d.step (d.level - 2) x.own))))))

/-- Commands of a Bruix block that carry a command ID (R215, R218): a repeated ID is answered with its recorded status and has no further
effect; ADMIT and LEAVE. The open-tag set (R47, R178, R215, R223, R225): TAG_OPEN, TAG_COMMIT, TAG_CLOSE and DIRECTIVE of the admitted job. -/
def Obligations.SiteTags : Prop :=
  (∀ (s : State) (p : Fin 2) (m : CtlMsg),
      let ans := fun (i : Instr) (u : State) => exec i s = .next (s.atSite u)
      -- a repeated ID
      (∀ id ty st r, s.brx.cmds.find? (fun c => c.1 == m.ident) = some (id, ty, st, r) →
        let again := s.brxAck p ty m.ident m.jobId st r (ty == 0x10 && st == 0)
        ans (.admitSite p m) again ∧ ans (.routeStage p m) again ∧ ans (.freeze p m) again ∧ ans (.regWrite p m) again ∧ ans (.leave p m) again ∧
          (s.brx.reset = none → ans (.resetDomain p m) again) ∧ ((∀ a ∈ s.brx.swapAcks, a.2 ≠ m.ident) → ans (.routeCommit p m) again)) ∧
      (s.brx.cmds.find? (fun c => c.1 == m.ident) = none →
        -- ADMIT
        (s.capValid = false ∨ s.admitFormOk m = false → ans (.admitSite p m) (s.brxDone p 0x10 m 2)) ∧
        (s.capValid = true → s.admitFormOk m = true → (s.brx.job ≠ 0 ∧ s.brx.job ≠ m.jobId) ∨ s.brx.reset.isSome = true ∨
            (∃ c ∈ s.brx.closing, c.acks ≠ []) ∨ (∃ k ∈ m.openSteps, s.brx.heldBack.contains (k.setWidth 8) = true) →
          ans (.admitSite p m) (s.brxDone p 0x10 m 1)) ∧
        (s.capValid = true → s.admitFormOk m = true → s.brx.job = 0 ∨ s.brx.job = m.jobId → s.brx.reset = none →
            (∀ c ∈ s.brx.closing, c.acks = []) → (∀ k ∈ m.openSteps, s.brx.heldBack.contains (k.setWidth 8) = false) →
          ∃ u : State, ans (.admitSite p m) ((((u.brxRecord m.ident 0x10 0).brxAck p 0x10 m.ident m.jobId 0 0 true).brxAck
              (if p = 0 then 1 else 0) 0x10 m.ident m.jobId 0 0 true).tellReceived) ∧
            u.brx.job = m.jobId ∧ u.brx.seed.toNat = m.get 8 4 ∧ u.brx.logical.toNat = m.get 0 2 ∧ u.brx.gradFmt.val = m.get 3 1 % 32 ∧
            u.brx.cursors = (List.range 4).map (fun f => BitVec.ofNat 64 (m.get (0x20 + 8 * f) 8)) ∧
            u.brx.older.map BrxTag.step = m.openSteps[0]? ∧ u.brx.newer.map BrxTag.step = m.openSteps[1]? ∧
            (∀ t, u.brx.older = some t ∨ u.brx.newer = some t → t.got = 0 ∧ t.bitmap = 0 ∧ t.draws = []) ∧
            u.brx.ring = [] ∧ u.brx.hang = false ∧ u.brx.gen = s.brx.gen ∧ u.brx.heldBack = s.brx.heldBack ∧ u.brx.bank0 = s.brx.bank0 ∧
            (s.brx.job ≠ m.jobId → u.brx.directives = []) ∧ u.ports = s.ports ∧
            (∀ k, k < 16 → (∃ d, d < s.capFld 5 1 ∧ ((capDomain s.capBytes d).2.2.2.2).testBit k = true) →
              u.rd .brxWdog k = BitVec.ofNat 32 (2 ^ 31 + m.get 4 2))) ∧
        -- LEAVE
        (m.formOk 0 = false → ans (.leave p m) (s.brxDone p 0x1B m 2)) ∧
        (m.formOk 0 = true → (∃ c ∈ s.brx.closing, c.acks ≠ []) →
          ans (.leave p m) { s with brx.leaveWait := s.brx.leaveWait ++ [(p, m.ident)] }) ∧
        (m.formOk 0 = true → (∀ c ∈ s.brx.closing, c.acks = []) → ∃ u : State, ans (.leave p m) (u.brxDone p 0x1B m 0) ∧
          u.brx.job = 0 ∧ u.brx.logical = 0 ∧ u.brx.older = none ∧ u.brx.newer = none ∧ u.brx.hang = false ∧
          u.brx.heldBack = s.brx.heldBack ∧ u.brx.abortSeq = s.brx.abortSeq ∧ (∀ k, k < 16 → (u.rd .brxWdog k).getLsbD 31 = false)))) ∧
  (∀ (s : State) (p : Fin 2) (m : CtlMsg),
      let ans := fun (i : Instr) (u : State) => exec i s = .next (s.atSite u)
      let ack := fun (u : State) (ty : Nat) (st : Byte) => u.brxAck p ty m.ident m.jobId st
      let tag := m.ident.setWidth 8
      let lead := fun (k : W64) => k.setWidth 8
      let awaited := s.brx.closing.any (fun c => c.acks != [] && c.steps.any fun k => lead k == tag)
      -- a message of another job, or while none is admitted
      (s.brx.job = 0 ∨ s.brx.job ≠ m.jobId →
        (m.formOk 0 = true → ans (.tagOpen p m) (ack s 0x11 1) ∧ ans (.tagCommit p m) (ack s 0x13 1)) ∧
        (directiveOk m = true → ans (.directive p m) (ack s 0x14 1)) ∧
        (m.formOk 8 = true → m.get 0 1 ≤ 3 → zeroBytes m.bytes 2 6 = true → ans (.tagClose p m) (ack s 0x12 1))) ∧
      (m.formOk 0 = false → ans (.tagOpen p m) (ack s 0x11 2) ∧ ans (.tagCommit p m) (ack s 0x13 2)) ∧
      (directiveOk m = false → ans (.directive p m) (ack s 0x14 2)) ∧
      (s.brx.job ≠ 0 → s.brx.job = m.jobId →
        -- TAG_OPEN
        (m.formOk 0 = true →
          ((s.brx.find tag).isSome = true → (∀ a ∈ s.brx.openWait, a.2 ≠ m.ident) → ans (.tagOpen p m) (ack s 0x11 0)) ∧
          ((s.brx.find tag) = none → awaited = true ∨ s.brx.heldBack.contains tag = true → ans (.tagOpen p m) (ack s 0x11 1)) ∧
          ((s.brx.find tag) = none → awaited = false → s.brx.heldBack.contains tag = false →
            (s.brx.older = none → s.brx.newer = none → ∃ u : State, u.brx.older.map BrxTag.step = some m.ident ∧ u.brx.newer = none ∧
              u.ports = s.ports ∧ u.brx.ring = s.brx.ring ∧ u.brx.cursors = s.brx.cursors ∧ u.regs = s.regs ∧
              (s.brx.swapTag ≠ some tag → ans (.tagOpen p m) (ack u 0x11 0)) ∧
              (s.brx.swapTag = some tag → ans (.tagOpen p m)
                { u with brx.swapTag := none, brx.swapNow := true, brx.openWait := s.brx.openWait ++ [(p, m.ident)] })) ∧
            (∀ o, s.brx.older = some o → s.brx.newer = none → lead o.step + 1 = tag → s.brx.swapTag ≠ some tag → ∃ u : State,
              u.brx.older = some o ∧ u.brx.newer.map BrxTag.step = some m.ident ∧ u.ports = s.ports ∧ ans (.tagOpen p m) (ack u 0x11 0)) ∧
            (∀ o, s.brx.older = some o → s.brx.newer.isSome = true ∨ lead o.step + 1 ≠ tag → ans (.tagOpen p m) (ack s 0x11 1)))) ∧
        -- TAG_COMMIT
        (m.formOk 0 = true →
          (∀ o, s.brx.older = some o → lead o.step = tag → ∃ u : State, ans (.tagCommit p m) (ack u 0x13 0) ∧
            u = { s with brx := u.brx } ∧ u.brx.older = s.brx.newer ∧ u.brx.newer = none ∧ u.brx.retired = some m.ident ∧
            u.brx.ring = s.brx.ring ∧ u.brx.cursors = s.brx.cursors) ∧
          ((∀ o, s.brx.older = some o → lead o.step ≠ tag) →
            (s.brx.retired = some m.ident → ans (.tagCommit p m) (ack s 0x13 0)) ∧
            (s.brx.retired ≠ some m.ident → ans (.tagCommit p m) (ack s 0x13 1)))) ∧
        -- TAG_CLOSE: the older is never closed alone
        (m.formOk 8 = true → m.get 0 1 ≤ 3 → zeroBytes m.bytes 2 6 = true → m.get 0 1 ≠ 0 → m.get 0 1 ≠ 3 →
          (∀ o, s.brx.older = some o → lead o.step = tag → ans (.tagClose p m) (s.closeTags true (some 2) [(p, m.ident)])) ∧
          ((∀ o, s.brx.older = some o → lead o.step ≠ tag) →
            (∀ n, s.brx.newer = some n → lead n.step = tag → ans (.tagClose p m) (s.closeTags false (some 2) [(p, m.ident)])) ∧
            ((∀ n, s.brx.newer = some n → lead n.step ≠ tag) → (∀ c ∈ s.brx.closing, ∀ k ∈ c.steps, lead k ≠ tag) →
              ans (.tagClose p m) (ack s 0x12 (if s.brx.heldBack.contains tag then 4 else 0))))) ∧
        -- DIRECTIVE
        (directiveOk m = true →
          ((∃ d ∈ s.brx.directives, d.1 = m.ident) → ans (.directive p m) (ack s 0x14 0)) ∧
          ((∀ d ∈ s.brx.directives, d.1 ≠ m.ident) → ans (.directive p m)
            (ack { s with brx.directives := (m.ident, sliceBytes m.bytes 0 64) :: s.brx.directives } 0x14 0)))) ∧
      -- what a closure does (steps 1 to 5)
      (∀ (older : Bool) acks, let o := if older then s.brx.older else none
        let steps := (o.toList ++ s.brx.newer.toList).map BrxTag.step
        steps ≠ [] → let u := s.closeTags older (some 2) acks
          u.brx.newer = none ∧ (older = true → u.brx.older = none) ∧ (older = false → u.brx.older = s.brx.older) ∧
          u.brx.abortSeq = s.brx.abortSeq + 1 ∧ (∀ e ∈ u.brx.ring, e.step ∉ steps) ∧
          (∀ t ∈ u.brx.taps, t.desc.tag ∉ steps.map lead) ∧ (∀ t ∈ u.brx.slices, t.desc.tag ∉ steps.map lead) ∧
          (∀ t ∈ u.brx.captures, t.desc.tag ∉ steps.map lead) ∧ (∀ q ∈ u.brx.cursorQueue, q.1 ∉ steps.map lead) ∧
          u.brx.closing = s.brx.closing ++ [⟨steps, o.isSome, s.brx.newer.isSome, false, acks⟩]))

/-- How a closure and a domain reset go on (R225 to R228): the waits of step 6, the ACK of step 7, and the reset sequence. Route banks (R243, R244). -/
def Obligations.SiteClosuresAndRoutes : Prop :=
  (∀ (s : State) (p : Fin 2) (m : CtlMsg) (d : Fin 16) (newer : Bool),
      let ans := fun (i : Instr) (u : State) => exec i s = .next (s.atSite u)
      -- step 6: BRX_ABORT_DONE at a position, and the fabric lifetime since the oldest closure
      ans (.abortDone newer) (State.closeDone { s with brx.closing := s.brx.closing.map fun (c : BrxClose) =>
        if newer then { c with waitNewer := false } else { c with waitOlder := false } }) ∧
      (∀ c rest, s.brx.closing = c :: rest → c.lifetime = false →
        ans .fabricLifetimeElapsed (State.closeDone { s with brx.closing := { c with lifetime := true } :: rest })) ∧
      -- step 7, for one closure
      (∀ (c : BrxClose) (a : Fin 2 × W64), s.brx.closing = [{ c with waitOlder := false, waitNewer := false, lifetime := true, acks := [a] }] →
        s.brx.leaveWait = [] →
        s.closeDone = { (s.brxAck a.1 0x12 a.2 s.brx.job 0) with brx.closing := [] }) ∧
      -- a closure that does not complete is answered ABORT_INCOMPLETE, its tags are held back and a hang is declared
      (∀ c, (s.brx.closing.find? fun c => c.acks != [] && (c.waitOlder || c.waitNewer)) = some c →
        let t := c.acks.foldl (fun (u : State) a => u.brxAck a.1 0x12 a.2 u.brx.job 4) s
        ans .abortIncomplete ((({ t with brx.closing := t.brx.closing.erase c
                                         brx.heldBack := (t.brx.heldBack ++ c.steps.map fun k => BitVec.setWidth 8 k).eraseDups }).declareHang 0 3
          (c.steps.headD 0)).closeDone)) ∧
      ((∀ c ∈ s.brx.closing, c.acks = [] ∨ (c.waitOlder = false ∧ c.waitNewer = false)) → ans .abortIncomplete s) ∧
      -- RESET_DOMAIN
      (s.brx.reset = none → s.brx.cmds.find? (fun c => c.1 == m.ident) = none →
        (m.formOk 8 = false ∨ m.get 0 2 = 0 ∨ 2 ^ s.capFld 5 1 ≤ m.get 0 2 → ans (.resetDomain p m) (s.brxDone p 0x15 m 2)) ∧
        (m.formOk 8 = true → zeroBytes m.bytes 2 6 = true → m.get 0 2 ≠ 0 → m.get 0 2 < 2 ^ s.capFld 5 1 →
          (s.brx.older.isSome = true ∨ s.brx.newer.isSome = true → ans (.resetDomain p m) (s.brxDone p 0x15 m 1)) ∧
          (s.brx.older = none → s.brx.newer = none → ∃ u : State, ans (.resetDomain p m) u ∧ u.brx.gen = s.brx.gen + 1 ∧
            u.brx.reset = some ⟨BitVec.ofNat 16 (m.get 0 2), false, 0, m.ident, [p]⟩ ∧
            u.outbox = s.outbox ++ [.accel (.genOut (s.brx.gen + 1)), .accel (.domReset (BitVec.ofNat 16 (m.get 0 2)) true)] ∧
            u.ports = s.ports ∧ u.brx.ring = s.brx.ring ∧ u.brx.heldBack = s.brx.heldBack))) ∧
      (∀ r, s.brx.reset = some r → r.ident = m.ident →
        ans (.resetDomain p m) { s with brx.reset := some { r with acks := r.acks ++ [p] } }) ∧
      -- the domains are released together, and the last to be ready completes the reset
      (∀ r, s.brx.reset = some r →
        (r.released = false → ∃ u : State, ans .domainResetHoldEnd u ∧ u.brx.reset = some { r with released := true } ∧
          u.outbox = s.outbox ++ [.accel (.domReset r.mask false)] ∧ u.brx.gen = s.brx.gen ∧ u.regs = s.regs ∧ u.ports = s.ports ∧
          ans (.domReady d) s ∧ ans .domainReadyTimeout s) ∧
        (r.released = true → ans .domainResetHoldEnd s ∧
          (r.mask.getLsbD d.val = false → ans (.domReady d) s) ∧
          (r.mask.getLsbD d.val = true →
            let r' := { r with ready := r.ready ||| BitVec.ofNat 16 (2 ^ d.val) }
            (r'.ready = r.mask → ans (.domReady d) (s.resetEnd r' 0 0)) ∧
            (r'.ready ≠ r.mask → ans (.domReady d) { s with brx.reset := some r' })) ∧
          ans .domainReadyTimeout (s.resetEnd r 5 ((r.mask &&& ~~~r.ready).setWidth 32)))) ∧
      (∀ r (result : W32), (s.resetEnd r 0 result).brx.heldBack = [] ∧ (s.resetEnd r 5 result).brx.heldBack = s.brx.heldBack ∧
        (s.resetEnd r 0 result).brx.reset = none ∧ ((∃ k, k < 16 ∧ r.mask.getLsbD k = true ∧ ((capDomain s.capBytes k).2.1).testBit 0 = true) →
          (s.resetEnd r 0 result).brx.ring = [])) ∧
      (s.brx.reset = none → ans .domainResetHoldEnd s ∧ ans (.domReady d) s ∧ ans .domainReadyTimeout s) ∧
      -- BRX_POR_N
      (∃ u : State, ans .brxPor u ∧ u.brx = Brx.por s.brx.physical s.brx.place s.brx.revision s.now ∧ u.brx.gen = 0 ∧ u.brx.job = 0 ∧
        u.brx.older = none ∧ u.brx.newer = none ∧ (∀ q, q ≠ 15 → q ≠ 16 → u.port q = s.port q) ∧ (u.rd .brxCtrl) = BitVec.ofNat 32 (Reg.row .brxCtrl).resetWord ∧
        u.outbox = s.outbox)) ∧
  (∀ (s : State) (p : Fin 2) (m : CtlMsg) (index : W16),
      let ans := fun (i : Instr) (u : State) => exec i s = .next (s.atSite u)
      (s.brx.cmds.find? (fun c => c.1 == m.ident) = none →
        -- ROUTE_STAGE writes the bank that is not active, and a pending swap is cancelled
        (let off := m.get 0 4
         let n := m.get 4 4
         (m.formOk (8 + n) = false ∨ off % 8 ≠ 0 ∨ n % 8 ≠ 0 ∨ n < 8 ∨ 1024 < n → ans (.routeStage p m) (s.brxDone p 0x16 m 2)) ∧
         (m.formOk (8 + n) = true → off % 8 = 0 → n % 8 = 0 → 8 ≤ n → n ≤ 1024 →
           (8 * s.capFld 0x2A 2 < off + n → ans (.routeStage p m) (s.brxDone p 0x16 m 3)) ∧
           (off + n ≤ 8 * s.capFld 0x2A 2 → ∃ u : State, ans (.routeStage p m) (u.brxDone p 0x16 m 0) ∧
             (s.brx.openWait = [] → s.brx.swapAcks = [] → u = { s with brx := u.brx }) ∧ u.brx.swapAcks = [] ∧ u.brx.openWait = [] ∧
             u.brx.swapTag = none ∧ u.brx.swapNow = false ∧ u.brx.activeBank = s.brx.activeBank ∧
             (∀ e, Tbl.get u.brx.staged 0 e = if off / 8 ≤ e ∧ e < off / 8 + n / 8 then BitVec.ofNat 64 (m.get (8 + 8 * (e - off / 8)) 8)
               else Tbl.get s.brx.staged 0 e) ∧
             (if s.brx.activeBank then u.brx.bank1 = s.brx.bank1 else u.brx.bank0 = s.brx.bank0)))) ∧
        -- ROUTE_COMMIT
        ((∀ a ∈ s.brx.swapAcks, a.2 ≠ m.ident) → m.formOk 40 = true → m.get 4 1 ≤ 1 → zeroBytes m.bytes 6 2 = true →
          (m.get 4 1 = 1 → m.get 5 1 = 0) →
          let digest := (shake256 ((List.range (m.get 0 4)).flatMap fun i => leBytes 8 (Tbl.get s.brx.staged 0 i).toNat)).toNat
          (s.capFld 0x2A 2 < m.get 0 4 → ans (.routeCommit p m) (s.brxDone p 0x17 m 3)) ∧
          (m.get 0 4 ≤ s.capFld 0x2A 2 → digest ≠ m.get 8 32 → ans (.routeCommit p m) (s.brxDone p 0x17 m 6)) ∧
          (m.get 0 4 ≤ s.capFld 0x2A 2 → digest = m.get 8 32 →
            (m.get 4 1 = 0 → ans (.routeCommit p m)
              (({ s with brx.swapTag := some (BitVec.ofNat 8 (m.get 5 1)) }).brxDone p 0x17 m 0)) ∧
            (m.get 4 1 = 1 → s.brx.older.isSome = true ∨ s.brx.newer.isSome = true → ans (.routeCommit p m) (s.brxDone p 0x17 m 1)) ∧
            (m.get 4 1 = 1 → s.brx.older = none → s.brx.newer = none → ans (.routeCommit p m)
              { s with brx.swapTag := none, brx.swapNow := true, brx.swapAcks := s.brx.swapAcks ++ [(p, m.ident)] })))) ∧
      -- the swap, and lookups of the active bank
      (s.brx.swapNow = false → ans .routeSwap s) ∧
      (s.brx.swapNow = true → ∃ u : State, ans .routeSwap u ∧ u.brx.activeBank = !s.brx.activeBank ∧ u.brx.swapNow = false ∧
        u.brx.swapAcks = [] ∧ u.brx.openWait = [] ∧ u.brx.bank0 = s.brx.bank0 ∧ u.brx.bank1 = s.brx.bank1 ∧
        (u.rd .brxRouteSwaps).toNat = min ((s.rd .brxRouteSwaps).toNat + 1) 0xFFFFFFFF ∧ (u.rd .brxIntStatus).getLsbD 3 = true) ∧
      (index.toNat < s.capFld 0x2A 2 → ans (.routeLookup index)
        (s.emit (.accel (.route (Tbl.get (if s.brx.activeBank then s.brx.bank1 else s.brx.bank0) 0 index.toNat))))) ∧
      (s.capFld 0x2A 2 ≤ index.toNat → ans (.routeLookup index) (({ s with fresh := s.fresh + 1 }).emit (.accel (.route (Config.freeValue s.fresh))))))

/-- Registers, the capability table's lock and freeze frames of a Bruix block (R12, R213, R214, R217, R242, R245, R490, R497). -/
def Obligations.SiteRegistersAndFreeze : Prop :=
  ∀ (s : State) (p : Fin 2) (m : CtlMsg) (points : List Byte),
    let ans := fun (i : Instr) (u : State) => exec i s = .next (s.atSite u)
    let fresh := s.brx.cmds.find? (fun c => c.1 == m.ident) = none
    -- REG_READ
    (m.formOk 8 = true → m.get 4 1 = 1 → zeroBytes m.bytes 5 3 = true → m.get 0 4 % 4 = 0 → ∀ w t, s.brxRead (m.get 0 4) = (w, t) →
      ans (.regRead p m) (t.brxAnswer p 0x26 0 m.jobId (leBytes 4 (m.get 0 4) ++ [1, 0, 0, 0] ++ leBytes 4 w.toNat))) ∧
    (m.formOk 8 = false ∨ m.get 4 1 = 0 ∨ 64 < m.get 4 1 ∨ m.get 0 4 % 4 ≠ 0 → ans (.regRead p m) (s.brxAck p 0x19 m.ident m.jobId 2)) ∧
    -- REG_WRITE: the acknowledgement bears what the register then holds, and a watchdog it arms counts from now
    (fresh → m.formOk 8 = true → m.get 0 4 % 4 = 0 → ∀ r i, findReg Reg.ofBrx (m.get 0 4) = some (r, i) →
      let t := s.brxWrite (m.get 0 4) (BitVec.ofNat 32 (m.get 4 4)) false
      ans (.regWrite p m) ((State.rearm s t).brxDone p 0x1A m 0 (t.brxReg r i))) ∧
    (fresh → m.formOk 8 = false → ans (.regWrite p m) (s.brxDone p 0x1A m 2)) ∧
    -- cap_lock, which never clears, and freeze_release
    (∃ u : State, ans .brxCapLock u ∧ u.rd .brxCtrl = s.rd .brxCtrl ||| 1 ∧ u = { s with regs := u.regs }) ∧
    (∀ v : W32, (s.rd .brxCtrl).getLsbD 0 = true → ((s.brxWrite 4 v false).rd .brxCtrl).getLsbD 0 = true) ∧
    ans .brxFreezeRelease { s with brx.freezeHeld := none } ∧
    -- FREEZE and the frame
    (fresh → m.formOk 0 = true →
      (s.fld .brxCtrl 1 1 = 0 → ans (.freeze p m) (s.brxDone p 0x18 m 1)) ∧
      (s.fld .brxCtrl 1 1 = 1 → s.brx.freezeHeld.isSome = true ∨ s.brx.freezing.isSome = true →
        ans (.freeze p m) ((s.bump .brxFreezeLost).brxDone p 0x18 m 1)) ∧
      (s.fld .brxCtrl 1 1 = 1 → s.brx.freezeHeld = none → s.brx.freezing = none → ans (.freeze p m)
        ((({ s with brx.freezing := some ⟨s.brx.gen, (s.now - s.brx.porAt) / 100000, m.ident, p, false, []⟩ }).emit
          (.accel .freeze)).brxDone p 0x18 m 0))) ∧
    (s.brx.freezing = none → ans (.freezeCaptureDone points) s) ∧
    (∀ f, s.brx.freezing = some f → f.forHang = false →
      let f' := { f with data := sliceBytes points 0 (64 * s.capFld 0x2C 2) }
      ans (.freezeCaptureDone points)
        (((({ s with brx.freezing := none, brx.freezeHeld := some f' }).raise .brxIntStatus 2).sendFrame f' f.port true))) ∧
    -- PRESENCE
    ans .presenceTx (s.sbFrame (0x10 + s.brx.place.val) 2 (leBytes 2 s.brx.physical.toNat ++ leBytes 1 s.brx.revision.val ++
      leBytes 1 ((if s.brx.hang then 8 else 0) + (if s.brx.job = 0 then 0 else 4) + (if s.brxUp 1 then 2 else 0) + (if s.brxUp 0 then 1 else 0))))

/-- The stream window and the fabric gate (R48, R219, R221, R222, R224, R227): what is of no open tag or of another generation is
discarded, a copy is discarded, and a new packet is written to its entry's place in the ring; a consume frees the oldest entry, or
waits while its release can be neither sent nor held (R220). The gradient path and the taps of a Bruix block (R188, R192, R210, R220, R224, R227, R236 to R238). What the outbound buffer has no space for
while both ports are down stalls the accelerator: nothing is taken and nothing is lost. -/
def Obligations.SiteStreamsAndGradients : Prop :=
  (∀ (s : State) (k : Packet) (entry : W32) (tag : Byte),
      let ans := fun (i : Instr) (u : State) => exec i s = .next (s.atSite u)
      (s.brx.find k.hdr.tag = none → ans (.streamPacketArrival k) (s.bump .brxTagDiscards)) ∧
      (∀ pos t, s.brx.find k.hdr.tag = some (pos, t) →
        let t' := s.fixDirective t
        let u := s.setTag pos t'
        let q := k.hdr.seq.toNat
        (k.hdr.gen ≠ s.brx.gen → ans (.streamPacketArrival k) (s.bump .brxGenDiscards)) ∧
        (k.hdr.gen = s.brx.gen → streamHdrOk k.content t.step = false → ans (.streamPacketArrival k) s.brxSeqErr) ∧
        (k.hdr.gen = s.brx.gen → streamHdrOk k.content t.step = true →
          (q < t.got ∨ (q < t.got + 1024 ∧ t.bitmap.getLsbD (q - t.got) = true) → ans (.streamPacketArrival k) (u.bump .brxDupDiscards)) ∧
          (t.got + 1024 ≤ q → ans (.streamPacketArrival k) u.brxSeqErr) ∧
          (t.got ≤ q → q < t.got + 1024 → t.bitmap.getLsbD (q - t.got) = false → ∃ g b,
            ans (.streamPacketArrival k) (((s.setTag pos { t' with got := g, bitmap := b }).bump .brxStreamPkts).ringAccept k t.step) ∧
            t.got ≤ g ∧ (∀ n, t.got ≤ n → n < g → n = q ∨ t.bitmap.getLsbD (n - t.got) = true) ∧
            (t.bitmap.getLsbD 0 = false → t.got < q → g = t.got ∧ ∀ n, n < 1024 →
              b.getLsbD n = (t.bitmap.getLsbD n || decide (n = q - t.got)))))) ∧
      -- a packet of a new entry takes the next place in the ring, and one that fits is written there whole
      (∀ (step : W64), (∀ e ∈ s.brx.ring, ¬ (e.step = step ∧ e.index = BitVec.ofNat 32 (fieldLE k.content 4 4))) →
        let window := s.capFld 0x18 4
        let bytes := fieldLE k.content 0x14 4
        let off := s.brx.ringNext + k.hdr.unit.toNat *
          unitBytes (frFormat (fieldLE k.content 1 1)) 4096 ((fieldLE k.content 0x12 2).testBit 3)
        0 < window → off + k.content.length ≤ window → k.content.length < bytes → s.ringAccept k step = State.announce
          (({ s with brx.ring := s.brx.ring ++
            [(⟨step, BitVec.ofNat 32 (fieldLE k.content 4 4), s.brx.ringNext, bytes, k.content.length, false⟩ : BrxEntry)]
                     brx.ringNext := (s.brx.ringNext + bytes) % window }).emit (.accel (.ringWrite (off % window) k.content)))) ∧
      -- a complete entry is announced once, oldest first, while the arrival queue has a place
      (let announced := (s.brx.ring.filter BrxEntry.announced).length
       let next := s.brx.ring.find? fun e => !e.announced && e.accepted == e.bytes
       (64 ≤ announced ∨ next = none → s.announce = s) ∧
       (announced < 64 → ∀ e, next = some e → s.announce = ({ s with
         brx.ring := s.brx.ring.map fun x => if x = e then { e with announced := true } else x }).emit
           (.accel (.entryReady e.index (e.step.setWidth 8) e.offset e.bytes)))) ∧
      -- a consume is in order, or refused
      (∀ e rest, s.brx.ring = e :: rest →
        (∀ pos t, s.brx.find tag = some (pos, t) → e.step = t.step → e.index = entry → e.announced = true →
          (s.brxRoom 32 = false → ans (.consume entry tag) s) ∧
          (s.brxRoom 32 = true → ans (.consume entry tag)
            ((({ s with brx.ring := rest }).brxTell 0x20 t.step (leBytes 4 entry.toNat ++ [tag, 0, 0, 0])).announce))) ∧
        (s.brx.find tag = none ∨ e.index ≠ entry ∨ e.announced = false →
          ans (.consume entry tag) (s.brxSeqErr.emit (.accel (.refused 0x222))))) ∧
      (s.brx.ring = [] → ans (.consume entry tag) (s.brxSeqErr.emit (.accel (.refused 0x222)))) ∧
      -- the fabric gate
      ((s.brx.find tag).isSome = true → ans (.fabricTransferGate tag) (s.emit (.accel (.fabric true)))) ∧
      (s.brx.find tag = none → ans (.fabricTransferGate tag) ((s.bump .brxFabricDiscards).emit (.accel (.fabric false))))) ∧
  (∀ (s : State) (g : GradSlice) (scales : List Byte) (elems : List Nat) (d : TapData) (cRow : Bool),
      let ans := fun (i : Instr) (u : State) => exec i s = .next (s.atSite u)
      let off := g.first.toNat - g.layerFirst.toNat
      -- a slice descriptor passes the gate or is discarded, and one that breaks a rule is refused
      (s.brx.find g.tag = none → ans (.gradientSlice g) (s.bump .brxTagDiscards)) ∧
      ((s.brx.find g.tag).isSome = true → g.gen ≠ s.brx.gen → ans (.gradientSlice g) (s.bump .brxGenDiscards)) ∧
      ((s.brx.find g.tag).isSome = true → g.gen = s.brx.gen →
        let fits := g.layerFirst.toNat ≤ g.first.toNat ∧ off % 16384 = 0 ∧ 1 ≤ g.count.toNat ∧ off + g.count.toNat ≤ g.layerCount.toNat ∧
          (g.count.toNat % 16384 = 0 ∨ off + g.count.toNat = g.layerCount.toNat) ∧ g.fmt = s.brx.gradFmt
        (fits → s.brx.slices.length < 256 → ans (.gradientSlice g) { s with brx.slices := s.brx.slices ++ [⟨g, 0, 0⟩] }) ∧
        (fits → 256 ≤ s.brx.slices.length → ans (.gradientSlice g) s) ∧
        (¬ fits → ans (.gradientSlice g) (s.brxSeqErr.emit (.accel (.refused 0x236))))) ∧
      -- a packet of at most 4,096 elements, numbered in its tag, goes to both ports
      ((∀ x ∈ s.brx.slices, x.desc.count.toNat ≤ x.sentElems) → ans (.gradientPacketTx scales elems) s) ∧
      (∀ c pos t, (s.brx.slices.find? fun c => c.sentElems < c.desc.count.toNat) = some c → s.brx.find c.desc.tag = some (pos, t) →
        formatMx c.desc.fmt.val = false →
        let n := min 4096 (c.desc.count.toNat - c.sentElems)
        let es := (elems ++ List.replicate n 0).take n
        let first := c.desc.first.toNat + c.sentElems
        let content := gradHdr 2 c.desc 0 first n 0 t.step ++ padTo 32 [] ++ padTo 32 (packBits (fmtBits (formatCode c.desc.fmt.val)) es)
        let sent := (s.emit (.accel (.gradRead c.desc.addr (BitVec.ofNat 64 first) n))).brxSend 1 (s.brxPkt 2 (some t.step) c.desc.gen t.gradSeq content)
        (s.brxRoom content.length = false → ans (.gradientPacketTx scales elems) s) ∧ (s.brxRoom content.length = true →
        ∃ u : State, ans (.gradientPacketTx scales elems) u ∧ u.ports = sent.ports ∧ u.outbox = sent.outbox ∧ u.brx.outbound = sent.brx.outbound ∧
          u.brx.slices = s.brx.slices.map (fun x => if x = c then { x with sentElems := x.sentElems + n, lastSeq := t.gradSeq } else x) ∧
          (u.rd .brxGradPkts).toNat = min ((s.rd .brxGradPkts).toNat + 1) 0xFFFFFFFF ∧ (if pos then u.brx.newer else u.brx.older) = some { t with
            gradSeq := t.gradSeq + 1, gradPkts := t.gradPkts + 1
            sigs := Tbl.set t.sigs c.desc.layer.toNat (((es.zipIdx.map fun p => elemVal c.desc.fmt.val scales p.2 p.1).filter fun v =>
              !valNonfinite v).foldl (fun a v => welfordAdd a (val64 v)) (Tbl.get t.sigs (0, 0, 0) c.desc.layer.toNat)) })) ∧
      -- the marker follows the slice's last packet and, for a layer's last slice, its tap reports
      (s.brx.slices = [] → ans .endOfSliceTx s) ∧
      (∀ c rest pos t, s.brx.slices = c :: rest → s.brx.find c.desc.tag = some (pos, t) →
        let waits := c.desc.lastOfLayer = true ∧ ∃ x ∈ s.brx.taps, x.desc.tag = c.desc.tag ∧ x.desc.layer = c.desc.layer
        let marker := s.brxSend 1 (s.brxPkt 2 (some t.step) c.desc.gen t.gradSeq (gradHdr 3 c.desc c.lastSeq c.desc.first.toNat c.desc.count.toNat
          (if c.desc.lastOfLayer then 1 else 0) t.step))
        let t' := { t with gradSeq := t.gradSeq + 1 }
        let g := Tbl.get t.sigs (0, 0, 0) c.desc.layer.toNat
        (c.sentElems < c.desc.count.toNat ∨ waits ∨ s.brxRoom 192 = false → ans .endOfSliceTx s) ∧
        (c.desc.count.toNat ≤ c.sentElems → s.brxRoom 192 = true → c.desc.lastOfLayer = false →
          ans .endOfSliceTx (({ marker with brx.slices := rest }).setTag pos t')) ∧
        (c.desc.count.toNat ≤ c.sentElems → s.brxRoom 192 = true → c.desc.lastOfLayer = true → ¬ waits →
          ans .endOfSliceTx ((({ marker with brx.slices := rest }).setTag pos t').brxSampleAll pos t' c.desc.gen
            (tapHdr 0x32 (siteNo s.brx.logical) 2 c.desc.layer.toNat 0 t.step.toNat 0 0 0 0 0 0 0 g.1 g.2.1 g.2.2)))) ∧
      -- a row at the tap port opens a tap, of at most 16, or adds to one; the last C row sends its report
      (s.brx.find d.tag = none → ans (.tapElement d cRow scales elems) (s.bump .brxTagDiscards)) ∧
      (∀ pos t, s.brx.find d.tag = some (pos, t) →
        let same := fun (x : BrxTap) => x.desc.tag == d.tag && x.desc.layer == d.layer && x.desc.pass == d.pass && x.desc.matmul == d.matmul
        let x := (⟨d, 0, 0, [], [], [], []⟩ : BrxTap).row cRow scales elems
        (d.gen ≠ s.brx.gen → ans (.tapElement d cRow scales elems) (s.bump .brxGenDiscards)) ∧
        (d.gen = s.brx.gen → (∀ y ∈ s.brx.taps, same y = false) →
          (16 ≤ s.brx.taps.length → ans (.tapElement d cRow scales elems) s) ∧
          (s.brx.taps.length < 16 → x.cRows < d.rows.toNat →
            ans (.tapElement d cRow scales elems) { s with brx.taps := s.brx.taps ++ [x] })) ∧
        (d.gen = s.brx.gen → ∀ y, s.brx.taps = [y] → same y = true → y.desc = d → y.cRows + 1 = d.rows.toNat → cRow = true →
          let z := y.row true scales elems
          let room := s.brxRoom (64 + 8 * (z.sa.length + z.ta.length + z.sc.length + z.uc.length))
          (room = false → ans (.tapElement d cRow scales elems) s) ∧ (room = true → ans (.tapElement d cRow scales elems) (((({ s with brx.taps := [] }).brxSampleAll pos { t with taps := t.taps + 1 } d.gen
            (z.report (siteNo s.brx.logical) t.step)).bump .brxTapsSent))))))

/-- Sampling, leases and feeds (R179, R180, R233 to R235, R239, R240). The end of a step, hangs and abort markers of a Bruix block (R217, R225, R229 to R232, R235, R241). -/
def Obligations.SiteStepEnd : Prop :=
  (∀ (s0 : State) (temp : Byte) (d : TileDesc) (i : Nat) (payload : List Byte) (tag : Byte) (stream : W16) (count : W32) (feed : Fin 4) (index : W64),
      let ans := fun (i : Instr) (u : State) => exec i s0 = .next (s0.atSite u)
      let refused := fun (u : State) => u.emit (.accel (.tileSelect false false))
      -- the sample select port, with the temperature as it reads when the descriptor arrives
      (let s := ({ s0 with brx.temp := temp.toInt } : State)
       (s.brx.find d.tag = none → ans (.tileSelect ⟨temp, d⟩) (refused (s.bump .brxTagDiscards))) ∧
       (∀ pos t, s.brx.find d.tag = some (pos, t) →
         (d.gen ≠ s.brx.gen → ans (.tileSelect ⟨temp, d⟩) (refused (s.bump .brxGenDiscards))) ∧
         (d.gen = s.brx.gen → s.tileOk d = false → ans (.tileSelect ⟨temp, d⟩) (refused s.brxSeqErr)) ∧
         (d.gen = s.brx.gen → s.tileOk d = true → ∀ dir stale, (s.fixDirective t).directive = some (dir, stale) →
           let t := s.fixDirective t
           let bin := tempBin dir temp.toInt
           let word := selectionWord s.brx.job.toNat t.step.toNat (siteNo s.brx.logical) d.layer.toNat d.pass.val d.matmul.toNat d.tile.toNat
           let limit := sampleThreshold dir d.layer.toNat bin d.cls.toNat
           (limit ≤ word → ans (.tileSelect ⟨temp, d⟩) (refused (s.setTag pos t))) ∧
           (word < limit → d.k.toNat % 2 ^ d.gsLog2.toNat ≠ 0 ∨ 8 * 2 ^ 20 < d.payload d.bRef → ans (.tileSelect ⟨temp, d⟩)
             (refused ((s.bump .brxSamplesSelected).setTag pos { t with selected := t.selected + 1, unsampled := t.unsampled + 1 }))) ∧
           (word < limit → d.k.toNat % 2 ^ d.gsLog2.toNat = 0 → d.payload d.bRef ≤ 8 * 2 ^ 20 →
             let u := (s.bump .brxSamplesSelected).setTag pos { t with selected := t.selected + 1 }
             ans (.tileSelect ⟨temp, d⟩) (({ u with brx.captures := s.brx.captures ++ [(⟨d, Fin.ofNat 8 bin, stale, d.bRef⟩ : BrxCapture)] }).emit
               (.accel (.tileSelect true d.bRef))))))) ∧
      let s := s0
      -- a complete record goes to the ports that are up and have a credit; otherwise the tile is dropped at source
      (s.brx.captures[i]? = none → ans (.sampleCaptureDone i payload) s ∧ ans (.sampleCaptureTimeout i) s) ∧
      (∀ c, s.brx.captures[i]? = some c →
        let s1 := { s with brx.captures := s.brx.captures.eraseIdx i }
        let n := c.desc.payload c.bRef
        let can := fun (p : Nat) => (s.port (15 + p)).up = true ∧ 1 ≤ (s.port (15 + p)).credit 3
        ∀ pos t, s.brx.find c.desc.tag = some (pos, t) →
          ans (.sampleCaptureTimeout i) ((s1.setTag pos { t with dropped := t.dropped + 1 }).bump .brxSamplesDropped) ∧
          (c.desc.gen = s.brx.gen → s.sampleBuffer < s.sampleBuffered + 64 + n ∨ (¬ can 0 ∧ ¬ can 1) →
            ans (.sampleCaptureDone i payload) ((s1.setTag pos { t with dropped := t.dropped + 1 }).bump .brxSamplesDropped)) ∧
          (c.desc.gen = s.brx.gen → s.sampleBuffered + 64 + n ≤ s.sampleBuffer → can 0 → ¬ can 1 →
            ans (.sampleCaptureDone i payload) ((s1.queuePkt 15 3 (s1.brxPkt 3 (some t.step) c.desc.gen t.sampleSeq
              (sampleHdr c (siteNo s.brx.logical) t.step.toNat t.sent n ++ sliceBytes payload 0 n) 0) false true).setTag pos
                { t with sent := t.sent + 1, sampleSeq := t.sampleSeq + 1 }))) ∧
      -- a lease: distinct draws of a stream of an open tag
      (s.brx.find tag = none → ans (.lease tag stream count) (((s.bump .brxTagDiscards).bump .brxLeaseRefused).emit (.accel .leaseRefused)) ∧
        ans (.cursorAdvance tag feed index) (((s.bump .brxTagDiscards).bump .brxCursorRefused).emit (.accel .advanceRefused))) ∧
      (∀ pos t, s.brx.find tag = some (pos, t) →
        let c := Tbl.get t.draws 0 stream.toNat
        (s.capFld 0x28 2 ≤ stream.toNat ∨ count = 0 ∨ 65536 < count.toNat ∨ 2 ^ 32 ≤ c + count.toNat →
          ans (.lease tag stream count) ((s.bump .brxLeaseRefused).emit (.accel .leaseRefused))) ∧
        (stream.toNat < s.capFld 0x28 2 → 1 ≤ count.toNat → count.toNat ≤ 65536 → c + count.toNat < 2 ^ 32 →
          ans (.lease tag stream count) ((s.setTag pos { t with draws := Tbl.set t.draws stream.toNat (c + count.toNat) }).emit
            (.accel (.grant [s.brx.job, s.brx.seed] [BitVec.ofNat 32 c, (s.brx.logical.setWidth 32 <<< 16) ||| stream.setWidth 32,
              t.step.setWidth 32, (t.step >>> 32).setWidth 32])))) ∧
        -- a cursor advances only upward, once the tag's snapshot has been taken; before that it waits, in order
        (t.done = true → ans (.cursorAdvance tag feed index) ((s.bump .brxCursorRefused).emit (.accel .advanceRefused))) ∧
        (t.done = false → t.snapshot.isSome = true →
          (cursorInt index ≤ cursorInt (s.brx.cursors.getD feed.val 0) ∨ s.capFld 0x1E 1 ≤ feed.val →
            ans (.cursorAdvance tag feed index) ((s.bump .brxCursorRefused).emit (.accel .advanceRefused))) ∧
          (cursorInt (s.brx.cursors.getD feed.val 0) < cursorInt index → feed.val < s.capFld 0x1E 1 →
            ans (.cursorAdvance tag feed index) { s with brx.cursors := s.brx.cursors.set feed.val index })) ∧
        (t.done = false → t.snapshot = none → s.brx.cursorQueue.length < 64 →
          ans (.cursorAdvance tag feed index) { s with brx.cursorQueue := s.brx.cursorQueue ++ [(tag, feed.val, index)] }))) ∧
  (∀ (s : State) (tag : Byte) (k : Fin 16) (fabricPort : Fin 16) (m : Marker),
      let ans := fun (i : Instr) (u : State) => exec i s = .next (s.atSite u)
      (s.brx.find tag = none → ans (.stepDone tag) (s.bump .brxTagDiscards) ∧ ans (.stepReportTx tag) s) ∧
      (∀ pos t, s.brx.find tag = some (pos, t) →
        (t.done = true → ans (.stepDone tag) s) ∧
        (t.done = false → pos = true ∨ s.brx.newer = none ∨ (∃ n, s.brx.newer = some n ∧ n.snapshot.isSome = true) →
          ans (.stepDone tag) (s.setTag pos { t with done := true, doneCursors := s.brx.cursors })) ∧
        (t.done = false → pos = false → ∀ n, s.brx.newer = some n → n.snapshot = none → ans (.stepDone tag)
          (({ s with brx.older := some { t with done := true, doneCursors := s.brx.cursors }
                     brx.newer := some { n with snapshot := some s.brx.cursors } }).cursorDrain (n.step.setWidth 8))) ∧
        -- the report goes once, after everything of the tag has been sent
        (t.done = false ∨ t.reported = true ∨ s.tagPending tag = true → ans (.stepReportTx tag) s) ∧
        (t.done = true → t.reported = false → s.tagPending tag = false →
          let u := (s.setTag pos { t with reported := true }).brxTell 0x22 t.step (s.reportBody t)
          ans (.stepReportTx tag) { u with brx.seqErrSince := 0 })) ∧
      -- watchdogs
      (s.brx.pulses.length = 16 → ∃ u : State, ans (.progressPulse k) u ∧ u = { s with brx.pulses := u.brx.pulses } ∧
        ∀ q, u.brx.pulses.getD q 0 = if q = k.val then (s.brx.pulses.getD q 0 + 1) % 2 ^ 32 else s.brx.pulses.getD q 0) ∧
      (s.wdogArmed k.val = false ∨ s.capFld 6 1 ≤ k.val → ans (.watchdogExpiry k) s) ∧
      (s.wdogArmed k.val = true → k.val < s.capFld 6 1 →
        (s.brx.hang = true → ans (.watchdogExpiry k) { s with
          brx.expired := s.brx.expired ||| BitVec.ofNat 16 (2 ^ k.val), brx.hangMask := s.brx.hangMask ||| BitVec.ofNat 16 (2 ^ k.val) }) ∧
        (s.brx.hang = false → ∃ u : State, ans (.watchdogExpiry k) u ∧ u.brx.hang = true ∧ u.brx.hangMask = BitVec.ofNat 16 (2 ^ k.val) ∧
          u.brx.older = none ∧ u.brx.newer = none ∧ (u.rd .brxHangs).toNat = min ((s.rd .brxHangs).toNat + 1) 0xFFFFFFFF ∧
          u.brx.expired = s.brx.expired ||| BitVec.ofNat 16 (2 ^ k.val) ∧ u.brx.gen = s.brx.gen ∧ u.brx.job = s.brx.job)) ∧
      -- an abort marker: of another job, a repeat, or one that closes the tags it names and goes on
      (s.brx.job = 0 ∨ m.jobId ≠ s.brx.job ∨ 64 ≤ m.hops.toNat → ans (.abortMarkerRx fabricPort m) (s.bump .brxMarkersForeign)) ∧
      (s.brx.job ≠ 0 → m.jobId = s.brx.job → m.hops.toNat < 64 →
        ((m.origin, m.abortSeq) ∈ s.brx.markersSeen → ans (.abortMarkerRx fabricPort m) s) ∧
        ((m.origin, m.abortSeq) ∉ s.brx.markersSeen → m.flags.getLsbD 1 = true → m.flags.getLsbD 2 = false →
          let seen := { s with brx.markersSeen := ((m.origin, m.abortSeq) :: s.brx.markersSeen).take 32 }
          let old := s.brx.older.any fun o => o.step.setWidth 8 == m.tags
          let new := s.brx.newer.any fun n => n.step.setWidth 8 == m.tags
          let t := if old then (seen.closeTags true none []).raise .brxIntStatus 6
            else if new then (seen.closeTags false none []).raise .brxIntStatus 6 else seen
          ans (.abortMarkerRx fabricPort m) (((((t.emit (.accel (.markerIn m))).emit (.accel (.markerOut { m with hops := m.hops + 1 }
            (some fabricPort.val)))).bump .brxMarkersRelayed).brxTell 0x24 (s.brx.markedStep m.tags) m.bytes)))))

/-- What a Bruix block answers and reports to its controllers (R36, R214, R217, R230, R232, R241, R271, R369, R490). -/
def Obligations.SiteMessages : Prop :=
  ∀ (s : State) (k : Fin 8) (m : CtlMsg),
    let ans := fun (i : Instr) (u : State) => exec i s = .next (s.after u)
    let bad := s.bump .spkMalformed k.val
    -- ACK: one of ADMIT or RESET_DOMAIN gives the generation, whatever its status; what waited for the ACK goes on
    (let ty := m.get 0 1
     let mine := fun (x : SiteSent) => x.site == k.val && x.ty == ty && x.ident == m.ident
     (m.get 3 1 ≠ 0 → ans (.ack k m) bad) ∧
     (m.formOk 8 = true → m.get 3 1 = 0 → s.host.siteSent.find? mine = none → ty ≠ 0x10 → ty ≠ 0x15 → ans (.ack k m) s) ∧
     (m.formOk 8 = true → m.get 3 1 = 0 → ty = 0x15 → s.host.siteSent.find? mine = none →
       ans (.ack k m) { s with host.siteGen := Tbl.set s.host.siteGen k.val (BitVec.ofNat 8 (m.get 2 1)) }) ∧
     (m.formOk 8 = true → m.get 3 1 = 0 → ∀ x, s.host.siteSent.find? mine = some x →
       let t := { s with host.siteSent := s.host.siteSent.filter fun y => !mine y }
       (ty = 0x12 → ans (.ack k m) (t.modJob x.job fun j => j.gateSite (some x.ident) k.val)) ∧
       (ty = 0x11 → m.get 1 1 = 0 → ans (.ack k m) ((t.modEngine k.val x.job x.ident fun g => { g with opened := true }).modJob x.job
         fun j => { j with recov.opened := j.recov.opened ||| (1#8 <<< k.val) })) ∧
       (ty = 0x1B → ans (.ack k m) (t.modJob x.job fun j => { j with admittedSites := j.admittedSites &&& ~~~(1#8 <<< k.val) })) ∧
       (ty = 0x1A → x.cmd ≠ 0 → ans (.ack k m)
         (t.finish x.cmd (if m.get 1 1 = 0 then 0 else if m.get 1 1 = 2 then 0x0101 else 0x0105) 0 (BitVec.ofNat 64 (m.get 4 4)))))) ∧
    -- STEP_REPORT
    (let n := m.get 0xA 2
     let step := BitVec.ofNat 64 (m.get 0 8)
     (m.formOk (0x50 + 4 * n) = false → ans (.stepReport k m) bad) ∧
     (m.formOk (0x50 + 4 * n) = true → m.get 0xE 2 = 0 → m.get 0x4C 4 = 0 →
       let kept := fun (t : State) => t.modStep m.jobId step fun o => { o with reports := Tbl.set o.reports k.val (m.bytes.take (0x50 + 4 * n)) }
       let counted := s.bumpBy .asySamplesDroppedSrc (m.get 0x38 4) k.val
       (m.get 0x48 4 = 0 → ans (.stepReport k m) (kept counted)) ∧
       (m.get 0x48 4 ≠ 0 → ans (.stepReport k m) (kept (counted.evReason 1 .spk 10 m.jobId step [k.val, m.get 0x48 4]))))) ∧
    -- HANG and ABORT_SEEN
    (m.formOk 72 = false ∨ zeroBytes m.bytes 3 5 = false → ans (.hang k m) bad) ∧
    (m.formOk 72 = true → zeroBytes m.bytes 3 5 = true → ans (.hang k m) ((s.evReason 2 .spk 0xFFFF m.jobId (((s.job? m.jobId).map Job.eventIdent).getD 0)
      [k.val, m.get 0 2]).siteAbort k.val holdSiteHang)) ∧
    (m.formOk 16 = false ∨ m.get 3 1 &&& 0xF9 ≠ 0 ∨ zeroBytes m.bytes 13 3 = false → ans (.abortSeen k m) bad) ∧
    (m.formOk 16 = true → m.get 3 1 &&& 0xF9 = 0 → zeroBytes m.bytes 13 3 = true → ans (.abortSeen k m) (s.evReason 1 .spk 0xFFFF m.jobId m.ident [k.val])) ∧
    -- REG_DATA, or none within 1 ms
    (let n := m.get 4 1
     let mine := fun (x : SiteSent) => x.site == k.val && x.ty == 0x19 && fieldLE x.body 0 4 == m.get 0 4 && fieldLE x.body 4 1 == n
     (n = 0 ∨ 64 < n ∨ m.formOk (8 + 4 * n) = false → ans (.regData k m) bad) ∧
     (1 ≤ n → n ≤ 64 → m.formOk (8 + 4 * n) = true → m.get 5 3 = 0 →
       (s.host.siteSent.find? mine = none → ans (.regData k m) s) ∧
       (∀ x, s.host.siteSent.find? mine = some x → ∀ r, x.cmd ≠ 0 → s.run? x.cmd = some r → ans (.regData k m)
         ((({ s with host.siteSent := s.host.siteSent.erase x }).wrefPut r.params 8 (sliceBytes m.bytes 8 (4 * n))).finish x.cmd 0)))) ∧
    ((∀ x ∈ s.host.siteSent, ¬ (x.site = k.val ∧ x.ty = 0x19)) → ans (.regReadTimeout k) s) ∧
    (∀ x, (s.host.siteSent.find? fun x => x.site == k.val && x.ty == 0x19) = some x → x.cmd ≠ 0 →
      ans (.regReadTimeout k) (({ s with host.siteSent := s.host.siteSent.erase x }).finish x.cmd 0x0209)) ∧
    -- FREEZE_DATA: the pieces in order; the frame is stored when complete, or as it stands after 100 ms
    (let rsv := m.get 0 4 = 0 ∧ (m.get 14 2 ≠ 0 ∨ zeroBytes m.bytes 24 16 = false)
     (m.formOk m.length.toNat = false ∨ m.length.toNat < 9 ∨ 1032 < m.length.toNat ∨ rsv → ans (.freezeData k m) bad) ∧
     (m.formOk m.length.toNat = true → 9 ≤ m.length.toNat → m.length.toNat ≤ 1032 → ¬ rsv →
      let piece := sliceBytes m.bytes 8 (m.length.toNat - 8)
      (∀ b total, (s.ev.collect.find? fun e => e.1 == k.val) = some (k.val, b, total) →
        (b.length ≠ m.get 0 4 → ans (.freezeData k m) s) ∧
        (b.length = m.get 0 4 → m.get 4 4 ≤ (b ++ piece).length → ans (.freezeData k m) (s.freezeStore k.val (b ++ piece))) ∧
        (b.length = m.get 0 4 → (b ++ piece).length < m.get 4 4 → ans (.freezeData k m)
          { s with ev.collect := Tbl.set s.ev.collect k.val (b ++ piece, m.get 4 4) })) ∧
      ((s.ev.collect.find? fun e => e.1 == k.val) = none → m.get 0 4 = 0 → s.leads = true → piece.length < m.get 4 4 →
        ans (.freezeData k m) { s with ev.collect := Tbl.set s.ev.collect k.val (piece, m.get 4 4) }))) ∧
    (∀ b total, (s.ev.collect.find? fun e => e.1 == k.val) = some (k.val, b, total) →
      ans (.freezeCollectTimeout k) (s.freezeStore k.val b)) ∧
    -- a message without ACK is sent again with repeat set
    (∀ x, (s.host.siteSent.filter fun x => x.site == k.val && x.ty != 0x19) = [x] → (s.port k.val).up = true →
      ans (.controlMsgRepeat k) (s.queuePkt k.val 2 (mkPacket 4 0 0 s.sideNat 0 x.job s.pwr.strapsAt.id (s.siteLogical k.val) 0
        (ctlContent x.ty true x.ident x.job x.body))))

/-- Frames and replay (R254 to R256, R264, R266 to R269): nothing is accepted out of order, a flit that fails asks for a replay, and
replayed flits go before new ones. -/
def Obligations.LinkFrames : Prop :=
  ∀ (s : State) (p : Fin 17) (f : Frame) (n : BitVec 10),
    let ans := fun (i : Instr) (u : State) => exec i s = .next (s.afterLink u)
    let q := s.port p.val
    -- the window in which replays count, as it stands now: SPK.PARITY_WIN's, and 1,000 µs on a torus port (log entry 45)
    let w := if q.rateWin.1 + 1000 * (if p.val ≤ 8 then max 1 (s.fld .spkParityWin 0 16 p.val) else 1000) ≤ s.now then (s.now, 0, false) else q.rateWin
    (q.up = false → ans (.frameRx p f) s ∧ ans (.frameTx p) s ∧ ans (.nakRepeat p) s ∧ ans (.replayStart p n) s ∧ ans (.ackTimeout p) s) ∧
    -- a frame with more than 10 wrong symbols cannot be corrected
    (q.up = true → 10 < f.errors.eraseDups.length →
      (p.val ≤ 8 → q.rxWait = false → ans (.frameRx p f)
        ((((s.bump .spkFecUncorr p.val)).setPort p.val { q with rxWait := true, nakDue := true }).bump .spkNakTx p.val)) ∧
      (8 < p.val → q.rxWait = true → ans (.frameRx p f) s)) ∧
    -- up to 10 are corrected and counted, each on the lane on which it travelled; a frame without flits gives credits and acknowledges
    (q.up = true → f.errors.eraseDups.length ≤ 10 → f.hdr.kind = 0 → (∀ x ∈ f.slots, x.valid = false) → q.alarmSeen = none →
      let n := f.errors.eraseDups.length
      let lanes := f.errors.eraseDups.foldl (fun (t : State) e => t.bump .spkLaneSerr (16 * p.val + q.laneOf e.val)) s
      let fixed := if n = 0 ∨ 8 < p.val then s else if n < 7 then lanes.bumpBy .spkFecCorr n p.val
        else (lanes.bumpBy .spkFecCorr n p.val).bump .spkFecHeavy p.val
      ∃ q', ans (.frameRx p f) (fixed.setPort p.val q') ∧ q'.replay = q.replay.filter (fun x => !decide ((f.hdr.ackSeq - x.seq).toNat < 512)) ∧
        q'.peerFreed = q.peerFreed.set f.hdr.creditVc.val f.hdr.credits.toNat ∧ q'.rxNext = q.rxNext ∧ q'.txq = q.txq) ∧
    -- a flit out of order changes nothing; one in order is taken
    (∀ (a : FlitSlot), a.parityOk = true →
      (n ≠ q.rxNext → State.flitsIn p.val [(n, a)] s = s) ∧
      (n = q.rxNext → State.flitsIn p.val [(n, a)] s = s.flitIn p.val a) ∧
      (a.eop = false → ((s.flitIn p.val a).port p.val).rxNext = q.rxNext + 1) ∧
      (n = q.rxNext → a.eop = false → a.sop = true → q.rxPart.getD a.vc.val [] = [] → q.withhold.getD a.vc.val false = false → 8 < p.val →
        s.flitIn p.val a = s.setPort p.val { q with rxNext := q.rxNext + 1, rxWait := false, rxPart := q.rxPart.set a.vc.val [a.data]
                                                    rxBad := q.rxBad.set a.vc.val (a.reserved != 0)
                                                    freed := q.freed.set a.vc.val ((q.freed.getD a.vc.val 0 + 1) % 4096) }) ∧
      -- a packet with a nonzero reserved field in one of its flits is malformed
      (a.eop = true → a.sop = true → q.rxPart.getD a.vc.val [] = [] → q.withhold.getD a.vc.val false = false → 8 < p.val → a.reserved ≠ 0 →
        s.flitIn p.val a = (s.setPort p.val { q with rxNext := q.rxNext + 1, rxWait := false, rxPart := q.rxPart.set a.vc.val []
                                                     rxBad := q.rxBad.set a.vc.val false
                                                     freed := q.freed.set a.vc.val ((q.freed.getD a.vc.val 0 + 1) % 4096) }).malformed p.val) ∧
      -- a flit that begins no packet joins none
      (a.eop = false → a.sop = false → q.rxPart.getD a.vc.val [] = [] → ((s.flitIn p.val a).port p.val).rxPart = q.rxPart.set a.vc.val [])) ∧
    (∀ (a : FlitSlot) r, a.parityOk = false → 8 < p.val → q.rxWait = false →
      State.flitsIn p.val ((n, a) :: r) s = s.setPort p.val { q with rxWait := true, nakDue := true }) ∧
    -- NAK, its repeat, and the time-out of an acknowledgement
    (q.up = true → (q.rxWait = true → ans (.nakRepeat p) (s.setPort p.val { q with nakDue := true })) ∧ (q.rxWait = false → ans (.nakRepeat p) s)) ∧
    (q.up = true → q.nakSeen = some n → ans (.replayStart p n) s) ∧
    (q.up = true → q.nakSeen ≠ some n → 8 < p.val → ∀ x r, q.replay.dropWhile (fun x => x.seq != n) = x :: r →
      ans (.replayStart p n) (s.setPort p.val { q with nakSeen := some n, resend := x :: r, rateWin := (w.1, w.2.1 + 1, w.2.2)
                                                       resends := if (x :: r).length = q.replay.length then q.resends + 1 else q.resends })) ∧
    (q.up = true → q.replay = [] → ans (.ackTimeout p) s) ∧
    (q.up = true → 8 < p.val → ∀ x r, q.replay = x :: r →
      ans (.ackTimeout p) (s.setPort p.val { q with resend := x :: r, resends := q.resends + 1, rateWin := (w.1, w.2.1 + 1, w.2.2) })) ∧
    -- a frame is sent: resent flits first, and none but those on hold of a replay
    (q.up = true → 9 ≤ p.val → q.alarm = none → 24 ≤ q.resend.length → ∃ hdr q', ans (.frameTx p)
      ((s.setPort p.val q').emit (frameMsg p.val q hdr (q.resend.take 23))) ∧ hdr.ackSeq = q.rxNext - 1 ∧
      hdr.kind = (if q.nakDue then 2 else 0) ∧ hdr.credits = BitVec.ofNat 12 (q.freed.getD q.creditVc.val 0) ∧ hdr.creditVc = q.creditVc ∧
      q'.resend = q.resend.drop 23 ∧ q'.nakDue = false ∧ q'.replay = q.replay ∧ q'.txq = q.txq ∧ q'.creditVc = q.creditVc + 1) ∧
    -- a frame is a header, 23 flit slots, the rest of them idle, and 640 symbols of which symbol j travels on lane j mod W
    (∀ (hdr : FrameHdr) (flits : List Flit), flits.length ≤ 23 → ∃ slots lanes, frameMsg p.val q hdr flits = .frame p.val hdr slots lanes ∧
      slots.length = 23 ∧ lanes.length = q.width ∧
      (∀ i, i < 23 → slots[i]? = some (match flits[i]? with
        | some x => ⟨true, x.vc, x.sop, x.eop, 0, flitParity x.data, x.data⟩
        | none => ⟨false, 0, false, false, 0, 0, 0⟩)) ∧
      (∀ j, j < 640 → (lanes.getD (j % q.width) [])[j / q.width]? = some (frameSymbol (frameInfo hdr slots) j))) ∧
    (∀ (x : BitVec 256) (w : Nat), w < 4 → (flitParity x).getLsbD w = ((List.range 64).foldl (fun b i => b != x.getLsbD (64 * w + i)) false)) ∧
    -- escalation
    (q.replay = [] ∨ q.up = false ∨ q.resends < s.escalateAttempts p.val → ans (.linkEscalate p) s) ∧
    (q.up = true → s.escalateAttempts p.val ≤ q.resends → 15 ≤ p.val → ∀ x r, q.replay = x :: r →
      ans (.linkEscalate p) ((s.failLinks p.val).leaveActive p.val .down)) ∧
    (q.up = true → s.escalateAttempts p.val ≤ q.resends → p.val ≤ 8 → ∀ x r, q.replay = x :: r → ∃ w,
      ans (.linkEscalate p) ((((s.failLinks p.val).bump .spkEscalations p.val).evInt 1 .spkIntStatus 4 0 0 [p.val, x.seq.toNat] p.val
        (some w)).leaveActive p.val .down)) ∧
    -- replays above the threshold within the window are reported once in it; a torus port has the threshold 64
    (let limit := if p.val ≤ 8 then s.fld .spkParityWin 16 16 p.val else 64
     let t := s.setPort p.val { q with rateWin := (w.1, w.2.1, true) }
     (w.2.2 = true ∨ w.2.1 ≤ limit → ans (.linkReplayRate p) s) ∧
     (w.2.2 = false → limit < w.2.1 → (p.val ≤ 8 → ans (.linkReplayRate p) (t.evInt 1 .spkIntStatus 5 0 0 [p.val] p.val)) ∧
       (9 ≤ p.val → p.val < 15 → ans (.linkReplayRate p) (t.evReason 1 .tor 0xFFFF 0 0 [p.val - 9])))) ∧
    -- heavily corrected frames above SPK.HEAVY_THRESH within one second are a failure warning, once in it
    (∀ c : Fin 9, let b := s.port c.val
      let h := if b.heavyWin.1 + 10 ^ 9 ≤ s.now then (s.now, 0, false) else b.heavyWin
      (h.2.2 = true ∨ h.2.1 ≤ (s.rd .spkHeavyThresh c.val).toNat → exec (.fecHeavyWarning c) s = .next (s.after s)) ∧
      (h.2.2 = false → (s.rd .spkHeavyThresh c.val).toNat < h.2.1 → exec (.fecHeavyWarning c) s =
        .next (s.after (s.setPort c.val { b with heavyWin := (h.1, h.2.1, true) }).failureWarning))) ∧
    -- on the pair link, while a forwarded packet waits, 1 packet in 8 at most carries a repair or rejoin copy (R363; log entry 25)
    (∀ i t, q.nextPair = some i → q.txq[i]? = some t → t.done = 0 → (∃ x ∈ q.txq, x.pkt.forwarded = true) → q.copyGap < 7 → t.pkt.pairCopy = false)

/-- Training and the states of a port (R257 to R260, R275, R279, R280, R468). -/
def Obligations.LinkTraining : Prop :=
  ∀ (s : State) (p : Fin 17) (errors : List Nat) (r : ParamResult) (c : Fin 9) (t : Fin 6),
    let ans := fun (i : Instr) (u : State) => exec i s = .next (s.afterLink u)
    let q := s.port p.val
    let passed := lanesPassed errors
    let lanes : BitVec 16 := if 9 ≤ p.val ∧ p.val < 15 then 0xFF else 0xFFFF
    let full := q.eqLanes ≠ 0 ∨ (p.val ≤ 8 ∧ s.fld .spkCtrl 3 1 p.val = 1) ∨ (9 ≤ p.val ∧ p.val < 15 ∧ s.fld .torCtrl 3 1 = 1)
    -- what a port in PARAM sends: version 1, its identity, its side or Bruix revision, its receive buffers and its lanes that passed
    let own := fun (good : BitVec 16) => if 15 ≤ p.val then OutMsg.params p.val 1 s.brx.physical s.brx.revision.val (rxBuffers p.val) good
      else OutMsg.params p.val 1 s.pwr.strapsAt.id s.sideNat (rxBuffers p.val) good
    -- a lane passes with at most 4,000 bit errors in the 4 × 10^8 bits of its measurement
    (∀ l, l < 16 → (passed.getLsbD l = true ↔ ∃ n, errors[l]? = some n ∧ n ≤ 4000)) ∧
    -- DETECT
    (q.state = .detect → ans (.peerDetect p) (s.setPort p.val { q with state := .align })) ∧
    (15 ≤ p.val → q.state = .down → ans (.peerDetect p) (s.setPort p.val { q with state := .align })) ∧
    (q.state ≠ .detect → ans (.detectTimeout p) s ∧ (p.val < 15 ∨ q.state ≠ .down → ans (.peerDetect p) s)) ∧
    (q.state = .detect → 15 ≤ p.val → ans (.detectTimeout p) s) ∧
    (q.state = .detect → p.val ≤ 8 → ans (.detectTimeout p) (((s.setPort p.val { q with state := .down, widthCode := 0 }).wr .spkTrainTime
      (BitVec.ofNat 32 ((s.now - q.trainStart) / 1000)) p.val).evInt 1 .spkIntStatus 2 0 0 [p.val] p.val)) ∧
    -- ALIGN: lanes that pass keep their saved settings, and full equalisation takes every lane
    (q.state = .align → full → ans (.alignMeasureDone p errors)
      (s.setPort p.val { q with state := .equalise, eqLanes := lanes, lanesGood := passed &&& lanes, savedUsed := false })) ∧
    (q.state = .align → ¬ full → lanes &&& ~~~passed ≠ 0 → ans (.alignMeasureDone p errors)
      (s.setPort p.val { q with state := .equalise, eqLanes := lanes &&& ~~~passed, lanesGood := passed &&& lanes, savedUsed := false })) ∧
    (q.state = .align → ¬ full → lanes &&& ~~~passed = 0 → ans (.alignMeasureDone p errors)
      ((s.setPort p.val { q with state := .param, eqLanes := 0, lanesGood := passed &&& lanes, savedUsed := true }).emit (own (passed &&& lanes)))) ∧
    (q.state ≠ .align → ans (.alignMeasureDone p errors) s) ∧
    -- EQUALISE
    (q.state = .equalise → ans (.equaliseDone p errors)
      (let good := (q.lanesGood &&& ~~~q.eqLanes) ||| (passed &&& q.eqLanes)
       (s.setPort p.val { q with state := .param, lanesGood := good }).emit (own good))) ∧
    (q.state ≠ .equalise → ans (.equaliseDone p errors) s) ∧
    -- PARAM: the widest group of lanes that has passed at both ends, or a failed training
    (q.state ≠ .param → ans (.paramExchange p r) s) ∧
    (q.state = .param →
      let m := q.lanesGood &&& r.lanes
      let wide := chooseWidth (9 ≤ p.val && p.val < 15) m
      (r.ok = false ∨ r.proto ≠ 1 ∨ wide = none → ans (.paramExchange p r) ((s.setPort p.val { q with lanesGood := m }).trainFail p.val)) ∧
      (r.ok = true → r.proto = 1 → ∀ w g, wide = some (w, g) → ∃ u n, ans (.paramExchange p r) u ∧
        n = { Port.init .active with lanesGood := m, widthCode := w, laneGroup := g, savedUsed := q.savedUsed, peerId := r.peerId
                                     peerProto := r.proto, peerRev := r.peerRev, peerBuf := r.buffers, trainStart := q.trainStart } ∧
        (p.val < 15 → u.port p.val = n) ∧ (15 ≤ p.val → u.port p.val = { n with txq := s.brx.outbound.map fun x =>
            ⟨x.1, { x.2 with hdr := { x.2.hdr with flags := x.2.hdr.flags &&& ~~~1 ||| BitVec.ofNat 8 (p.val - 15), dst := r.peerId } }, 0, false, true⟩ } ∧
          u.brx.outbound = []) ∧
        (p.val ≤ 8 → (u.rd .spkIntStatus p.val).getLsbD 0 = true ∧ (w ≠ 3 → (u.rd .spkIntStatus p.val).getLsbD 3 = true)))) ∧
    (∀ m : BitVec 16, (∀ i, i < 16 → m.getLsbD i = true) → chooseWidth false m = some (3, 0)) ∧
    (∀ m : BitVec 16, (∀ i, i < 8 → m.getLsbD i = true) → (∃ i, 8 ≤ i ∧ i < 16 ∧ m.getLsbD i = false) → chooseWidth false m = some (2, 0)) ∧
    (∀ m : BitVec 16, (∀ i, 8 ≤ i → i < 16 → m.getLsbD i = true) → (∃ i, i < 8 ∧ m.getLsbD i = false) → chooseWidth false m = some (2, 1)) ∧
    (∀ m : BitVec 16, (∀ g, g < 4 → ∃ i, i < 4 ∧ m.getLsbD (4 * g + i) = false) → chooseWidth false m = none) ∧
    -- a port that is DOWN retrains by itself, at most 3 times within a second
    ((p.val ≤ 7 ∧ s.fld .spkCtrl 4 1 p.val = 0) ∨ 9 ≤ p.val → ans (.autoRetrain p) s) ∧
    (p.val = 8 ∨ (p.val ≤ 7 ∧ s.fld .spkCtrl 4 1 p.val = 1) →
      (q.state ≠ .down ∨ s.pair.fenced = true ∨ 3 ≤ q.attempts.length ∨ (∃ a l, q.attempts = a :: l ∧ a + 10 ^ 9 ≤ s.now) →
        ans (.autoRetrain p) s) ∧
      (q.state = .down → s.pair.fenced = false → s.portUsable p.val = true → q.attempts = [] →
        ans (.autoRetrain p) (s.setPort p.val { Port.init .detect with trainStart := s.now, attempts := [s.now]
                                                                       peerId := q.peerId, peerProto := q.peerProto, peerRev := q.peerRev }))) ∧
    -- the disable bit takes a port to DISABLED at once
    (let b := s.port c.val
     let off := s.wrFld .spkCtrl 0 1 1 c.val
     (b.up = true → exec (.spkDisableWrite c true) s = .next (s.after ((off.failLinks c.val).leaveActive c.val .disabled))) ∧
     (b.up = false → exec (.spkDisableWrite c true) s = .next (s.after (off.portStop c.val .disabled))) ∧
     (c.val ≠ 8 ∨ b.state ≠ .disabled ∨ s.pair.fenced = true →
       exec (.spkDisableWrite c false) s = .next (s.after (s.wrFld .spkCtrl 0 1 0 c.val)))) ∧
    -- light on a torus port that is DOWN
    (let b := s.port (9 + t.val)
     (s.fld .torCtrl 4 1 = 0 ∨ b.state ≠ .down ∨ s.pair.fenced = true → exec (.lightDetect t) s = .next (s.after s)) ∧
     (s.fld .torCtrl 4 1 = 1 → b.state = .down → s.pair.fenced = false → s.portUsable (9 + t.val) = true →
       exec (.lightDetect t) s = .next (s.after (s.setPort (9 + t.val) { Port.init .detect with
         trainStart := s.now, peerId := b.peerId, peerProto := b.peerProto, peerRev := b.peerRev }))))

/-- Alarm lanes, Survey, optics and routes of the torus (R280, R283 to R287, R289 to R294). -/
def Obligations.TorusSurveyAndRoutes : Prop :=
  ∀ (s : State) (p : Fin 6) (x : BitVec 128) (tr : Triple) (up : Bool) (b : List Byte) (lanes : Byte) (powers : List Nat) (vc : Fin 4) (k : Packet),
    let ans := fun (i : Instr) (u : State) => exec i s = .next (s.after u)
    let now := fun (i : Instr) (u : State) => exec i s = .next (u.keeping s s.brx)
    let n := s.neigh p.val
    -- an alarm slot: discarded for its form, its neighbour or as a duplicate, or recorded, relayed with hops + 1 and acted on
    (n.alarmUp = false ∨ slotFld x 112 16 ≠ 0xA1A1 → ans (.alarmSlotRx p x) s) ∧
    (n.alarmUp = true → slotFld x 112 16 = 0xA1A1 →
      let crc := crc32Bits ((List.range 96).map fun i => x.getLsbD (127 - i))
      let reason := slotFld x 108 4
      let t : Triple := ⟨BitVec.ofNat 16 (slotFld x 80 16), x.getLsbD 101, BitVec.ofNat 8 (slotFld x 64 8)⟩
      (slotFld x 0 32 ≠ crc ∨ (reason ≠ 2 ∧ reason ≠ 3) ∨ slotFld x 96 5 ≠ 0 → ans (.alarmSlotRx p x) (s.bump .torAlarmErrors p.val)) ∧
      (slotFld x 0 32 = crc → reason = 2 ∨ reason = 3 → slotFld x 96 5 = 0 →
        (s.neighState p.val = 4 ∨ slotFld x 102 6 = 63 → ans (.alarmSlotRx p x) (s.bump .torAlarmsForeign)) ∧
        (s.neighState p.val ≠ 4 → slotFld x 102 6 ≠ 63 →
          (t ∈ s.tor.triples → ans (.alarmSlotRx p x) (s.bump .torAlarmsDup)) ∧
          (t ∉ s.tor.triples → ans (.alarmSlotRx p x)
            ((({ s with tor.triples := s.tor.triples ++ [t] }).slotOut (alarmSlot reason (slotFld x 102 6 + 1) t.side t.origin
                (BitVec.ofNat 8 (slotFld x 72 8)) t.seqNo (BitVec.ofNat 32 (slotFld x 32 32))) (some p.val)).torusAlarm reason t.origin
              (BitVec.ofNat 8 (slotFld x 72 8)) (BitVec.ofNat 32 (slotFld x 32 32))))))) ∧
    exec (.alarmTripleExpiry tr.origin tr.side tr.seqNo) s = .next { s with tor.triples := s.tor.triples.filter fun y => y != tr } ∧
    exec (.alarmLaneLock p up) s = .next { s with tor.neigh := Tbl.set s.tor.neigh p.val { n with alarmUp := up } } ∧
    -- a hello: what it says of the neighbour, and each dimension the larger of the two
    (let dims := [fieldLE b 0xE 2 % 32, fieldLE b 0xE 2 / 32 % 32, fieldLE b 0xE 2 / 1024]
     (helloOk b = true ↔ fieldLE b 0 2 = 0x50 ∧ fieldLE b 2 2 = 1 ∧ fieldLE b 0xC 1 < 6 ∧ fieldLE b 0xD 1 < 8 ∧ fieldLE b 0xE 2 < 2 ^ 15 ∧
       (∀ d ∈ dims, 1 ≤ d ∧ d ≤ 16) ∧ zeroBytes b 0x19 7 = true)) ∧
    ((s.port (9 + p.val)).up = false → ans (.helloRx p b) s) ∧
    ((s.port (9 + p.val)).up = true → helloOk b = false → ans (.helloRx p b) (s.evReason 1 .tor 0xFFFF 0 0 [p.val])) ∧
    ((s.port (9 + p.val)).up = true → helloOk b = true →
      let n' := { n with heard := true, podId := BitVec.ofNat 32 (fieldLE b 4 4), physical := BitVec.ofNat 16 (fieldLE b 8 2)
                         position := BitVec.ofNat 16 (fieldLE b 0xA 2), posValid := (fieldLE b 0xD 1).testBit 1
                         port := Fin.ofNat 8 (fieldLE b 0xC 1), side := (fieldLE b 0xD 1).testBit 0 }
      let d := fieldLE b 0xE 2
      let dims := (max s.tor.dimX (d % 32), max s.tor.dimY (d / 32 % 32), max s.tor.dimZ (d / 1024 % 32))
      let grew := dims ≠ (s.tor.dimX, s.tor.dimY, s.tor.dimZ)
      let changed := n.heard && n.physical != n'.physical
      let t := { s with tor.neigh := Tbl.set s.tor.neigh p.val n', tor.dimX := dims.1, tor.dimY := dims.2.1, tor.dimZ := dims.2.2 }
      (¬ grew → ans (.helloRx p b) ((t.surveyPort p.val changed).surveyAll)) ∧
      (grew → s.tor.stable = false → ans (.helloRx p b) ((t.surveyPort p.val changed).surveyAll)) ∧
      (grew → s.tor.stable = true → ans (.helloRx p b) (((({ t with tor.stable := false }).evInt 1 .torIntStatus 5 0 0
        [dims.1, dims.2.1, dims.2.2]).surveyPort p.val changed).surveyAll))) ∧
    (s.fld .torCtrl 2 1 = 0 → now .helloTx s) ∧
    (s.fld .torCtrl 2 1 = 1 → (∀ q, q < 6 → ((s.port (9 + q)).up = true ↔ q = p.val)) → ∃ body, body.length = 32 ∧
      fieldLE body 0 2 = 0x50 ∧ fieldLE body 2 2 = 1 ∧ fieldLE body 8 2 = s.pwr.strapsAt.id.toNat ∧ fieldLE body 0xA 2 = s.position.toNat ∧
      fieldLE body 0xC 1 = p.val ∧ fieldLE body 0x10 8 = (n.helloSeq + 1).toNat ∧
      exec .helloTx s = .next (({ s with tor.neigh := Tbl.set s.tor.neigh p.val { n with helloSeq := n.helloSeq + 1 } }).queuePkt (9 + p.val) 2
        (mkPacket 9 0 0 s.sideNat 0 0 s.position n.position 0 body))) ∧
    ans .dimsStable (({ s with tor.stable := true }).surveyAll) ∧
    ans (.neighbourTimeout p) (({ s with tor.neigh := Tbl.set s.tor.neigh p.val { n with heard := false } }).surveyPort p.val false) ∧
    -- optics
    (let t := { s with tor.neigh := Tbl.set s.tor.neigh p.val { n with laserFault := lanes } }
     let told := t.evInt 1 .torIntStatus 9 0 0 [p.val, lanes.toNat]
     (lanes = 0 → ans (.laserFault p lanes) t) ∧
     (lanes ≠ 0 → (s.port (9 + p.val)).state ≠ .disabled → ans (.laserFault p lanes) (told.leaveActive (9 + p.val) .down)) ∧
     (lanes ≠ 0 → (s.port (9 + p.val)).state = .disabled → ans (.laserFault p lanes) told)) ∧
    (∃ low : Byte, (∀ l, l < 8 → (low.getLsbD l = true ↔ ∃ w, powers[l]? = some w ∧ w < (s.rd .torOptThresh).toNat)) ∧
      let t := { s with tor.neigh := Tbl.set s.tor.neigh p.val { n with rxLow := low } }
      (low = 0 → ans (.optPowerLow p powers) t) ∧
      (low ≠ 0 → ans (.optPowerLow p powers) ((t.evInt 1 .torIntStatus 9 0 0 [p.val, low.toNat]).failureWarning))) ∧
    -- a packet by position, in dimension order; class 0 of its pair on turning, and class 1 from the dateline on
    (k.hdr.kind ≠ 9 → k.hdr.kind ≠ 7 → k.hdr.kind ≠ 0xB →
      (s.routePort k.hdr.dst = none → exec (.packetRoute p vc k) s = .next (s.emit (.delivered (9 + p.val) k))) ∧
      (∀ q, s.routePort k.hdr.dst = some q →
        (s.neighState q = 1 → q < 6 → exec (.packetRoute p vc k) s = .next ((s.queuePkt (9 + q) (Fin.ofNat 4 (vc.val / 2 * 2 +
          s.hopClass q (if q / 2 = p.val / 2 then vc.val % 2 else 0))) k).bump .torFwdPkts)) ∧
        (s.neighState q ≠ 1 → exec (.packetRoute p vc k) s = .next (s.bump .torRouteDiscards)))) ∧
    (∀ dest, (s.routePort dest = none ↔ ∀ a, a < 3 →
        (posCoord dest a + max (s.dim a) 1 - posCoord s.position a) % max (s.dim a) 1 = 0) ∧
      ∀ q, s.routePort dest = some q → q < 6 ∧ (∀ a, a < q / 2 →
        (posCoord dest a + max (s.dim a) 1 - posCoord s.position a) % max (s.dim a) 1 = 0) ∧
        let d := max (s.dim (q / 2)) 1
        let h := (posCoord dest (q / 2) + d - posCoord s.position (q / 2)) % d
        h ≠ 0 ∧ (q % 2 = 0 ↔ 2 * h ≤ d))

/-- Landings (R281, R296, R362): a request is refused for a named reason or granted, its data lands once, and the last byte gives ACK. -/
def Obligations.Landings : Prop :=
  ∀ (s : State) (p : Fin 17) (k : Packet) (id : W16),
    let ans := fun (i : Instr) (u : State) => exec i s = .next (s.after u)
    let c := k.content
    let xid := BitVec.ofNat 64 (fieldLE c 8 8)
    let purpose := fieldLE c 1 1
    let len := fieldLE c 0x10 8
    let rejected := s.evReason 1 .tor 0xFFFF k.hdr.jobId 0 []
    -- a body with a nonzero reserved field is rejected
    (landOk c = false → ans (.landRequest k) rejected ∧ ans (.landGrant k) rejected ∧ ans (.landAck k) rejected ∧ ans (.landRefuse k) rejected) ∧
    -- REQUEST
    (landOk c = true → s.job? k.hdr.jobId = none → ans (.landRequest k) (s.bump .torStaleDiscards)) ∧
    (landOk c = true → ∀ j, s.job? k.hdr.jobId = some j →
      (∀ st, s.landRefusal j k = some st → ans (.landRequest k) (s.refuseLanding k st)) ∧
      (4096 ≤ s.tor.landings.length → s.landRefusal j k = some 1) ∧
      (s.landRefusal j k = none → purpose ≠ 5 → ∃ l : Landing, l.purpose = purpose ∧ l.src = k.hdr.src ∧ l.job = k.hdr.jobId ∧
        l.transferId = xid ∧ l.length.toNat = len ∧ l.data = [] ∧ l.id = BitVec.ofNat 16 s.tor.nextLanding ∧
        l.tag = (if k.hdr.flags.getLsbD 2 then some k.hdr.tag else none) ∧
        ans (.landRequest k) (State.torSend { s with tor := { s.tor with
            landings := s.tor.landings ++ [l]
            nextLanding := if s.tor.nextLanding = 65535 then 1 else s.tor.nextLanding + 1
            landingGen := (s.tor.landingGen + 1) % 2 ^ 32 } } 0xC k.hdr.src k.hdr.jobId l.tag
          (landBody 2 purpose s.tor.nextLanding s.tor.landingGen xid len 0)))) ∧
    -- GRANT: the data goes in pieces of at most 65,536 bytes
    (landOk c = true → (∀ x ∈ s.tor.transfers, ¬ (x.id = xid ∧ x.dest = k.hdr.src ∧ x.granted = false)) → ans (.landGrant k) s) ∧
    (landOk c = true → ∀ x, (s.tor.transfers.find? fun x => x.id == xid && x.dest == k.hdr.src && !x.granted) = some x → 1 ≤ x.data.length → x.data.length ≤ 65536 →
      let t := { s with tor.transfers := s.tor.transfers.map fun (y : Transfer) => if y.id == xid && y.dest == x.dest then { y with granted := true } else y }
      let d := padTo 32 x.data
      ans (.landGrant k) (t.torSend 7 x.dest x.job x.tag (leBytes 1 0x70 ++ leBytes 1 (1 + if stepPurpose x.purpose then 0 else 2) ++
        leBytes 2 (fieldLE c 2 2) ++ leBytes 4 0 ++ leBytes 8 0 ++ leBytes 4 d.length ++ leBytes 4 (fieldLE c 4 4) ++ List.replicate 8 0 ++ d))) ∧
    -- XFER
    (p.val ≠ 8 → k.hdr.kind = 7 →
      let mine := fun (l : Landing) => l.id.toNat == fieldLE c 2 2 && l.gen.toNat == fieldLE c 0x14 4
      let off := fieldLE c 8 8
      let n := fieldLE c 0x10 4
      (s.tor.landings.find? mine = none → ans (.xferRx p k) (s.bump .torLandDiscards)) ∧
      (∀ l, s.tor.landings.find? mine = some l →
        (up32 l.length.toNat < off + n ∨ n % 32 ≠ 0 ∨ n = 0 ∨ 65536 < n ∨ off % 32 ≠ 0 ∨ xferOk c = false → ans (.xferRx p k) (s.bump .torLandDiscards)) ∧
        (off + n ≤ up32 l.length.toNat → n % 32 = 0 → n ≠ 0 → n ≤ 65536 → off % 32 = 0 → fieldLE c 0 1 = 0x70 → xferOk c = true →
          let l' := { l with data := (l.data.filter fun d => d.1 != off) ++ [(off, sliceBytes c 0x20 n)] }
          let t := s.bump .torXferPktsRx
          (l'.missing ≠ 0 → ans (.xferRx p k) { t with tor.landings := s.tor.landings.map fun (x : Landing) => if x.id == l.id then l' else x }) ∧
          (l'.missing = 0 → ans (.xferRx p k) ((({ t with tor.landings := s.tor.landings.filter fun x => x.id != l.id }).torSend 0xC l.src l.job l.tag
            (landBody 3 l.purpose l.id.toNat l.gen.toNat l.transferId l.length.toNat 0)).landed l' true))))) ∧
    -- ACK and REFUSE end a transfer
    (landOk c = true → (∀ x ∈ s.tor.transfers, ¬ (x.id = xid ∧ x.dest = k.hdr.src)) → ans (.landAck k) s ∧ ans (.landRefuse k) s) ∧
    (landOk c = true → ∀ x, (s.tor.transfers.find? fun x => x.id == xid && x.dest == k.hdr.src) = some x →
      let t := { s with tor.transfers := s.tor.transfers.filter fun y => !(y.id == xid && y.dest == x.dest) }
      (x.assist = false → ans (.landAck k) (t.transferDone x)) ∧
      (fieldLE c 0x18 1 = 1 ∨ fieldLE c 0x18 1 = 3 → ans (.landRefuse k) (t.sendTransfer x.id x.dest x.purpose x.job x.tag x.data x.assist)) ∧
      (fieldLE c 0x18 1 ≠ 1 → fieldLE c 0x18 1 ≠ 3 → x.purpose ≠ 4 → x.purpose ≠ 5 → ans (.landRefuse k) t)) ∧
    -- a landing that is not completed in time
    ((∀ l ∈ s.tor.landings, l.id ≠ id) → ans (.landingTimeout id) s) ∧
    (∀ l, (s.tor.landings.find? fun l => l.id == id) = some l → l.purpose ≠ 5 → ans (.landingTimeout id)
      (({ s with tor.landings := s.tor.landings.filter fun x => x.id != id }).torSend 0xC l.src l.job l.tag
        (landBody 4 l.purpose 0 0 l.transferId l.length.toNat 3)))

/-- The fixed-tree collectives (R299, R301 to R303, R359, R360). -/
def Obligations.Collectives : Prop :=
  ∀ (s : State) (k : Packet) (key : CollKey) (slot : Nat),
    let ans := fun (i : Instr) (u : State) => exec i s = .next (s.after u)
    let items := itemsOf k.content 32 (fieldLE k.content 2 1)
    let bad := s.evReason 1 .tor 0xFFFF k.hdr.jobId 0 []
    let stale := s.bump .torStaleDiscards
    let up := collOk 0x80 k.content
    let down := collOk 0x81 k.content
    -- a packet that is not in the form of R302, or has a nonzero reserved field, is rejected
    (∀ ty : Nat, collOk ty k.content = true ↔ fieldLE k.content 0 1 = ty ∧ 1 ≤ fieldLE k.content 1 1 ∧ fieldLE k.content 1 1 ≤ 6 ∧
      zeroBytes k.content 0x13 13 = true ∧ fieldLE k.content 2 1 ≤ 16 ∧ 32 + 48 * fieldLE k.content 2 1 ≤ k.content.length ∧
      ∀ i, i < fieldLE k.content 2 1 → zeroBytes k.content (34 + 48 * i) 6 = true ∧ 1 ≤ fieldLE k.content (32 + 48 * i) 1 ∧
        fieldLE k.content (32 + 48 * i) 1 ≤ 5) ∧
    (up = false → ans (.collUp k) bad) ∧ (down = false → ans (.collDown k) bad) ∧
    (s.collKeyOf k.hdr.jobId k.content = none → (up = true → ans (.collUp k) stale) ∧ (down = true → ans (.collDown k) stale)) ∧
    (s.collKeyOf k.hdr.jobId k.content = some (key, slot) →
      let c := s.coll key slot
      let c' := { c with ups := Tbl.set c.ups (fieldLE k.content 6 2) items }
      (up = true → c.result.isSome = true → ans (.collUp k) s) ∧
      (up = true → c.result = none → ans (.collUp k) ((s.setColl c').collTry key)) ∧
      -- DOWN: the first copy is the result; a second that differs aborts the job
      (down = true → c.result = none → ans (.collDown k) (s.collResult c items true)) ∧
      (down = true → c.result = some items → ans (.collDown k) s) ∧
      (down = true → ∀ r, c.result = some r → r ≠ items → ans (.collDown k)
        ((s.evInt 1 .pairIntStatus 5 k.hdr.jobId key.ident []).jobAbort k.hdr.jobId holdInconsistent))) ∧
    -- when a member contributes, and what: its tray value merged with its children's in ascending order
    (∀ c, s.tor.colls.find? (fun c => c.key == key) = some c → c.contributed = false → c.result = none →
      let idx := s.planeIdx c.slot
      let kids := treeKids (s.planeOf c.slot).length idx
      (s.trayValue c = none → s.collTry key = s) ∧
      (∀ v, s.trayValue c = some (v, false) →
        ((∃ q ∈ kids, Tbl.has c.ups q = false) → s.collTry key = s) ∧
        ((∀ q ∈ kids, Tbl.has c.ups q = true) →
          let total := kids.foldl (fun acc q => mergeItems acc (Tbl.get c.ups [] q)) v
          (idx = 0 → s.collTry key = s.collResult { c with contributed := true } total true) ∧
          (idx ≠ 0 → s.collTry key = (s.setColl { c with contributed := true }).collSend { c with contributed := true } 0x80
            ((idx - 1) / 8) total)))) ∧
    -- no contribution before the pair rule allows it
    (∀ c, c.own = none → s.trayValue c = none) ∧
    (∀ c a, c.own = some a → c.partner = none → s.pair.partnerFailed = false → s.trayValue c = none) ∧
    (∀ c a, c.own = some a → c.partner = none → s.pair.partnerFailed = true → s.trayValue c = some (a, false)) ∧
    (∀ n i q, q ∈ treeKids n i ↔ (q < n ∧ 8 * i + 1 ≤ q ∧ q ≤ 8 * i + 8)) ∧
    -- a collective that has not completed in time
    (∀ (op : Fin 6) o, collOpOf (op.val + 1) = some o → key.op = o → key.op ≠ .barrier →
      let expired := exec (.collectiveTimeout key.job op key.ident key.layer key.phase) s
      ((∀ c ∈ s.tor.colls, ¬ (c.key = key ∧ c.result = none)) → expired = .next (s.after s)) ∧
      ((∃ c ∈ s.tor.colls, c.key = key ∧ c.result = none) →
        (key.op = .advance → expired = .next (s.after s)) ∧
        -- a vote that does not return aborts the job; a reduction or a replica compare fails its check, so that the vote is no
        let told := (s.bump .torCollTimeouts).evInt 1 .torIntStatus 6 key.job key.ident [key.op.code]
        (key.op = .vote → expired = .next (s.after (told.confirmTimeout key.job))) ∧
        (key.op = .scalar → expired = .next (s.after ((told.modStep key.job key.ident fun o => { o with scalarLate := true }).voteCast key.job))) ∧
        (key.op = .roots → expired = .next (s.after
          ((told.modStep key.job key.ident fun o => { o with replicaDone := true, replicaFail := true }).voteCast key.job)))))

/-- Messages of a start and of a teardown (R311 to R316, R371): one whose reserved bytes are not 0 is rejected, one whose job
is not held or whose generation is stale is counted and discarded; the others record what they bring, and what that lets go on goes on at once. Time-outs of a start (R312 to R314, R316), and what COMMIT does at a member (R313). -/
def Obligations.JobStarts : Prop :=
  (∀ (s : State) (p : Packet) (fromPartner : Bool),
      let ans := fun (i : Instr) (u : State) => exec i s = .next (s.after u)
      let b := p.content
      let stale := s.bump .torStaleDiscards
      -- a body with a nonzero reserved field is rejected
      let rejected := s.evReason 1 .tor 0xFFFF p.hdr.jobId 0 []
      (startOk b = false → ans (.prepare p) rejected ∧ ans (.ready p fromPartner) rejected ∧ ans (.startRefuse p fromPartner) rejected ∧
        ans (.startCommit p) rejected ∧ ans (.cancel p) rejected ∧ ans (.committed p) rejected ∧ ans (.query p fromPartner) rejected ∧
        ans (.outcome p) rejected ∧ ans (.teardown p) rejected ∧ ans (.gone p) rejected) ∧
      (startOk b = true → s.startJob b = none → ans (.ready p fromPartner) stale ∧ ans (.startRefuse p fromPartner) stale ∧ ans (.startCommit p) stale ∧
        ans (.cancel p) stale ∧ ans (.committed p) stale ∧ ans (.query p fromPartner) stale ∧ ans (.outcome p) stale ∧ ans (.teardown p) stale ∧
        ans (.gone p) stale) ∧
      -- PREPARE: a job not staged here, or held already, is refused at once; else the member's own start begins
      (let id := BitVec.ofNat 32 (fieldLE b 4 4)
       let gen := fieldLE b 0x26 2
       let refuse := fun (reason member : Nat) => s.torSend 0xA p.hdr.src id none (startBody 3 reason member id (BitVec.ofNat 64 (fieldLE b 8 8))
         (BitVec.ofNat 64 (fieldLE b 0x10 8)) [] (gen % 2 ^ 16) 0 0 (BitVec.ofNat 256 (fieldLE b 0x30 32)))
       (startOk b = true → s.job? id = none → ∃ member, ans (.prepare p) (refuse 1 member)) ∧
       (startOk b = true → ∀ j, s.job? id = some j →
         (j.phase ≠ .staged → ∃ member, ans (.prepare p) (refuse 9 member)) ∧
         (j.phase = .staged → s.pel j.pelSlot = none → ∃ member, ans (.prepare p) (refuse 3 member)) ∧
         (j.phase = .staged → (s.pel j.pelSlot).isSome = true → ans (.prepare p) (s.startBegin id (BitVec.ofNat 64 (fieldLE b 8 8))
           (BitVec.ofNat 64 (fieldLE b 0x10 8)) (BitVec.ofNat 16 gen) (BitVec.ofNat 256 (fieldLE b 0x30 32)))))) ∧
      (startOk b = true → ∀ j r, s.startJob b = some j → j.start = some r →
        let first := fun (q : StartRun) (x : Nat × Nat) => { q with refusal := some (q.refusal.getD x) }
        -- READY and REFUSE of a child, or of the other root, whose refusal is reason 12 here
        (fromPartner = false →
          ans (.ready p false) ((s.modStart j.id fun q => { q with ready := Tbl.set q.ready (fieldLE b 2 2) (fieldLE b 0x28 4) }).startGo j.id) ∧
          ans (.startRefuse p false) ((s.modStart j.id fun q => first q (fieldLE b 1 1, fieldLE b 2 2)).startGo j.id)) ∧
        (fromPartner = true →
          ans (.ready p true) ((s.modStart j.id fun q => { q with plane := some (0, 0) }).startGo j.id) ∧
          ans (.startRefuse p true) ((s.modStart j.id fun q => { q with plane := some (12, fieldLE b 2 2) }).startGo j.id)) ∧
        -- COMMIT and CANCEL
        ans (.startCommit p) (s.startCommit j.id (sliceBytes b 0x18 14)) ∧
        ans (.cancel p) (s.startCancel j.id (fieldLE b 1 1) (fieldLE b 2 2)) ∧
        -- COMMITTED counts go up; the root reports STARTED when every member has committed
        (let q := { r with committed := Tbl.set r.committed (fieldLE b 2 2) (fieldLE b 0x28 4) }
         let t := s.setJob { j with start := some q }
         (s.jobIdx j ≠ 0 → ans (.committed p) (t.startTo j (t.jobParent j) (t.startMsg j q 6 0 (t.jobIdx j) q.total 0))) ∧
         (s.jobIdx j = 0 → q.total = (s.planeOf j.pelSlot).length → ans (.committed p) (t.startReport j.id 0 0 q.total)) ∧
         (s.jobIdx j = 0 → q.total ≠ (s.planeOf j.pelSlot).length → ans (.committed p) t)) ∧
        -- QUERY and OUTCOME
        (fromPartner = false → s.leads = true → s.jobIdx j = 0 → ans (.query p false) (s.startTo j (fieldLE b 2 2) (s.startMsg j r 8 0 0 0
          (match r.decision with | some true => 4 | some false => 5 | none => 0)))) ∧
        (fromPartner = false → s.leads = false ∨ s.jobIdx j ≠ 0 → ans (.query p false) s) ∧
        (∀ d, fromPartner = true → r.decision = some d →
          ans (.query p true) (s.startPartner (s.startMsg j r 8 0 (s.jobIdx j) 0 (if d then 4 else 5)))) ∧
        (r.passQuery = false →
          let t := s.modStart j.id fun q => { q with unanswered := 0, passQuery := false }
          (fieldLE b 0x2C 1 = 4 → ans (.outcome p) (t.startCommit j.id (sliceBytes b 0x18 14))) ∧
          (fieldLE b 0x2C 1 = 5 → ans (.outcome p) (t.startCancel j.id 0 0)) ∧
          (fieldLE b 0x2C 1 ≠ 4 → fieldLE b 0x2C 1 ≠ 5 → ans (.outcome p) t))) ∧
      (startOk b = true → ∀ j, s.startJob b = some j →
        ans (.teardown p) ((s.teardownBegin j.id (BitVec.ofNat 64 (fieldLE b 8 8)) true).teardownGo j.id) ∧
        ans (.gone p) ((s.setJob { j with gone := Tbl.set j.gone (fieldLE b 2 2) (fieldLE b 0x28 4) }).teardownGo j.id))) ∧
  (∀ (s : State) (id : W32) (j : Job) (r : StartRun), s.job? id = some j → j.start = some r →
      let ans := fun (i : Instr) (u : State) => exec i s = .next (s.after u)
      -- a child that has not answered refuses for its subtree
      (∀ child : W16, j.phase = .preparing → r.answered = false → (s.jobKids j).contains child.toNat = true → Tbl.has r.ready child.toNat = false →
        r.refusal = none → ans (.prepareChildTimeout id child)
          ((s.modStart id fun q => { q with refusal := some (q.refusal.getD (10, child.toNat)) }).startGo id)) ∧
      (∀ child : W16, r.answered = true ∨ Tbl.has r.ready child.toNat = true → ans (.prepareChildTimeout id child) s) ∧
      -- the resources of a job tearing down have not come
      (j.phase = .preparing → r.waiting = true → r.own = none →
        ans (.prepareWaitTimeout id) ((s.modStart id fun q => { q with waiting := false, own := some 8 }).startGo id)) ∧
      (r.waiting = false → ans (.prepareWaitTimeout id) s) ∧
      -- STARTED with the members that have committed so far
      (r.decision = some true → s.jobIdx j = 0 → ans (.startedReportTimeout id) (s.startReport id 0 0 r.total)) ∧
      (r.decision ≠ some true ∨ s.jobIdx j ≠ 0 → ans (.startedReportTimeout id) s) ∧
      ans (.startTimeReached id) (s.modStart id fun q => { q with timeWait := false }) ∧
      -- QUERY, repeated; unanswered, it goes to the partner, and after ten the member is IN_DOUBT
      (r.decision.isSome = true ∨ (j.phase ≠ .prepared ∧ j.phase ≠ .inDoubt) → ans (.preparedWaitTimeout id) s ∧ ans (.queryRepeat id) s) ∧
      (r.decision = none → j.phase = .prepared ∨ j.phase = .inDoubt →
        let q := { r with queries := r.queries + 1, unanswered := r.unanswered + 1 }
        let t := s.setJob { j with start := some q }
        let ask := fun (u : State) => u.startTo j 0 (u.startMsg j q 7 0 (u.jobIdx j) 0 0)
        (r.unanswered ≠ 3 → r.unanswered ≠ 10 ∨ j.phase ≠ .prepared → ans (.preparedWaitTimeout id) (ask t) ∧ ans (.queryRepeat id) (ask t)) ∧
        (r.unanswered = 3 → ans (.queryRepeat id) (ask (t.startPartner (t.startMsg j q 7 0 (t.jobIdx j) 0 0)))) ∧
        (r.unanswered = 10 → j.phase = .prepared → ans (.queryRepeat id)
          (ask ((t.modJob id fun j => { j with phase := .inDoubt }).evInt 1 .torIntStatus 8 id r.firstStep [])))) ∧
      -- CANCEL at a member that holds nothing yet, and its repeat
      (j.phase = .staged → ∀ reason member, s.startCancel id reason member = s) ∧
      (j.phase = .running → ∀ time, s.startCommit id time = s))

/-- Messages between the two sides (R358, R359, R365, R376): a side without a partner takes none; a malformed one is acknowledged with
status 2, where it is acknowledged; a repeat of one already applied is acknowledged and not applied again; any other has its effect once.
The repeat of a message is told by type, ident and body, and that of a directive by its site too (log entry 30). -/
def Obligations.PairMessages : Prop :=
  ∀ (s : State) (m : CtlMsg) (site : Fin 8) (ty : Byte) (ident : W64),
    let ans := fun (i : Instr) (u : State) => exec i s = .next (s.after u)
    let body := m.bytes.take m.length.toNat
    -- a directive is told by its site too
    let told := fun (n : Nat) => (n, m.ident, if n = 0x14 then body ++ [BitVec.ofNat 8 site.val] else body)
    let known := fun (n : Nat) => m.flags.getLsbD 0 && s.pair.applied.contains (told n)
    let noted := fun (n : Nat) => { s with pair.applied := (told n :: s.pair.applied).take 4096 }
    -- the messages, their types, and whether receipt alone gives the acknowledgement
    (∀ e ∈ ([(.pairDirective ⟨site, m⟩, 0x14, true, fun t => t.directiveRx site.val m), (.apply m, 0x43, true, fun t => t.applyRx m),
        (.handover m, 0x44, true, fun t => t.handoverRx m), (.items m, 0x45, true, fun t => t.itemsRx m),
        (.root m, 0x46, true, fun t => t.rootRx m), (.record m, 0x47, false, fun t => t.recordRx m),
        (.gateClose m, 0x48, true, fun t => t.gateCloseRx m), (.verdicts m, 0x49, true, fun t => t.verdictsRx m),
        (.result m, 0x4A, true, fun t => t.collDown m.jobId body false),
        (.jobAlarm m, 0x4B, false, fun t => t.jobAlarmRx m)] : List (Instr × Nat × Bool × (State → State))),
      let act := e.2.2.2
      (s.pair.partnerFailed = true ∨ s.pair.role = .withdrawn → ans e.1 s) ∧
      (s.pair.partnerFailed = false → s.pair.role ≠ .withdrawn →
        (m.pairForm e.2.1 = false → ans e.1 (if e.2.1 = 0x4B then s else s.pairAck e.2.1 m.ident m.jobId 2)) ∧
        (m.pairForm e.2.1 = true → known e.2.1 = true → ans e.1 (if e.2.2.1 then s.pairAck e.2.1 m.ident m.jobId 0 else s)) ∧
        (m.pairForm e.2.1 = true → known e.2.1 = false →
          ans e.1 (if e.2.2.1 then (act (noted e.2.1)).pairAck e.2.1 m.ident m.jobId 0 else act (noted e.2.1))))) ∧
    -- what they do: a directive goes on to its site, if a message reaches it
    (∀ j, s.job? m.jobId = some j → s.directiveRx site.val m = (s.setJob { j with
        directed := m.ident, directive := Tbl.set j.directive site.val (m.bytes.take 64) }).sitesSend
      ((j.sites.filter (· == site.val)).filter s.siteReach) 0x14 m.ident m.jobId (m.bytes.take 64)) ∧
    -- the boundary of a command, applied where the command waits for it, else kept
    ((∀ r, s.run? m.ident = some r → r.stage ≠ 1) → s.applyRx m = { s with pair.applies := s.pair.applies ++ [(m.ident, BitVec.ofNat 64 (m.get 0 8))] }) ∧
    (∀ r, s.run? m.ident = some r → r.stage = 1 →
      s.applyRx m = (s.modRun m.ident fun r => { r with stage := 2 }).applyAt r (BitVec.ofNat 64 (m.get 0 8))) ∧
    -- the ACTIVE role changes sides, and directives follow from the step named
    (s.pair.role ≠ .standby → s.handoverRx m = s) ∧
    (s.pair.role = .standby → s.host.runs = [] →
      let t := s.handoverRx m
      t.pair.role = .active ∧ t.pair.partnerRole = .standby ∧ t.mem = s.mem ∧ t.acc = s.acc ∧
        t.jobs.map (fun e => (e.1, e.2.directed.toNat)) = s.jobs.map (fun e => (e.1, max e.2.directed.toNat (BitVec.ofNat 64 (m.get 8 8)).toNat))) ∧
    -- the partner's root and record of a step (R36, R39)
    (∀ j o, s.job? m.jobId = some j → j.step? m.ident = some o →
      s.rootRx m = (s.modStep m.jobId m.ident fun o => { o with partnerRoot := some (BitVec.ofNat 256 (fieldLE m.bytes 0 32)) }) ∧
      (o.commit ≠ .exchange → s.recordRx m = s.modStep m.jobId m.ident fun o => { o with partnerRecord := some (m.bytes.take 256) })) ∧
    -- the partner's items of a collective are its contribution
    (∀ j op, s.job? m.jobId = some j → collOpOf (m.get 0 1) = some op →
      let key : CollKey := ⟨m.jobId, op, m.ident, BitVec.ofNat 16 (m.get 6 2), op.phaseOf (m.bytes.getD 8 0) (m.get 1 1)⟩
      s.itemsRx m = (s.setColl { (s.coll key (m.get 2 1)) with partner := some (itemsOf m.bytes 16 (m.get 1 1)) }).collTry key) ∧
    -- no acknowledgement within 1 ms: the oldest message goes again with repeat
    (∀ x, s.pair.sent.filter (fun x => x.ty == ty.toNat && x.ident == ident) = [x] →
      exec (.pairMsgRepeat ty ident) s = .next ((s.pairQueue ty.toNat true ident x.job x.body x.site).keeping s s.brx)) ∧
    (s.pair.sent.filter (fun x => x.ty == ty.toNat && x.ident == ident) = [] → exec (.pairMsgRepeat ty ident) s = .next s)

/-- The journal of the pair and its acknowledgements (R358, R364, R366, R39). -/
def Obligations.PairJournal : Prop :=
  ∀ (s : State) (m : CtlMsg),
    let pins := fun (i : Instr) (u : State) => exec i s = .next (s.afterPins u)
    let ans := fun (i : Instr) (u : State) => exec i s = .next (s.after u)
    let e := entryOf m.bytes
    -- entries are taken in order; a duplicate is acknowledged with the number written before; a gap asks for what is missing
    (s.pair.partnerFailed = true ∨ s.pair.role = .withdrawn → pins (.journal m) s) ∧
    (s.pair.partnerFailed = false → s.pair.role ≠ .withdrawn →
      (m.pairForm 0x41 = false → pins (.journal m) (s.pairAck 0x41 m.ident m.jobId 2)) ∧
      (m.pairForm 0x41 = true →
        (∀ x, s.entry? e.id = some x → ∃ st, st ≤ 1 ∧ pins (.journal m) (s.pairAck 0x41 e.id e.job st x.seqNo)) ∧
        (s.entry? e.id = none → s.pair.journalNext < e.seqNo → m.flags.getLsbD 0 = false →
          pins (.journal m) (s.pairQueue 0x42 false 0 0 (leBytes 8 s.pair.journalNext))) ∧
        (s.entry? e.id = none → e.seqNo ≤ s.pair.journalNext ∨ m.flags.getLsbD 0 = true → s.journalBusy = false →
          let op := fieldLE e.packet 0 2
          let t := s.journalPut e.id e.job 2 true e.packet (s.replyBytes e.id op 2 0 0 0 s.host.nextSeq 0)
          let p := sliceBytes e.packet 64 (fieldLE e.packet 0x12 2)
          let r : CmdRun := ⟨e.id, op, e.job, fieldLE e.packet 3 1, false, p, none, 0, 0, (opRefs op p).map fun o => wrefPages (wrefOf p o)⟩
          let u := State.scheduleDigest { t with pair.journalNext := e.seqNo + 1, host.runs := t.host.runs ++ [r] } op e.id p
          let code := State.partnerCode { t with pair.journalNext := e.seqNo + 1 } op e.job p
          (code = 0 → pins (.journal m) ((u.pairAck 0x41 e.id e.job 0 s.host.nextSeq).cmdStart e.id true)) ∧
          (code ≠ 0 → pins (.journal m) ((u.pairAck 0x41 e.id e.job 1 s.host.nextSeq).finish e.id 0x010D))))) ∧
    -- the entries asked for go again, if they still wait
    (m.pairForm 0x42 = false → exec (.journalResend m) s = .next s) ∧
    (∀ x, m.pairForm 0x42 = true → s.host.journal.filter (fun x => m.get 0 8 ≤ x.seqNo && s.pairWaits 0x41 x.id) = [x] →
      exec (.journalResend m) s = .next ((((s.entryRead x).bump .pairJournalResends).pairQueue 0x41 true x.id x.job (s.entryBytes { x with state := 1 })).keeping s s.brx)) ∧
    -- PAIR_ACK: nothing without a message that waits; else the oldest of its type and ident is acknowledged
    (s.partnerJournals = false ∨ s.pair.role = .withdrawn ∨ m.pairForm 0x4F = false ∨
      s.pair.sent.find? (fun x => x.ty == m.get 0 1 && x.ident == m.ident) = none → ans (.pairAck m) s) ∧
    (∀ x, s.partnerJournals = true → s.pair.role ≠ .withdrawn → m.pairForm 0x4F = true →
      s.pair.sent.find? (fun x => x.ty == m.get 0 1 && x.ident == m.ident) = some x →
      let t := { s with pair.sent := s.pair.sent.erase x }
      (x.ty = 0x41 → ans (.pairAck m) ((t.modEntry x.ident fun e => { e with partnerSeen := true }).cmdStart x.ident (m.get 1 1 == 0))) ∧
      (∀ r, x.ty = 0x43 → s.run? x.ident = some r → r.stage = 1 →
        ans (.pairAck m) ((t.modRun x.ident fun r => { r with stage := 2 }).applyAt r r.result)) ∧
      (x.ty = 0x44 → ans (.pairAck m) ((({ t with pair.role := .standby, pair.partnerRole := .active }).raise .pairIntStatus 4).switchEnd 0)) ∧
      (x.ty = 0x47 → ans (.pairAck m) ((t.modStep x.job x.ident fun o => { o with recordAcked := true }).commitGo x.job)) ∧
      (x.ty = 0x48 → ans (.pairAck m) (t.modJob x.job fun j => j.gatePartner (some x.ident))))

/-- Heartbeats, the loss of the partner, and the fence (R362, R367 to R371). -/
def Obligations.PairWatch : Prop :=
  ∀ (s : State) (m : CtlMsg) (id : W64),
    let ans := fun (i : Instr) (u : State) => exec i s = .next (s.after u)
    let pins := fun (i : Instr) (u : State) => exec i s = .next (s.afterPins u)
    let lost := fun (i : Instr → State → Prop) (c : Instr) (t : State) =>
      (s.pair.role = .standby → i c t.withdraw) ∧ (s.pair.role = .active → i c (t.evInt 1 .pairIntStatus 1 0 0 [])) ∧
        (s.pair.role = .sole → s.pair.rejoin = none → i c t)
    -- a heartbeat: what it says of the partner, and a halt notice declares it failed
    (m.pairForm 0x40 = false → pins (.heartbeat m) (s.ctlMalformed 8)) ∧
    (m.pairForm 0x40 = true → s.pair.role ≠ .withdrawn → s.pair.partnerFailed = false → ∀ role flags rest, m.bytes.take 12 = role :: flags :: rest →
      let t := { s with pair.hbPair := true, pair.partnerRole := Role.ofCode role.toNat }
      (flags.getLsbD 0 = false → pins (.heartbeat m) t) ∧
      (flags.getLsbD 0 = true → pins (.heartbeat m) ({ t with pair.partnerHalting := true }).partnerFail)) ∧
    (s.pair.role = .withdrawn → exec .heartbeatTx s = .next s) ∧
    (s.pair.role ≠ .withdrawn → exec .heartbeatTx s = .next ((s.pairQueue 0x40 false 0 0 (leBytes 1 s.pair.role.code ++
      leBytes 1 (if s.pair.halting then 1 else 0) ++ [0, 0] ++ leBytes 8 (s.host.nextSeq - 1))).keeping s s.brx)) ∧
    -- the time-out: the sites are asked; without one to ask the partner is failed
    (s.pair.role = .withdrawn ∨ (s.pair.partnerFailed = true ∧ s.pair.rejoin = none) → ans .hbTimeout s) ∧
    (s.pair.role ≠ .withdrawn → s.pair.partnerFailed = false ∨ s.pair.rejoin ≠ none → s.pair.polling = 0 →
      let us := min 100000 (max 500 (s.rd .pairHbTimeout).toNat)
      let t := s.bumpBy .pairHbMissed (us / 100 + if s.fld .pairCtrl 0 1 = 1 then us / 1000 else 0)
      let admitted := fun (k : Nat) => s.jobs.vals.any fun j => j.admittedSites.getLsbD k
      ((∀ k, k < 8 → admitted k = false) → ans .hbTimeout
        (State.partnerFail { t with pair.hbPair := false, pair.hbSide := false, pair.polling := 0, pair.pollUp := false })) ∧
      (∀ k, k < 8 → (∀ q, q < 8 → (admitted q = true ↔ q = k)) → ans .hbTimeout (State.siteSend
        { t with pair.hbPair := false, pair.hbSide := false, pair.polling := BitVec.ofNat 8 (2 ^ k), pair.pollUp := false }
        k 0x19 0 0 (leBytes 4 8 ++ leBytes 1 1 ++ [0, 0, 0])))) ∧
    -- a site's answer with the partner's port up: STANDBY withdraws, ACTIVE waits; all down: the partner is failed
    (∀ k up, k < 8 → s.pair.polling = BitVec.ofNat 8 (2 ^ k) → s.pair.hbPair = false → s.pair.hbSide = false →
      let t := { s with pair.polling := 0, pair.pollUp := s.pair.pollUp || up }
      (t.pair.pollUp = false → s.pollAnswer k up = t.partnerFail) ∧ (t.pair.pollUp = true → s.pollAnswer k up = t.heartbeatsLost)) ∧
    ((s.port 8).up = true ∨ s.pair.partnerFailed = true → pins .linkGraceTimeout s) ∧
    ((s.port 8).up = false → s.pair.partnerFailed = false → lost pins .linkGraceTimeout s) ∧
    -- the fence: every port off, nothing is sent or expected any more, and no halt notice leaves
    (s.pair.fenced = false →
      let t := s.fence
      t.pair.fenced = true ∧ t.pair.role = .withdrawn ∧ t.pair.sent = [] ∧ t.side.frame = none ∧ t.stm.buffers = [] ∧
        (∀ p, p < 15 → (t.port p).state = .disabled) ∧ (∀ p, 15 ≤ p → t.port p = s.port p) ∧ t.jobs = s.jobs ∧ t.mem = s.mem) ∧
    (s.jobs = [] → pins .fenceWatchdogExpiry { s.fence with host.siteSent := [], tor.colls := [], tor.landings := [], tor.transfers := [] }) ∧
    -- the partner is declared failed
    (s.pair.role ≠ .withdrawn → s.pair.role ≠ .joining → s.pair.partnerFailed = false → s.pair.rejoin = none → s.jobs = [] →
      s.host.runs = [] → s.tor.colls = [] →
      let t := { s with pair := { s.pair with role := .sole, partnerFailed := true, sent := [], polling := 0, hbPair := false, hbSide := false } }
      s.partnerFail = { (t.evInt 1 .pairIntStatus 0 0 0 []) with pair.switching := none, pair.applies := [] }) ∧
    -- a transfer without an answer passes to the partner, which sends it on its plane
    ((∀ x ∈ s.tor.transfers, ¬ (x.id = id ∧ x.granted = false)) → ans (.assistTimeout id) s) ∧
    (∀ x, s.tor.transfers.find? (fun x => x.id == id && !x.granted) = some x →
      (s.pair.partnerFailed = true ∨ (s.port 8).up = false → ans (.assistTimeout id) s) ∧
      (s.pair.partnerFailed = false → (s.port 8).up = true → ans (.assistTimeout id)
        ((({ s with tor.transfers := s.tor.transfers.filter fun y => y.id != id }).queuePkt 8 0 (mkPacket 5 0 0 s.sideNat 0 x.job
          s.position x.dest 0 (padTo 32 (pairHead x.purpose x.id x.data.length x.tag ++ x.data)))).bump .pairAssists)))

/-- A bedrock on its members and its root (R384, R387, R389, R392): chunks go out into free slots, slots come back, reports gather at the
root until the manifest stands, SEALED and ABANDON make the UNPIN flip, the time-out abandons, and an armed warning starts a bedrock. How
the messages travel is log entry 29. -/
def Obligations.BedrockMessages : Prop :=
  ∀ (s : State) (id : W32) (bid : W64) (report chunk : List Byte) (code detail : W16) (v : W32),
    let ans := fun (i : Instr) (u : State) => exec i s = .next (s.after u)
    (s.job? id = none → ans (.bedrockChunkWrite id) s ∧ ans (.memberReport id bid report) s ∧ ans (.bedrockSealed id bid) s ∧
      ans (.abandon id bid code detail) s ∧ ans (.bedrockTimeout id) s ∧ ans (.failureWarningReport id) s) ∧
    (∀ j, s.job? id = some j →
      (j.bed = none → ans (.bedrockChunkWrite id) s ∧ ans (.memberReport id bid report) s ∧ ans (.bedrockSealed id bid) s ∧
        ans (.abandon id bid code detail) s ∧ ans (.bedrockTimeout id) s) ∧
      (∀ b, j.bed = some b →
        -- a chunk: its header and payload into the first free slot, an entry of the ring, vector 1, and the slot is busy
        (s.host.targets = none ∨ b.chunks = [] ∨ s.host.busMaster = false ∨ s.host.linkOk = false → ans (.bedrockChunkWrite id) s) ∧
        (∀ t, s.host.targets = some t →
          ((∀ k, k < t.slots.length → t.busy.contains k = true) → ans (.bedrockChunkWrite id) s) ∧
          (∀ k kind index rest, b.chunks = (kind, index) :: rest → s.host.busMaster = true → s.host.linkOk = true → k < t.slots.length →
            t.busy.contains k = false → (∀ q, q < k → t.busy.contains q = true) →
            let p := (s.chunkPayload j b kind index).1
            let h := chunkHeader j.id b.id (b.step.getD 0) (s.chunkOwner b kind) kind s.sideNat s.position index p.length
              (s.chunkPayload j b kind index).2 (shake256 p)
            let u := s.setJob { j with bed := some { b with chunks := rest, busy := b.busy ++ [k] } }
            ans (.bedrockChunkWrite id) (State.raise { u with
              outbox := s.outbox ++ [.hostWrite (t.slots.getD k (0, 0)).1.toNat (h ++ p), .hostWrite (t.ringBase.toNat + 64 * (t.written % 4096))
                (leBytes 2 k ++ List.replicate 14 0 ++ h.take 0x30)]
              host.targets := some { t with busy := t.busy ++ [k], written := t.written + 1 } } .hstIntStatus 2))) ∧
        -- a report: the root keeps the last of each position and side; different pinned steps abandon; the last one makes the manifest
        (b.id ≠ bid ∨ s.isRoot j = false ∨ b.manifest ≠ none → ans (.memberReport id bid report) s) ∧
        (b.id = bid → s.isRoot j = true → b.manifest = none →
          let same := fun (x : List Byte) => fieldLE x 0x74 2 == fieldLE report 0x74 2 && fieldLE x 0x78 1 == fieldLE report 0x78 1
          let b' := { b with reports := (b.reports.filter fun x => !same x) ++ [sliceBytes report 0 128] }
          let t := s.setJob { j with bed := some b' }
          let differ := ∃ x ∈ b'.reports, fieldLE x 0x68 8 ≠ fieldLE report 0x68 8
          (differ → ans (.memberReport id bid report) (t.bedAbandonNow id 0x0504 (fieldLE report 0x74 2))) ∧
          (¬ differ → b'.complete = false → ans (.memberReport id bid report) t) ∧
          (¬ differ → b'.complete = true →
            let m := t.manifestBytes j b'
            let u := t.setJob { j with bed := some { b' with manifest := some m } }
            ans (.memberReport id bid report) { u with sec.mailbox := s.sec.mailbox ++ [.manifest m] })) ∧
        -- SEALED and ABANDON: the UNPIN flip where a pin is held, and the end of the command
        (b.id ≠ bid → ans (.bedrockSealed id bid) s ∧ ans (.abandon id bid code detail) s) ∧
        (b.id = bid →
          let t := s.setJob { j with bed := none, strata := { j.strata with pinCopy := none } }
          let u := if j.strata.pin.isSome then t.flipped id fun x => { x with pin := none } else t
          ans (.bedrockSealed id bid) (u.finish b.cmd 0 0 (b.step.getD 0)) ∧
          ans (.abandon id bid code detail) (u.finish b.cmd code.toNat detail.toNat 0)) ∧
        -- the time-out: TIMEOUT names the controller, MEMBER_LOST the first missing position
        (s.isRoot j = true → b.busy ≠ [] → ans (.bedrockTimeout id) (s.bedAbandonNow id 0x0502 s.position.toNat)) ∧
        (s.isRoot j = true → b.busy = [] → ans (.bedrockTimeout id) (s.bedAbandonNow id 0x0501 b.missing)) ∧
        (s.isRoot j = false → b.busy ≠ [] → ans (.bedrockTimeout id)
          (s.bedUp j (bedPacket 0x8006 j.id b.id (leBytes 2 0x0502 ++ leBytes 2 s.position.toNat)))) ∧
        (s.isRoot j = false → b.busy = [] → ans (.bedrockTimeout id) s)) ∧
      -- a failure warning at the root: an armed job starts a bedrock, unless one is under way or the last began too recently
      (s.isRoot j = false → ans (.failureWarningReport id) s) ∧
      (s.isRoot j = true → j.arm = none ∨ j.bed ≠ none ∨ (∃ t a, j.bedAt = some t ∧ j.arm = some a ∧ s.now < t + a.minInterval * 10 ^ 9) →
        ans (.failureWarningReport id) (s.evReason 0 .str 9 id j.eventIdent [])) ∧
      (∀ a, s.isRoot j = true → j.arm = some a → j.bed = none → 1 ≤ a.count → (∀ t, j.bedAt = some t → t + a.minInterval * 10 ^ 9 ≤ s.now) →
        s.host.targets.isSome = true → j.restore = none → j.phase = .running →
        let arm := if a.count = 1 then none else some { a with count := a.count - 1, idBase := a.idBase + 1 }
        ans (.failureWarningReport id) ((s.setJob { j with arm := arm }).bedStart id a.idBase 0 (j.committed + 2) (bedPacket 0x0213 id 0 (leBytes 8 a.idBase.toNat ++ leBytes 4 a.timeoutS)) a.dedup a.timeoutS true))) ∧
    -- the host returns a slot
    (s.host.targets = none → ans (.bdrReturn v chunk) s) ∧
    (∀ t, s.host.targets = some t →
      (t.busy.contains (v.toNat % 64) = false → ans (.bdrReturn v chunk) s) ∧
      (t.busy.contains (v.toNat % 64) = true → s.jobs = [] → ans (.bdrReturn v chunk)
        { s with host.targets := some { t with busy := t.busy.filter fun x => x != v.toNat % 64 } }) ∧
      (∀ n j b, t.busy.contains (v.toNat % 64) = true → s.jobs = [(n, j)] → j.slot = n → j.bed = some b → j.restore = none →
        let j' := { j with bed := some { b with busy := b.busy.filter fun x => x != v.toNat % 64 } }
        ans (.bdrReturn v chunk) (State.setJob { s with host.targets := some { t with busy := t.busy.filter fun x => x != v.toNat % 64 } } j')))

/-- The two domains and the output clock (R424 to R426, R428, R436, R438): what a tick adds, the host's writes, a switch that does not step
the output clock, the slew, a capture, and a source that is lost. A step on an empty queue is one tick (log entry 8). -/
def Obligations.DomainsAndOutputClock : Prop :=
  ∀ (s : State) (d : Fin 2) (a : W32) (amount : W64),
    let now := fun (i : Instr) (u : State) => exec i s = .next (u.keeping s s.brx)
    let x := s.dom d.val
    let put := fun (y : Domain) => { s with tmu := if d = 0 then { s.tmu with dom0 := y } else { s.tmu with dom1 := y } }
    -- a tick: the load first, then the steps, then the increment
    (s.pending = [] → ∃ t, step s = .next t ∧ t.now = s.now + 1 ∧ t.tmu.count = s.tmu.count + 1 ∧
      (t.dom d.val).t = ((((x.load.getD x.t : Nat) : Int) + x.stepSum * 2 ^ 24 + 2 ^ 40 + (s.rd .tmuFreqAdj d.val).toInt) % timeMod).toNat ∧
      (t.dom d.val).valid = (x.valid || x.load.isSome) ∧ (t.dom d.val).locked = x.locked ∧ (t.dom d.val).load = none ∧ (t.dom d.val).stepSum = 0 ∧
      (let r := (min 1000000 (max 1 (s.rd .tmuSlew).toNat) * 2 ^ 40 : Nat)
       (s.tmu.resid.natAbs ≤ r → t.tmu.resid = 0) ∧ (r < s.tmu.resid → t.tmu.resid = s.tmu.resid - r) ∧
         (s.tmu.resid < -r → t.tmu.resid = s.tmu.resid + r))) ∧
    -- the host's writes
    (∃ t, exec (.tmuFreqAdjWrite d a) s = .next t ∧ t = { s with regs := t.regs } ∧ t.rd .tmuFreqAdj d.val = a ∧
      ∀ (r : Reg) (o : Nat), r.key o ≠ Reg.tmuFreqAdj.key d.val → t.rd r o = s.rd r o) ∧
    exec (.tmuStepWrite d amount) s = .next (put { x with stepSum := x.stepSum + amount.toInt }) ∧
    ((s.rd .tmuSetNs d.val).toNat < 10 ^ 9 →
      let sec := (s.rd .tmuSetSHi d.val).toNat * 2 ^ 32 + (s.rd .tmuSetSLo d.val).toNat
      let at_ := (sec * 10 ^ 9 + (s.rd .tmuSetNs d.val).toNat) * 2 ^ 40 + s.fld .tmuSetFrac 0 16 d.val * 2 ^ 24
      exec (.tmuLoad d) s = .next (put { x with load := some at_ })) ∧
    (10 ^ 9 ≤ (s.rd .tmuSetNs d.val).toNat → now (.tmuLoad d) (s.bump .tmuSetRefused)) ∧
    exec (.tmuInvalidate d) s = .next (put { x with valid := false, locked := false }) ∧
    -- a switch
    (s.fld .tmuCtrl 0 1 = d.val → exec (.tmuSelectWrite d) s = .next s) ∧
    (s.fld .tmuCtrl 0 1 ≠ d.val → ∃ t, exec (.tmuSelectWrite d) s = .next t ∧ t.fld .tmuCtrl 0 1 = d.val ∧ t.selDomain = x ∧
      t = { s with regs := t.regs, tmu := { s.tmu with resid := t.tmu.resid } } ∧ (s.selDomain.valid = true → x.valid = true → t.outTime = s.outTime)) ∧
    -- the slew ends: the least number of ticks that it needs passes
    (s.tmu.resid ≠ 0 → ∃ t n, exec .slewDone s = .next t ∧ t.tmu.resid = 0 ∧ (t.rd .tmuIntStatus).getLsbD 3 = true ∧ t.now = s.now + n ∧
      s.tmu.resid.natAbs ≤ n * s.slewRate ∧ (n - 1) * s.slewRate < s.tmu.resid.natAbs) ∧
    -- a capture: the output clock and both domains at one tick
    (∃ t, exec .tmuCapture s = .next t ∧ t = { s with regs := t.regs } ∧
      (∀ e ∈ ([(0, s.outTime), (1, s.tmu.dom0.t), (2, s.tmu.dom1.t)] : List (Nat × Nat)),
        t.rd .tmuSnapSLo e.1 = BitVec.ofNat 32 (e.2 / 2 ^ 40 / 10 ^ 9) ∧ t.rd .tmuSnapSHi e.1 = BitVec.ofNat 32 (e.2 / 2 ^ 40 / 10 ^ 9 / 2 ^ 32) ∧
          t.rd .tmuSnapNs e.1 = BitVec.ofNat 32 (e.2 / 2 ^ 40 % 10 ^ 9) ∧ t.rd .tmuSnapFrac e.1 = BitVec.ofNat 32 (e.2 / 2 ^ 24 % 2 ^ 16)) ∧
      ∀ r ∉ ([.tmuSnapSLo, .tmuSnapSHi, .tmuSnapNs, .tmuSnapFrac] : List Reg), ∀ o, o < 65536 → t.rd r o = s.rd r o) ∧
    -- a source that is lost
    (x.locked = false → exec (.sourceLossTimeout d) s = .next s) ∧
    (x.locked = true → now (.sourceLossTimeout d) ((put { x with locked := false }).evInt 1 .tmuIntStatus 2 0 0 [d.val]))

/-- Exchanges with a time source (R429, R431 to R434): each is published once its timestamps are there, and one without them is dropped.
An odd sum's last bit is a free value (log entry 33). -/
def Obligations.TimeExchanges : Prop :=
  ∀ (s : State) (d : Fin 2) (p : Fin 6) (b : List Byte) (m : PtpSync) (q : W16) (at_ : W64 × W32) (corr : W64) (v : List Nat),
    let now := fun (i : Instr) (u : State) => exec i s = .next (u.keeping s s.brx)
    let x := s.dom d.val
    let put := fun (y : Domain) => { s with tmu := if d = 0 then { s.tmu with dom0 := y } else { s.tmu with dom1 := y } }
    -- what a publication writes
    (∀ o l : Int, let t := s.publish d.val o l
      t.rd .tmuMeasOffsetLo d.val = BitVec.ofInt 32 o ∧ t.rd .tmuMeasOffsetHi d.val = BitVec.ofInt 32 (o / 2 ^ 32) ∧
        t.rd .tmuMeasDelayLo d.val = BitVec.ofInt 32 l ∧ t.rd .tmuMeasDelayHi d.val = BitVec.ofInt 32 (l / 2 ^ 32) ∧
        (t.rd .tmuIntStatus).getLsbD d.val = true ∧ t.tmu = s.tmu) ∧
    -- torus: the request
    (s.fld .tmuCtrl 2 1 = 0 ∨ s.fld .tmuDomainCfg 0 2 d.val ≠ 2 → exec (.timeInterval d) s = .next s) ∧
    (s.fld .tmuCtrl 2 1 ≠ 0 → s.fld .tmuDomainCfg 0 2 d.val = 2 →
      let n := (x.reqSeq + 1) % 65536
      let t := put { x with reqSeq := n, reqOpen := true, reqTa := none }
      let body := leBytes 1 1 ++ leBytes 1 d.val ++ leBytes 2 n ++ leBytes 2 s.position.toNat ++ List.replicate 58 0
      let go := fun (u : State) => u.torSend 0xB (BitVec.ofNat 16 (s.fld .tmuDomainCfg 16 16 d.val)) 0 none body
      (x.reqOpen = false → now (.timeInterval d) (go t)) ∧
      (x.reqOpen = true → now (.timeInterval d) (go { t with regs := (s.bump .tmuMeasDropped d.val).regs }))) ∧
    -- the answer: with the time at arrival, and the request's corr as it arrived
    (timeForm 1 b = false ∨ s.fld .tmuCtrl 2 1 = 0 → now (.timeRequest p b) (s.bump .tmuTimeDiscards)) ∧
    (timeForm 1 b = true → s.fld .tmuCtrl 2 1 ≠ 0 → fieldLE b 1 1 = d.val →
      (x.valid = false → now (.timeRequest p b) (s.bump .tmuTimeDiscards)) ∧
      (x.valid = true → now (.timeRequest p b) (s.torSend 0xB (BitVec.ofNat 16 (fieldLE b 4 2)) 0 none
        (leBytes 1 2 ++ leBytes 1 d.val ++ leBytes 2 (fieldLE b 2 2) ++ leBytes 2 (fieldLE b 4 2) ++ [0, 0] ++ leBytes 8 0 ++
          leBytes 8 (BitVec.ofInt 64 ((BitVec.ofNat 64 (fieldLE b 8 8)).toInt + (s.rd .tmuCalRx p.val).toInt * 256)).toNat ++ timeBytes x.t ++
          List.replicate 26 0)))) ∧
    -- the response: up = t_b − t_a − corr_req, down = t_d − t_c − corr
    (timeForm 2 b = false ∨ fieldLE b 4 2 ≠ s.position.toNat → now (.timeResponse p b) (s.bump .tmuTimeDiscards)) ∧
    (timeForm 2 b = true → fieldLE b 4 2 = s.position.toNat → fieldLE b 1 1 = d.val →
      (s.fld .tmuDomainCfg 0 2 d.val ≠ 2 ∨ x.reqOpen = false ∨ fieldLE b 2 2 ≠ x.reqSeq → now (.timeResponse p b) (s.bump .tmuTimeDiscards)) ∧
      (s.fld .tmuDomainCfg 0 2 d.val = 2 → x.reqOpen = true → fieldLE b 2 2 = x.reqSeq →
        let t := put { x with reqOpen := false, reqTa := none }
        (x.reqTa = none → now (.timeResponse p b) (t.bump .tmuMeasDropped d.val)) ∧
        (∀ ta, x.reqTa = some ta →
          let up := stampAt b 0x18 - ta - (BitVec.ofNat 64 (fieldLE b 0x10 8)).toInt
          let down := ((x.t / 2 ^ 24 : Nat) : Int) - stampAt b 0x28 - ((BitVec.ofNat 64 (fieldLE b 8 8)).toInt + (s.rd .tmuCalRx p.val).toInt * 256)
          ((up + down) % 2 = 0 → now (.timeResponse p b) (t.publish d.val ((down - up) / 2) ((up + down) / 2))) ∧
          ((up + down) % 2 = 1 →
            let f0 := (Config.freeValue s.fresh).setWidth 1
            let f1 := (Config.freeValue (s.fresh + 1)).setWidth 1
            now (.timeResponse p b) (State.publish { t with fresh := s.fresh + 2 } d.val ((down - up) / 2 + f1.toNat) ((up + down) / 2 + f0.toNat)))))) ∧
    -- PTP: a Sync of the master is answered with a Delay_Req
    (s.ptpDomains m.domain.val = [] → exec (.ptpSync m) s = .next s) ∧
    (s.ptpDomains m.domain.val = [d.val] →
      ((∀ w, x.master = some w → w.getLast? ≠ some m.sender.toNat) → exec (.ptpSync m) s = .next s) ∧
      (∀ w, x.master = some w → w.getLast? = some m.sender.toNat →
        let asym := (s.rd .tmuCalAsym 6).toInt * 256
        let t1 := if m.twoStep then none else some (ptpTime m.origin + m.corr.toInt - asym)
        let t2 := ((x.t / 2 ^ 24 : Nat) : Int) - (s.rd .tmuCalRx 6).toInt * 256
        let t3 := ((x.t / 2 ^ 24 : Nat) : Int) + (s.rd .tmuCalTx 6).toInt * 256
        let t := put { x with ptpSeq := m.seqId.toNat, ptpT1 := t1, ptpT2 := some t2, ptpT3 := some t3, ptpT4 := none, ptpCorr := m.corr.toInt - asym }
        (x.ptpT2 = none → exec (.ptpSync m) s = .next (t.emit (.ptp 1 m.seqId.toNat asym))) ∧
        (x.ptpT2 ≠ none → exec (.ptpSync m) s = .next
          ({ t with regs := (s.bump .tmuMeasDropped d.val).regs }.emit (.ptp 1 m.seqId.toNat asym))))) ∧
    -- t1 of a Follow_Up, t4 of a Delay_Resp; the last of the four publishes
    (s.ptpDomains m.domain.val = [d.val] →
      (∀ t2, x.ptpT2 = some t2 → x.ptpT1 = none → x.ptpSeq = q.toNat →
        exec (.ptpFollowUp m.domain q at_ corr) s =
          .next (((put { x with ptpT1 := some (ptpTime at_ + x.ptpCorr + corr.toInt) }).ptpGo d.val).keeping s s.brx)) ∧
      (x.ptpT2 = none ∨ x.ptpT1 ≠ none ∨ x.ptpSeq ≠ q.toNat → exec (.ptpFollowUp m.domain q at_ corr) s = .next s) ∧
      (∀ t3, x.ptpT3 = some t3 → x.ptpT4 = none → x.ptpSeq = q.toNat →
        exec (.ptpDelayResp m.domain q at_ corr) s = .next (((put { x with ptpT4 := some (ptpTime at_ - corr.toInt) }).ptpGo d.val).keeping s s.brx)) ∧
      (x.ptpT3 = none ∨ x.ptpT4 ≠ none ∨ x.ptpSeq ≠ q.toNat → exec (.ptpDelayResp m.domain q at_ corr) s = .next s)) ∧
    (∀ t1 t2 t3 t4, x.ptpT1 = some t1 → x.ptpT2 = some t2 → x.ptpT3 = some t3 → x.ptpT4 = some t4 → ((t2 - t1) + (t4 - t3)) % 2 = 0 →
      let delay := ((t2 - t1) + (t4 - t3)) / 2
      s.ptpGo d.val = (put { x with ptpT1 := none, ptpT2 := none, ptpT3 := none, ptpT4 := none }).publish d.val (t2 - t1 - delay) delay) ∧
    (x.ptpT1 = none ∨ x.ptpT2 = none ∨ x.ptpT3 = none ∨ x.ptpT4 = none → s.ptpGo d.val = s) ∧
    -- an Announce: the lower vector, or the master's new one, stands (log entry 33); what is not supported is counted
    (s.ptpDomains m.domain.val = [d.val] →
      (x.master = none → exec (.ptpAnnounce m.domain v) s = .next (put { x with master := some v })) ∧
      (∀ w, x.master = some w →
        (w.getLast? = v.getLast? ∨ vectorLe v w = true → exec (.ptpAnnounce m.domain v) s = .next (put { x with master := some v })) ∧
        (w.getLast? ≠ v.getLast? → vectorLe v w = false → exec (.ptpAnnounce m.domain v) s = .next s))) ∧
    now .ptpUnsupported (s.bump .tmuPtpDiscards)

/-- When a start or a reset begins and when it is ignored (R461, R465, R466, R474, R507 to R509), and what a cold start leaves. -/
def Obligations.StartsAndResets : Prop :=
  ∀ (s : State) (us : Nat) (asserted : Bool) (a b c : StrapSt) (unit : Fin 128) (mask : Byte),
    let pins := fun (i : Instr) (u : State) => exec i s = .next (s.afterPins u)
    let ignored := s.bump .pwrResetIgnored
    let p := s.pwr
    -- PWR_GOOD: a rise that holds 1 ms starts cold; the fifth within 10 s must hold 1 s
    (p.pwrGood = true ∨ us < 1000 → pins (.pwrGoodRise us) s) ∧
    (p.pwrGood = false → 1000 ≤ us →
      let recent := p.pgStarts.filter fun a => s.now < a + 10 ^ 10
      (recent.length < 4 → pins (.pwrGoodRise us)
        (State.coldStart { s with pwr := { p with pgLimited := false, pgStarts := recent ++ [s.now] } } true false)) ∧
      (4 ≤ recent.length → us < 10 ^ 6 → pins (.pwrGoodRise us) ({ s with pwr := { p with pgLimited := true } }.inputEvent)) ∧
      (4 ≤ recent.length → 10 ^ 6 ≤ us → pins (.pwrGoodRise us)
        (State.coldStart { s with pwr := { p with pgLimited := true, pgStarts := recent ++ [s.now] } } true false).inputEvent)) ∧
    (p.pwrGood = false → pins .pwrGoodFall s) ∧
    (p.pwrGood = true → ∃ t : State, pins .pwrGoodFall t ∧ t.pwr.pwrGood = false ∧ t.jobs = [] ∧ t.mem = State.reset.mem ∧ t.ev.queue = [] ∧
      t.fuse = s.fuse) ∧
    -- CHIP_RST_N and PWR.RESET.cold: ignored and counted during a cold start
    (us < 10 ∨ p.pwrGood = false → pins (.chipRstN us) s) ∧
    (10 ≤ us → p.pwrGood = true → p.start = .cold → pins (.chipRstN us) (s.evCount 1 .pwrResetIgnored 0 0 [])) ∧
    (10 ≤ us → us ≤ 10 ^ 7 → p.pwrGood = true → p.start ≠ .cold → pins (.chipRstN us) (s.coldStart false false)) ∧
    (10 ^ 7 < us → p.pwrGood = true → p.start ≠ .cold → let t := s.coldStart false false
      pins (.chipRstN us) (State.inputEvent { t with pwr := { t.pwr with chipStuck := true } })) ∧
    (p.pwrGood = true → p.brownout = false → p.start = .cold → pins .pwrResetCold ignored) ∧
    (p.pwrGood = true → p.brownout = false → p.start ≠ .cold → pins .pwrResetCold (s.coldStart false false)) ∧
    -- WARM_RST_N and PWR.RESET.warm: a warm start follows another, but no cold one
    (p.pwrGood = true → p.brownout = false →
      (p.released = true → p.startHalted = false → p.start ≠ .cold → pins .pwrResetWarm s.warmStart) ∧
      (p.released = false ∨ p.startHalted = true ∨ p.start = .cold → pins .pwrResetWarm ignored) ∧
      (us < 10 ∨ p.warmMasked = true → pins (.warmRstN us) s) ∧
      (10 ≤ us → us ≤ 10 ^ 6 → p.warmMasked = false →
        let soon := ∃ a, p.lastWarmAt = some a ∧ s.now < a + 10 ^ 9
        (¬ soon → p.released = true → p.startHalted = false → p.start ≠ .cold → pins (.warmRstN us) s.warmStart) ∧
        (soon ∨ p.released = false ∨ p.startHalted = true ∨ p.start = .cold → pins (.warmRstN us) (s.evCount 1 .pwrResetIgnored 0 0 []))) ∧
      -- partial resets: none during a start
      (p.start ≠ .none ∨ p.released = false → pins .pwrResetPartition ignored ∧ pins (.pwrResetCluster unit) ignored ∧
        (mask ≠ 0 → pins (.pwrResetCore mask) ignored)) ∧
      (p.start = .none → p.released = true →
        (let t := s.haltNotice.fence.restart
         pins .pwrResetPartition (t.jobs.vals.foldl State.leaveJob t)) ∧
        (unit.val < 16 ∨ 53 < unit.val ∨ unit.val = 32 ∨ unit.val = 33 → pins (.pwrResetCluster unit) s) ∧
        -- a slice: a step whose update was running fails link integrity
        (∀ k, k < 16 → unit.val = 16 + k →
          ((s.slice k).run = none → (s.slice k).todo = [] → pins (.pwrResetCluster unit)
            { s with upd.slices := Tbl.erase s.upd.slices k }) ∧
          (∀ d, (s.slice k).run ≠ none → s.upd.run = some d → pins (.pwrResetCluster unit)
            (State.modStep { s with upd.slices := Tbl.erase s.upd.slices k } d.job d.step fun o => { o with linkFail := true }))) ∧
        -- a spoke or a torus port: disabled, then trained again
        (∀ q, q < 15 → q ≠ 8 → unit.val = (if q < 8 then 34 + q else 33 + q) ∨ (9 ≤ q ∧ unit.val = 39 + q) →
          ((s.port q).up = false → pins (.pwrResetCluster unit) ((s.portStop q .disabled).trainStart q false)) ∧
          ((s.port q).up = true → pins (.pwrResetCluster unit) (((s.failLinks q).leaveActive q .disabled).trainStart q false))) ∧
        pins (.pwrResetCore 0) s ∧
        (4 ≤ ((List.range 8).filter fun c => s.usable (56 + c) && !mask.getLsbD c).length → pins (.pwrResetCore mask) s) ∧
        (mask ≠ 0 → ((List.range 8).filter fun c => s.usable (56 + c) && !mask.getLsbD c).length < 4 → pins (.pwrResetCore mask) s.trayHalt))) ∧
    exec .warmRstMaskEnd s = .next (s.afterPins { s with pwr := { p with warmMasked := false } }) ∧
    -- the start watchdog: three failed starts in a row hold the control complex in reset
    (p.start = .none ∨ p.released = false → pins .startWatchdogExpiry s) ∧
    (p.start ≠ .none → p.released = true →
      let t := (s.bump .pwrStartFails).evInt 1 .pwrIntStatus 1 0 0 []
      (p.failsInRow < 2 → pins .startWatchdogExpiry
        ((State.coldStart { t with pwr := { p with failsInRow := p.failsInRow + 1 } } false false).raise .pwrIntStatus 1)) ∧
      (2 ≤ p.failsInRow → pins .startWatchdogExpiry
        { t with pwr := { p with failsInRow := p.failsInRow + 1, startHalted := true, released := false, start := .none, phase := 8 } })) ∧
    -- straps: three samples that agree, and a change afterwards that is recorded once
    (p.start ≠ .cold ∨ 2 < p.phase.val → pins (.strapSample a b c) s) ∧
    (p.start = .cold → p.phase.val ≤ 2 →
      (a = b → b = c → ∃ t : State, t.pwr.strapsAt = a ∧ t.pwr.strapUnstable = p.strapUnstable ∧ t.tor.position = (if a.spare then none else some a.id) ∧
        t.pair.role = (if a.side then Role.standby else Role.active) ∧ t.pwr.phase = 2 ∧ pins (.strapSample a b c) (t.trainStart 8 (!t.pwr.calValid))) ∧
      (¬ (a = b ∧ b = c) → ∃ t : State, t.pwr.strapsAt = p.strapsAt ∧ t.pwr.strapUnstable = true ∧ t.pwr.phase = 2 ∧
        pins (.strapSample a b c) (t.trainStart 8 (!t.pwr.calValid)))) ∧
    (p.strapChanged = true ∨ p.pwrGood = false → pins .strapChange s) ∧
    (p.strapChanged = false → p.pwrGood = true → pins .strapChange ({ s with pwr := { p with strapChanged := true } }.inputEvent)) ∧
    -- PERST_N: while it is asserted the link is down and the host's side is reset
    pins (.perstN false) s ∧ (asserted = true → ∃ t : State, pins (.perstN asserted) t ∧ t.host.linkRate = 0 ∧ t.host.linkWidth = 0 ∧
      t.host.busMaster = false ∧ t.host.slots = [] ∧ t.host.device = 0 ∧ t.jobs = s.jobs ∧ t.mem = s.mem ∧ t.pwr = p) ∧
    -- what a cold start leaves
    (∀ lost fell, let t := s.coldStart lost fell
      t.pwr.start = .cold ∧ t.pwr.phase = 1 ∧ t.pwr.startedAt = s.now ∧ t.pwr.released = false ∧ t.pwr.startDone = false ∧
        t.pwr.domOn = fixedDomains ∧ t.pwr.startCount = p.startCount + 1 ∧ t.pwr.warmFellBack = fell ∧ t.pwr.strapsAt = p.strapsAt ∧
        t.pwr.tripped = false ∧ t.pwr.brownout = false ∧ t.ev.cycles = min (s.ev.cycles + 1) 0xFFFFFFFF ∧ t.jobs = [] ∧ t.mem = State.reset.mem ∧
        t.acc = State.reset.acc ∧ t.upd = State.reset.upd ∧ t.stm = State.reset.stm ∧ t.asy = State.reset.asy ∧ t.tmu = State.reset.tmu ∧
        t.pair = PairSt.init p.strapsAt.side ∧ t.fuse = s.fuse ∧ t.sec.bank0 = s.sec.bank0 ∧ t.sec.bank1 = s.sec.bank1 ∧
        t.sec.nextIndex = s.sec.nextIndex ∧ t.sec.reservedEnd = s.sec.reservedEnd ∧ t.sec.resv0 = s.sec.resv0 ∧ t.sec.resv1 = s.sec.resv1 ∧ t.brx = s.brx ∧ t.outbox = s.outbox ∧
        ∀ r ∉ Reg.ofBrx, r ≠ .pwrStartFails → r ≠ .pwrResetIgnored → ∀ o, o < 65536 → t.rd r o = t.resetReg r o)

/-- The end of a start (R462 to R464, R468, R469, R473), brownout and temperature (R508, R512), power domains (R460), calibration (R471), and
the root-of-trust core: recovery, the rollback fuses, reservations and signatures (R444, R446, R449, R450, R455, R470). -/
def Obligations.BringUpAndPower : Prop :=
  ∀ (s : State) (role : Option (Fin 5)) (codes : List Nat) (k : Fin 16) (req : W64) (tj : Int) (hbm ok : Bool),
    let pins := fun (i : Instr) (u : State) => exec i s = .next (s.afterPins u)
    let p := s.pwr
    let partner := role.map fun r => Role.ofCode r.val
    let setPwr := fun (q : PwrSt) => { s with pwr := q }
    -- BIST
    (p.start ≠ .cold ∨ 2 < p.phase.val → pins (.bistDone codes) s) ∧
    (p.start = .cold → p.phase.val ≤ 2 → s.fuse.unitBad = 0 → (∀ u, u < 72 → codes.getD u 0 = 0) →
      pins (.bistDone codes) (setPwr { p with bistCode := List.replicate 72 0, bistGood := BitVec.allOnes 72, domOn := BitVec.allOnes 64, phase := 3 }).bootGo) ∧
    -- stacks train
    (p.start = .none ∨ p.phase ≠ 4 → pins (.hbmTrainDone k .full) s ∧ pins (.hbmTrainDone k .slow) s ∧ pins (.hbmTrainDone k .failed) s) ∧
    (p.start ≠ .none → p.phase = 4 →
      let bit := BitVec.ofNat 16 (2 ^ k.val)
      let full := fun (t : State) => if p.start = .warm ∨ p.calValid = true then t
        else { t with pwr := { t.pwr with fullTrained := Tbl.set t.pwr.fullTrained (15 + k.val) 1 } }
      pins (.hbmTrainDone k .full) (full (setPwr { p with hbmTrained := p.hbmTrained ||| bit, hbmSlow := p.hbmSlow &&& ~~~bit })) ∧
      pins (.hbmTrainDone k .slow) (full ((setPwr { p with hbmTrained := p.hbmTrained ||| bit, hbmSlow := p.hbmSlow ||| bit }).evInt 1
        .pwrIntStatus 4 0 0 [k.val])) ∧
      (p.start = .warm → pins (.hbmTrainDone k .failed) s) ∧ (p.start ≠ .warm → pins (.hbmTrainDone k .failed) (s.stackFailed k.val))) ∧
    -- the start ends, or a warm start whose marker does not hold falls back to a cold one
    (p.start = .none ∨ p.phase ≠ 4 → pins (.startDone role) s) ∧
    (p.phase = 4 → p.start = .warm →
      (p.marker = some (p.startCount, p.startCount) → p.hbmSupplyHeld = true → p.hbmTrained = BitVec.allOnes 16 →
        pins (.startDone role) ((setPwr { p with marker := none }).startEnd partner)) ∧
      (p.marker ≠ some (p.startCount, p.startCount) ∨ p.hbmSupplyHeld = false ∨ p.hbmTrained ≠ BitVec.allOnes 16 →
        pins (.startDone role) ((s.coldStart false true).evReason 1 .pwr 0x0B 0 0 []))) ∧
    (p.phase = 4 → p.start = .cold → pins (.startDone role) ((setPwr { p with marker := none }).startEnd partner)) ∧
    (let t := s.startEnd partner
     (s.essentialMissing = true ∨ p.strapUnstable = true ∨ partner = some .active ∨ partner = some .sole → t.pair.role = .withdrawn ∨ s.pair.fenced = true) ∧
     (s.essentialMissing = false → p.strapUnstable = false → partner ≠ some .active → partner ≠ some .sole →
        t.pair.role = s.pair.role ∧ t.pwr.startDone = true ∧ t.pwr.start = .none ∧ t.pwr.phase = 6 ∧ t.pwr.failsInRow = 0 ∧
        t.pwr.lastWarm = decide (p.start = .warm) ∧ t.pwr.startUs = (s.now - p.startedAt) / 1000 ∧ t.pwr.essentialLost = false)) ∧
    -- brownout: the side halts once, and the HBM rails are remembered
    (p.pwrGood = false ∨ p.brownout = true → pins (.brownout hbm) s) ∧
    (p.pwrGood = true → p.brownout = false → ∃ t : State, t.pwr = { p with brownout := true, hbmSupplyHeld := p.hbmSupplyHeld && !hbm } ∧
      t.pair = s.pair ∧ t.jobs = s.jobs ∧ pins (.brownout hbm) t.withdraw) ∧
    -- temperature
    (p.pwrGood = false → pins (.thermalSample tj) s) ∧
    (p.pwrGood = true →
      let warn := max 80 (min 104 (s.fld .pwrTherm 8 8 : Int))
      let u := fun (warned throttled : Bool) => setPwr { p with tj := tj, tjPeak := max p.tjPeak tj, warned := warned, throttled := throttled }
      let note := fun (t : State) => t.evReason 1 .pwr 0x0E 0 0 [(BitVec.ofInt 64 tj).toNat]
      (p.warned = false → tj < warn → tj < 105 → pins (.thermalSample tj) (u false p.throttled)) ∧
      (p.warned = false → warn ≤ tj → tj < 105 → pins (.thermalSample tj) (note (u true p.throttled))) ∧
      (p.warned = true → tj ≤ warn - 5 → pins (.thermalSample tj) (u false p.throttled)) ∧
      (p.warned = true → warn - 5 < tj → tj < 105 → pins (.thermalSample tj) (u true p.throttled)) ∧
      (p.warned = true → p.throttled = false → 105 ≤ tj → tj < 115 → pins (.thermalSample tj) (note (u true true))) ∧
      (p.warned = true → p.throttled = true → p.tripped = false → 115 ≤ tj → pins (.thermalSample tj)
        ((State.evReason (setPwr { p with tj := tj, tjPeak := max p.tjPeak tj, tripped := true }) 4 .pwr 0x0E 0 0 [(BitVec.ofInt 64 tj).toNat]).trayHalt))) ∧
    (p.tj < 100 → pins .throttleClear (setPwr { p with throttled := false })) ∧ (100 ≤ p.tj → pins .throttleClear s) ∧
    -- domains: a fixed one stays on; one in use or depended on is refused; PWR.DOMAIN_REQ reads the domains' state
    (p.pwrGood = false → pins (.domainReqWrite req) s) ∧
    (p.pwrGood = true → ∃ t : State, pins (.domainReqWrite req) t ∧ t.rd .pwrDomainReqLo = t.pwr.domOn.setWidth 32 ∧
      t.rd .pwrDomainReqHi = (t.pwr.domOn >>> 32).setWidth 32) ∧
    (∀ d, d < 64 → let inUse := s.domUsed d || (List.range 64).any (fun e => p.domOn.getLsbD e && (domDeps e).contains d)
      (inUse = true → s.domOff d = (s.bump .pwrDomainRefused).raise .pwrIntStatus 2) ∧
      (inUse = false → (s.domOff d).pwr.domOn = p.domOn &&& ~~~(1#64 <<< d)) ∧
      ((∃ e ∈ domDeps d, p.domOn.getLsbD e = false) → s.domOnGo d = (s.bump .pwrDomainRefused).raise .pwrIntStatus 2) ∧
      ((∀ e ∈ domDeps d, p.domOn.getLsbD e = true) → s.domOnGo d = setPwr { p with domOn := p.domOn ||| (1#64 <<< d) })) ∧
    -- calibration: once for each start
    (p.calSaved = true → pins .calSave (s.bump .pwrResetIgnored)) ∧
    (p.calSaved = false → ∃ (t : State) (r : CalRec), pins .calSave t ∧ t.pwr.newest = some r ∧ r.serial = s.fuse.serial ∧ r.physical = p.strapsAt.id ∧
      r.seqNo = (p.newest.map CalRec.seqNo).getD 0 + 1 ∧ r.asym = (List.range 6).map (fun i => s.rd .tmuCalAsym i) ∧ t.pwr.calSaved = true) ∧
    -- fuses: without a window of the page the authorisation is refused
    (s.window? (s.fld .pwrFuseAuth 16 8) = none →
      pins (.fuseGo ok) (((setPwr { p with fuseResult := 2 }).bump .pwrFuseFailures).raise .pwrIntStatus 5)) ∧
    (∀ x, s.window? (s.fld .pwrFuseAuth 16 8) = some x → x.kind ≠ 1 ∨ s.pageFlag (s.fld .pwrFuseAuth 16 8) (s.fld .pwrFuseAuth 0 12) ≠ 1 →
      pins (.fuseGo ok) (((setPwr { p with fuseResult := 2 }).bump .pwrFuseFailures).raise .pwrIntStatus 5)) ∧
    (∀ x, s.window? (s.fld .pwrFuseAuth 16 8) = some x → x.kind = 1 →
      s.pageFlag (s.fld .pwrFuseAuth 16 8) (s.fld .pwrFuseAuth 0 12) = 1 →
      let b := s.winBytes x (s.fld .pwrFuseAuth 0 12 * 65536) (80 + sigBlockBytes 2)
      let b := b.take (80 + sigBlockBytes (if fieldLE b 82 1 = 1 then 1 else 2))
      let t := { s with host.windows := Tbl.set s.host.windows (s.fld .pwrFuseAuth 16 8) { x with device := x.device.filter (· != s.fld .pwrFuseAuth 0 12) } }
      s.fuseOk b = true →
        let u := (State.raise { t with sec.clearSeq := s.sec.clearSeq + 1 } .secIntStatus 4).fuseBlow b ok
        pins (.fuseGo ok) ((if ok then { u with pwr := { u.pwr with fuseResult := 1 } }
          else State.bump { u with pwr := { u.pwr with fuseResult := 3 } } .pwrFuseFailures).raise .pwrIntStatus 5)) ∧
    -- the root-of-trust core
    pins .svnCommit { s with fuse := { s.fuse with svnMin := max s.fuse.svnMin (min s.sec.svn 64) } } ∧
    (s.sec.recovery = false → pins .recoveryGo s) ∧
    (s.sec.recovery = true →
      let n := fwBody s.sec.recoveryBuf
      let b := s.sec.recoveryBuf.take (n + sigBlockBytes 1 + if s.ownerValid then sigBlockBytes 2 else 0)
      (s.fwCheck b ≠ 0 → pins .recoveryGo s.sigRefused) ∧
      (s.fwCheck b = 0 → pins .recoveryGo (State.bootGo { s with sec := { s.sec with
        bank0 := ⟨b, true⟩, recovery := false, recoveryBuf := [], staged := s.sec.bootBank } }))) ∧
    -- a reservation record goes to the sector in use; where that is full the other is erased first, if the full one holds a higher valid end
    (s.sec.reserving = false → pins (.reservationDone ok) s) ∧
    (s.sec.reserving = true → (∀ q ∈ s.sec.resv0 ++ s.sec.resv1, q.crcOk = true → q.blockEnd ≤ s.sec.reservedEnd) →
      let x := s.sec
      let cur := if x.resvAt then x.resv1 else x.resv0
      let other := if x.resvAt then x.resv0 else x.resv1
      let r : ResvRec := ⟨x.resvSeq, x.reservedEnd + 1024, ok⟩
      let put := fun (second : Bool) (l : List ResvRec) =>
        let y := if second then { x with resv1 := l, resvAt := true } else { x with resv0 := l, resvAt := false }
        { s with sec := if ok then { y with reservedEnd := x.reservedEnd + 1024, reserving := false } else y }
      (∀ q ∈ cur ++ other, q.seq < r.seq) ∧
      (cur.length < Config.resvRecords → pins (.reservationDone ok) (put x.resvAt (cur ++ [r]))) ∧
      (Config.resvRecords ≤ cur.length → (other = [] ∨ ∃ q ∈ cur, q.crcOk = true ∧ ∀ z ∈ other, z.crcOk = true → z.blockEnd < q.blockEnd) →
        pins (.reservationDone ok) (put (!x.resvAt) [r]))) ∧
    -- after a whole-chip reset the next index is the highest end among the records that pass their CRC
    (let n := s.boot.1.sec.nextIndex
     s.boot.1.sec.reservedEnd = n ∧ (∀ q ∈ s.sec.resv0 ++ s.sec.resv1, q.crcOk = true → q.blockEnd ≤ n) ∧
       (n = 0 ∨ ∃ q ∈ s.sec.resv0 ++ s.sec.resv1, q.crcOk = true ∧ q.blockEnd = n)) ∧
    (s.sec.mailbox = [] ∨ s.sec.reserving = true → pins .signatureDone s) ∧
    (∀ m rest, s.sec.mailbox = .manifest m :: rest → s.sec.reserving = false →
      let t := { s with sec := { s.sec with mailbox := rest, nextIndex := s.sec.nextIndex + 1 } }
      (s.sec.nextIndex + 2 < 2 ^ 40 → pins .signatureDone
        ((t.bump .secSignatures).manifestSigned m (deviceBlock 0x70 (shake256 m) s.sec.nextIndex)).rotGo) ∧
      (2 ^ 40 ≤ s.sec.nextIndex + 2 → pins .signatureDone
        ((State.raise { s with sec := { s.sec with mailbox := rest } } .secIntStatus 0).manifestRefused m).rotGo)) ∧
    (∀ cmd rec_ rest r, s.sec.mailbox = .attest cmd rec_ :: rest → s.sec.reserving = false → s.sec.nextIndex + 2 < 2 ^ 40 → s.run? cmd = some r →
      let t := State.bump { s with sec := { s.sec with mailbox := rest, nextIndex := s.sec.nextIndex + 1 } } .secSignatures
      pins .signatureDone ((t.wrefPut r.params 32 (rec_ ++ deviceBlock 0x80 (shake256 rec_) s.sec.nextIndex)).finish cmd 0).rotGo)

/-- Records become permanent (R482 to R485): the open record closes into the queue, the oldest queued one is programmed into a ring of 65,536
and raises its interrupts, a checkpoint runs 60,000 ms ahead, an erase ends with the record of code 0x30; and what a traced core adds to its
FIFO of 256 records (R492). -/
def Obligations.RecorderProgramsRecords : Prop :=
  ∀ (s : State) (core : Fin 8) (trap : Bool) (count : W16) (value : W64),
    let now := fun (i : Instr) (u : State) => exec i s = .next (u.keeping s s.brx)
    (s.ev.openRec = none → exec .repeatWindowExpiry s = .next s) ∧
    (∀ r t0, s.ev.openRec = some (r, t0) → exec .repeatWindowExpiry s =
      .next { s with ev := { s.ev with openRec := none, lastClosed := some r, queue := s.ev.queue ++ [r] } }) ∧
    (s.ev.queue = [] ∨ s.sec.reserving = true ∨ s.ev.clearing = true → exec .recordProgramDone s = .next s) ∧
    (∀ r rest, s.ev.queue = r :: rest → s.sec.reserving = false → s.ev.clearing = false → ∃ t, exec .recordProgramDone s = .next t ∧
      t.ev.queue = rest ∧ t.ev.nextSeq = s.ev.nextSeq ∧ t.ev.openRec = s.ev.openRec ∧
      (s.ev.nor.length < 65536 → t.ev.nor = s.ev.nor ++ [r] ∧ t.rd .evrOverwritten = s.rd .evrOverwritten) ∧
      (65536 ≤ s.ev.nor.length → t.ev.nor = s.ev.nor.drop 1 ++ [r] ∧ (t.rd .evrIntStatus).getLsbD 1 = true) ∧
      (∀ q, t.ev.nor.head? = some q → t.ev.headSeq = q.seqNo) ∧
      (1 ≤ r.sev → (t.rd .evrIntStatus).getLsbD 0 = true) ∧
      (s.fld .evrCtrl 0 1 = 1 → s.fld .evrCtrl 1 3 ≤ r.sev → s.side.i3cEvents = true → s.side.i3cAddr ≠ none → .ibi r.seqNo ∈ t.outbox) ∧
      t.jobs = s.jobs ∧ t.mem = s.mem ∧ t.acc = s.acc) ∧
    exec .opMsCheckpoint s = .next { s with ev := { s.ev with checkpoint := max s.ev.checkpoint (s.ev.opNs / 10 ^ 6 + 60000) } } ∧
    (s.ev.clearing = false → exec .evrEraseDone s = .next s) ∧
    (s.ev.clearing = true →
      let time := if s.selDomain.locked then some (timeBytes s.outTime) else none
      let r : EvRec := ⟨0, false, 0, s.ev.opNs / 10 ^ 6, s.ev.cycles, 0xF, 0xF30, 0, 0, 0, time, none, sliceBytes (leBytes 4 s.sec.clearSeq) 0 64⟩
      now .evrEraseDone (State.raise { s with ev := { s.ev with clearing := false, queue := r :: s.ev.queue } } .evrIntStatus 3)) ∧
    -- the trace
    (s.ev.tracing = false ∨ s.ev.traceCores.getLsbD core.val = false → exec (.traceEvent core trap count value) s = .next s) ∧
    (s.ev.tracing = true → s.ev.traceCores.getLsbD core.val = true →
      let q := Tbl.get s.ev.traceFifo [] core.val
      let n := Tbl.get s.ev.traceSince 0 core.val
      let rec_ := leBytes 1 (if trap then 2 else 1) ++ leBytes 1 core.val ++ leBytes 2 count.toNat ++ leBytes 8 value.toNat ++ List.replicate 4 0
      (q.length < 256 → n < 4095 → exec (.traceEvent core trap count value) s =
        .next { s with ev := { s.ev with traceFifo := Tbl.set s.ev.traceFifo core.val (q ++ [rec_]), traceSince := Tbl.set s.ev.traceSince core.val (n + 1) } }) ∧
      (256 ≤ q.length → n < 4096 → now (.traceEvent core trap count value)
        ((State.bump { s with ev := { s.ev with traceLoss := Tbl.set s.ev.traceLoss core.val (Tbl.get s.ev.traceLoss 0 core.val + 1) } }
          .dbgTraceDropped).raise .dbgIntStatus 0)) ∧
      -- every 4,096 records a sync with the full PC
      (q.length < 255 → n = 4095 →
        let pc := if trap then value &&& 0x00FFFFFFFFFFFFFF else value
        let sync := leBytes 1 3 ++ leBytes 1 core.val ++ leBytes 2 0 ++ leBytes 8 pc.toNat ++ List.replicate 4 0
        ∃ t, exec (.traceEvent core trap count value) s = .next t ∧ Tbl.get t.ev.traceFifo [] core.val = q ++ [rec_, sync] ∧
          Tbl.get t.ev.traceSince 0 core.val = 1))

/-- The sideband drop and the I3C target (R367, R493 to R498): what a frame does, how this drop sends, waits, aborts and disables its driver,
and the address, offset and reads of I3C. What the command codes of I3C read is a free value (log entry 32). -/
def Obligations.SidebandAndI3c : Prop :=
  ∀ (s : State) (k : Fin 8) (b : List Byte) (src type : Byte) (drop : Fin 11) (off : W32) (addr : BitVec 7) (freed : Bool),
    let now := fun (i : Instr) (u : State) => exec i s = .next (u.keeping s s.brx)
    let pins := fun (i : Instr) (u : State) => exec i s = .next (s.afterPins u)
    let side := fun (x : SideSt) => { s with side := x }
    let partner : Byte := if s.sideB then 1 else 2
    let discard := fun (src : Byte) (payload : List Byte) =>
      let t := ((s.bump .sbbUnknown).raise .sbbIntStatus 1).detect 1 .sbb 0x33 0 0 (sliceBytes (src :: payload) 0 64)
      if 64 < payload.length then s.bump .sbbCrcErrors else if src = 8 then t.heard 2 true else t
    -- a drop that is heard or lost changes its bit, and the interrupt tells
    (∀ n on, n < 11 → let t := s.heard n on
      t.side.presence.getLsbD n = on ∧ (∀ m, m ≠ n → t.side.presence.getLsbD m = s.side.presence.getLsbD m) ∧
        (s.side.presence.getLsbD n = on → t = s) ∧ (s.side.presence.getLsbD n ≠ on → (t.rd .sbbIntStatus).getLsbD 0 = true)) ∧
    -- frames
    pins (.sbUnknownFrame src type true b) (s.bump .sbbCrcErrors) ∧
    ((type, src) ∉ ([(1, partner), (3, 8)] : List (Byte × Byte)) → (type ≠ 2 ∨ src.toNat < 0x10 ∨ 0x18 ≤ src.toNat) →
      pins (.sbUnknownFrame src type false b) (discard src b)) ∧
    -- a good frame of a type that its sender may send acts as such
    (∃ t, pins (.sbUnknownFrame 8 3 false b) t ∧ now (.bmcNotice b) t) ∧
    (∃ t, pins (.sbUnknownFrame (BitVec.ofNat 8 (16 + k.val)) 2 false b) t ∧ now (.presence k b) t) ∧
    (∃ t, pins (.sbUnknownFrame partner 1 false b) t ∧ pins (.sbHeartbeat b) t) ∧
    (b.length ≠ 4 → now (.presence k b) (discard (BitVec.ofNat 8 (16 + k.val)) b)) ∧
    (∀ x y z w, b = [x, y, z, w] → let t := (s.bump .sbbFramesRx).heard (3 + k.val) true
      now (.presence k b) { t with side := { t.side with siteFlags := Tbl.set s.side.siteFlags k.val w } }) ∧
    now (.presenceTimeout drop) (s.heard drop.val false) ∧
    (b.length ≠ 6 → now (.bmcNotice b) (discard 8 b)) ∧
    (b.length = 6 → now (.bmcNotice b) (((s.bump .sbbFramesRx).heard 2 true).detect 0 .sbb 0x33 0 0 (sliceBytes (8 :: b) 0 64))) ∧
    -- a heartbeat of another form is an unknown frame too (log entry 53)
    (let form := b.length = 12 ∧ fieldLE b 0 1 < 5 ∧ fieldLE b 1 1 < 2 ∧ zeroBytes b 2 2 = true
     (¬ form → pins (.sbHeartbeat b) (discard partner b)) ∧
     (form → let t := (s.bump .sbbFramesRx).heard (if s.sideB then 0 else 1) true
      (s.fld .pairCtrl 0 1 = 0 → pins (.sbHeartbeat b) t) ∧ (s.fld .pairCtrl 0 1 = 1 → pins (.sbHeartbeat b) (t.heartbeatApply false b)))) ∧
    -- sending: a fenced side and a disabled driver send nothing
    (s.fld .pairCtrl 0 1 = 0 ∨ s.pair.role = .withdrawn ∨ s.side.driverOff = true ∨ s.pair.fenced = true → exec .sbHeartbeatTx s = .next s) ∧
    (s.fld .pairCtrl 0 1 = 1 → s.pair.role ≠ .withdrawn → s.side.driverOff = false → s.pair.fenced = false →
      let payload := leBytes 1 s.pair.role.code ++ leBytes 1 (if s.pair.halting then 1 else 0) ++ [0, 0] ++ leBytes 8 (s.host.nextSeq - 1)
      now .sbHeartbeatTx ((State.sbFrame { s with side := { s.side with frame := some (1, payload, 0), waiting := false } }
        (if s.sideB then 2 else 1) 1 payload).bump .sbbFramesTx)) ∧
    (∀ src type payload, s.sbFrame src type payload = { s with outbox := s.outbox ++ [.sideband src type payload
      (crc16 (leBytes 1 src ++ leBytes 1 type ++ leBytes 1 payload.length ++ payload))] }) ∧
    -- lost arbitration, a read-back mismatch, which aborts the frame with 16 dominant bits and allows at most 3 more tries, and the retry
    (s.side.frame = none ∨ s.side.waiting = true → exec .sbArbLoss s = .next s ∧ exec .sbReadbackMismatch s = .next s) ∧
    (s.side.frame = none ∨ s.side.waiting = false ∨ s.side.driverOff = true → exec .sbRetry s = .next s) ∧
    (∀ ty p n, s.side.frame = some (ty, p, n) →
      (s.side.waiting = false → now .sbArbLoss ((side { s.side with waiting := true }).bump .sbbArbLost) ∧
        (let t := { s.bump .sbbAborts with outbox := s.outbox ++ [OutMsg.sidebandAbort (if s.sideB then 2 else 1)] }
         (n < 3 → now .sbReadbackMismatch { t with side := { s.side with frame := some (ty, p, n + 1), waiting := true } }) ∧
         (3 ≤ n → now .sbReadbackMismatch { t with side := { s.side with frame := none, waiting := false } }))) ∧
      (s.side.waiting = true → s.side.driverOff = false →
        now .sbRetry ((side { s.side with waiting := false }).sbFrame (if s.sideB then 2 else 1) ty p))) ∧
    (s.side.driverOff = true → now .sbStuck s) ∧
    (s.side.driverOff = false → now .sbStuck (((side { s.side with driverOff := true }).bump .sbbStuck).raise .sbbIntStatus 2)) ∧
    (s.side.driverOff = false → exec (.sbStuckRecheck freed) s = .next s) ∧
    (s.side.driverOff = true → now (.sbStuckRecheck freed)
      ((side { s.side with driverOff := !freed }).evReason 1 .sbb 0xFFFF 0 0 [if s.sideB then 2 else 1])) ∧
    -- I3C
    exec .rstdaa s = .next (side { s.side with i3cAddr := none }) ∧
    (s.side.i3cAddr = none → exec (.entdaa addr) s = .next (side { s.side with i3cAddr := some addr }) ∧
      exec (.setdasa addr) s = .next (side { s.side with i3cAddr := some addr }) ∧ exec .enec s = .next s ∧ exec .disec s = .next s ∧
      exec .getpid s = .next s ∧ exec .getbcr s = .next s ∧ exec .getdcr s = .next s ∧ exec .getstatus s = .next s ∧
      exec (.i3cPrivateWrite off) s = .next s ∧ ∀ n, exec (.i3cPrivateRead n) s = .next s) ∧
    (s.side.i3cAddr ≠ none → exec (.entdaa addr) s = .next s ∧ exec (.setdasa addr) s = .next s ∧
      exec .enec s = .next (side { s.side with i3cEvents := true }) ∧ exec .disec s = .next (side { s.side with i3cEvents := false }) ∧
      exec (.i3cPrivateWrite off) s = .next (side { s.side with i3cOffset := off }) ∧
      -- private reads: CAP, PWR and EVR answer, every other offset reads 0, and the offset moves on
      (∀ n, s.side.i3cOffset.toNat + 4 * n ≤ 2 ^ 32 → (∀ i, i < n → (s.side.i3cOffset.toNat + 4 * i) / 65536 ∉ ([0, 15, 17] : List Nat)) →
        exec (.i3cPrivateRead n) s = .next { s with side := { s.side with i3cOffset := s.side.i3cOffset + BitVec.ofNat 32 (4 * n) }
                                                    outbox := s.outbox ++ [.i3c (List.replicate (4 * n) 0)] }) ∧
      (∀ r o i, s.side.i3cOffset.toNat / 65536 ∈ ([0, 15, 17] : List Nat) → s.regAt s.side.i3cOffset.toNat = some (r, o, i) →
        let t := (s.regRead r o i).2
        now (.i3cPrivateRead 1) { t with side := { t.side with i3cOffset := s.side.i3cOffset + 4 }
                                         outbox := t.outbox ++ [.i3c (leBytes 4 (s.regRead r o i).1.toNat)] }) ∧
      (∀ i n, (i, n) ∈ ([(.getpid, 6), (.getbcr, 1), (.getdcr, 1), (.getstatus, 2)] : List (Instr × Nat)) →
        exec i s = .next { s with fresh := s.fresh + 1, outbox := s.outbox ++ [.i3c (leBytes n ((Config.freeValue s.fresh).setWidth (8 * n)).toNat)] }))

/-- Withheld gradient credits (R35, R49; log entry 42). A slice whose staging SRAM is full withholds them from the spokes whose contributions are
not next in order there, counts each interval that begins, and gives them back once it has room; a spoke whose next contributions go to a full
hold area has none until the area is released. -/
def Obligations.GradientCreditsWithheld : Prop :=
  ∀ (s : State) (first : Nat),
    let slice := sliceOf first
    let t := s.stagingCheck first
    let u := s.gradCredits
    (s.stagingUsed slice ≤ 2 ^ 23 → t = s) ∧
    (2 ^ 23 < s.stagingUsed slice → (∀ k, k < 8 → (Tbl.get t.acc.withheld 0 slice).getLsbD k =
        ((Tbl.get s.acc.withheld 0 slice).getLsbD k || !(s.slotTurns slice).contains k)) ∧
      (t.rd .updOrderStall slice).toNat = min ((s.rd .updOrderStall slice).toNat +
        ((List.range 8).filter fun k => !(s.slotTurns slice).contains k && !(Tbl.get s.acc.withheld 0 slice).getLsbD k).length) 0xFFFFFFFF) ∧
    u = { s with acc := { s.acc with withheld := s.acc.withheld.filter fun e => 2 ^ 23 < s.stagingUsed e.1 }, ports := u.ports } ∧
    (∀ k, k < 8 → 1 < (s.port k).withhold.length → (u.port k).withhold.getD 1 false = u.gradHeld k) ∧
    (∀ k j, s.job? j.id = some j → j.holdFull = true → j.sites.contains k = true → (j.hold.any fun e => e.1 == k) = true → u.gradHeld k = true) ∧
    (∀ k e, e ∈ s.acc.withheld → 2 ^ 23 < s.stagingUsed e.1 → e.2.getLsbD k = true → u.gradHeld k = true)
end

