-- ==== Sys2Proof/Laws/Mem.lean ====
section
/-! SUPPORT. Memory: a read after a write, and that every operation keeps the canonical form. -/
namespace Sys2Proof.Machine

/-- The canonical form, as a property of the list: rising addresses, no byte that an unlisted address reads as. -/
def Memory.canon (m : Memory) : Prop := m.Pairwise (fun p q => p.1 < q.1) ∧ ∀ p ∈ m, p.2 ≠ memDefault

theorem Memory.wf_iff (m : Memory) : Memory.wf m = true ↔ m.canon := by
  induction m with
  | nil => simp [Memory.wf, Memory.canon]
  | cons p m ih =>
    obtain ⟨a, b⟩ := p
    cases m with
    | nil => simp [Memory.wf, Memory.canon]
    | cons q m =>
      obtain ⟨a', b'⟩ := q
      simp only [Memory.wf, Bool.and_eq_true, ih, bne_iff_ne, decide_eq_true_eq]
      constructor
      · rintro ⟨⟨h1, h2⟩, h3, h4⟩
        refine ⟨List.pairwise_cons.2 ⟨?_, h3⟩, ?_⟩
        · intro p hp
          rcases List.mem_cons.1 hp with rfl | hp
          · exact h2
          · exact Nat.lt_trans h2 ((List.pairwise_cons.1 h3).1 p hp)
        · intro p hp
          rcases List.mem_cons.1 hp with rfl | hp
          · exact h1
          · exact h4 p hp
      · rintro ⟨h1, h2⟩
        have h3 := List.pairwise_cons.1 h1
        exact ⟨⟨h2 (a, b) (by simp), h3.1 (a', b') (by simp)⟩, h3.2, fun p hp => h2 p (List.mem_cons_of_mem _ hp)⟩

theorem Memory.canon_nil : Memory.canon [] := ⟨List.Pairwise.nil, by simp⟩

theorem Memory.canon_filter {m : Memory} (f : Host.Cell → Bool) (h : m.canon) : Memory.canon (m.filter f) :=
  ⟨List.Pairwise.filter _ h.1, fun p hp => h.2 p (List.mem_filter.1 hp).1⟩

theorem memErase_canon {m : Memory} (a : Nat) (h : m.canon) : (memErase m a).canon := Memory.canon_filter _ h

theorem memClear_canon {m : Memory} (a n : Nat) (h : m.canon) : (memClear m a n).canon := Memory.canon_filter _ h

theorem mem_memInsert {m : Memory} {a : Nat} {b : Byte} {p : Host.Cell} (h : p ∈ memInsert m a b) : p = (a, b) ∨ p ∈ m := by
  induction m with
  | nil => simpa [memInsert] using h
  | cons q m ih =>
    obtain ⟨a', b'⟩ := q
    simp only [memInsert] at h
    split at h
    · simpa using h
    · rcases List.mem_cons.1 h with h | h
      · exact .inr (by simp [h])
      · rcases ih h with h | h
        · exact .inl h
        · exact .inr (by simp [h])

theorem memInsert_canon {m : Memory} {a : Nat} {b : Byte} (h : m.canon) (ha : ∀ p ∈ m, p.1 ≠ a) (hb : b ≠ memDefault) :
    (memInsert m a b).canon := by
  refine ⟨?_, ?_⟩
  · induction m with
    | nil => simp [memInsert]
    | cons q m ih =>
      obtain ⟨a', b'⟩ := q
      have hq := List.pairwise_cons.1 h.1
      have hm : Memory.canon m := ⟨hq.2, fun p hp => h.2 p (List.mem_cons_of_mem _ hp)⟩
      simp only [memInsert]
      split
      · rename_i hlt
        refine List.pairwise_cons.2 ⟨?_, h.1⟩
        intro p hp
        rcases List.mem_cons.1 hp with rfl | hp
        · exact hlt
        · exact Nat.lt_trans hlt (hq.1 p hp)
      · rename_i hge
        have hne : a' ≠ a := ha (a', b') (by simp)
        refine List.pairwise_cons.2 ⟨?_, ih hm fun p hp => ha p (List.mem_cons_of_mem _ hp)⟩
        intro p hp
        rcases mem_memInsert hp with rfl | hp
        · exact Nat.lt_of_le_of_ne (Nat.le_of_not_lt hge) hne
        · exact hq.1 p hp
  · intro p hp
    rcases mem_memInsert hp with rfl | hp
    · exact hb
    · exact h.2 p hp

theorem memErase_ne (m : Memory) (a : Nat) : ∀ p ∈ memErase m a, p.1 ≠ a := by
  intro p hp
  simpa using (List.mem_filter.1 hp).2

/-- A write of one byte keeps the canonical form. -/
theorem memWrite_canon {m : Memory} (a : Nat) (b : Byte) (h : m.canon) : (memWrite m a b).canon := by
  unfold memWrite
  split
  · exact memErase_canon a h
  · rename_i hb
    exact memInsert_canon (memErase_canon a h) (memErase_ne m a) hb

/-- A write of a byte string keeps the canonical form. -/
theorem memWriteBytes_canon {m : Memory} (a : Nat) (l : List Byte) (h : m.canon) : (memWriteBytes m a l).canon := by
  induction l generalizing m a with
  | nil => exact h
  | cons b l ih => exact ih (a + 1) (memWrite_canon a b h)

theorem memWriteLE_canon {m : Memory} (a n v : Nat) (h : m.canon) : (memWriteLE m a n v).canon := memWriteBytes_canon a _ h

theorem memRead_erase_self (m : Memory) (a : Nat) : memRead (memErase m a) a = memDefault := by
  induction m with
  | nil => rfl
  | cons q m ih =>
    obtain ⟨a', b'⟩ := q
    unfold memErase at *
    by_cases h : a' = a
    · simp [h, ih]
    · simp [h, memRead, ih]

theorem memRead_erase_of_ne (m : Memory) {a c : Nat} (hc : c ≠ a) : memRead (memErase m a) c = memRead m c := by
  induction m with
  | nil => rfl
  | cons q m ih =>
    obtain ⟨a', b'⟩ := q
    unfold memErase at *
    by_cases h : a' = a
    · simp [h, memRead, ih, Ne.symm hc]
    · simp [h, memRead, ih]

theorem memRead_insert_self (m : Memory) (a : Nat) (b : Byte) (h : ∀ p ∈ m, p.1 ≠ a) : memRead (memInsert m a b) a = b := by
  induction m with
  | nil => simp [memInsert, memRead]
  | cons q m ih =>
    obtain ⟨a', b'⟩ := q
    have hq : a' ≠ a := h (a', b') (by simp)
    simp only [memInsert]
    split
    · simp [memRead]
    · simp [memRead, hq, ih fun p hp => h p (List.mem_cons_of_mem _ hp)]

theorem memRead_insert_of_ne (m : Memory) {a c : Nat} (b : Byte) (hc : c ≠ a) : memRead (memInsert m a b) c = memRead m c := by
  induction m with
  | nil => simp [memInsert, memRead, Ne.symm hc]
  | cons q m ih =>
    obtain ⟨a', b'⟩ := q
    simp only [memInsert]
    split
    · simp [memRead, Ne.symm hc]
    · simp [memRead, ih]

/-- A byte that was written is read. -/
@[simp] theorem memRead_write_self (m : Memory) (a : Nat) (b : Byte) : memRead (memWrite m a b) a = b := by
  unfold memWrite
  split
  · rename_i h
    rw [memRead_erase_self, h]
  · exact memRead_insert_self _ _ _ (memErase_ne m a)

/-- A write of one byte leaves every other byte. -/
theorem memRead_write_of_ne (m : Memory) {a c : Nat} (b : Byte) (hc : c ≠ a) : memRead (memWrite m a b) c = memRead m c := by
  unfold memWrite
  split
  · exact memRead_erase_of_ne m hc
  · rw [memRead_insert_of_ne _ b hc, memRead_erase_of_ne m hc]

/-- A write of a byte string leaves every byte outside it. -/
theorem memRead_writeBytes_of_out (m : Memory) {a c : Nat} (l : List Byte) (hc : c < a ∨ a + l.length ≤ c) :
    memRead (memWriteBytes m a l) c = memRead m c := by
  induction l generalizing m a with
  | nil => rfl
  | cons b l ih =>
    simp only [List.length_cons] at hc
    rw [memWriteBytes, ih _ (by omega), memRead_write_of_ne m b (by omega)]

/-- A byte string that was written is read back. -/
theorem memReadBytes_writeBytes (m : Memory) (a : Nat) (l : List Byte) : memReadBytes (memWriteBytes m a l) a l.length = l := by
  induction l generalizing m a with
  | nil => rfl
  | cons b l ih =>
    simp only [List.length_cons, memReadBytes, memWriteBytes]
    rw [memRead_writeBytes_of_out _ l (by omega), memRead_write_self, ih]

@[simp] theorem leBytes_length (n v : Nat) : (leBytes n v).length = n := by
  induction n generalizing v with
  | zero => rfl
  | succ n ih => simp [leBytes, ih]

/-- The number of the low bytes of a number. -/
theorem leNat_leBytes (n v : Nat) : leNat (leBytes n v) = v % 256 ^ n := by
  induction n generalizing v with
  | zero => simp [leBytes, leNat, Nat.mod_one]
  | succ n ih =>
    simp only [leBytes, leNat, ih, BitVec.toNat_ofNat]
    have h : 256 ^ (n + 1) = 256 * 256 ^ n := by rw [Nat.pow_succ, Nat.mul_comm]
    rw [h, Nat.mod_mul]

/-- A little-endian quantity that was written is read back. -/
theorem memReadLE_writeLE (m : Memory) (a n v : Nat) : memReadLE (memWriteLE m a n v) a n = v % 256 ^ n := by
  unfold memReadLE memWriteLE
  have h := memReadBytes_writeBytes m a (leBytes n v)
  rw [leBytes_length] at h
  rw [h, leNat_leBytes]

end Sys2Proof.Machine
end

