-- ==== Sys2Proof/Laws/Tbl.lean ====
section
/-! SUPPORT. Tables: what is read after a set, and that every operation keeps the keys rising. -/
namespace Sys2Proof.Machine

@[simp] theorem Tbl.get_nil {α : Type} (d : α) (k : Nat) : Tbl.get [] d k = d := rfl

theorem Tbl.get_cons {α : Type} (p : Nat × α) (t : Tbl α) (d : α) (k : Nat) :
    Tbl.get (p :: t) d k = if p.1 = k then p.2 else Tbl.get t d k := rfl

theorem Tbl.get_erase_self {α : Type} (t : Tbl α) (d : α) (k : Nat) : Tbl.get (Tbl.erase t k) d k = d := by
  induction t with
  | nil => rfl
  | cons p t ih =>
    unfold Tbl.erase at *
    by_cases h : p.1 = k
    · simp [h, ih]
    · simp [h, Tbl.get_cons, ih]

theorem Tbl.get_erase_of_ne {α : Type} (t : Tbl α) (d : α) {j k : Nat} (h : j ≠ k) :
    Tbl.get (Tbl.erase t k) d j = Tbl.get t d j := by
  induction t with
  | nil => rfl
  | cons p t ih =>
    unfold Tbl.erase at *
    by_cases hp : p.1 = k
    · simp [hp, Tbl.get_cons, ih, Ne.symm h]
    · simp [hp, Tbl.get_cons, ih]

theorem Tbl.get_insert_self {α : Type} (t : Tbl α) (d v : α) (k : Nat) (h : ∀ p ∈ t, p.1 ≠ k) :
    Tbl.get (Tbl.insert t k v) d k = v := by
  induction t with
  | nil => simp [Tbl.insert, Tbl.get_cons]
  | cons p t ih =>
    have hp : p.1 ≠ k := h p (by simp)
    have ht : ∀ q ∈ t, q.1 ≠ k := fun q hq => h q (by simp [hq])
    simp only [Tbl.insert]
    split
    · simp [Tbl.get_cons]
    · simp [Tbl.get_cons, hp, ih ht]

theorem Tbl.get_insert_of_ne {α : Type} (t : Tbl α) (d v : α) {j k : Nat} (h : j ≠ k) :
    Tbl.get (Tbl.insert t k v) d j = Tbl.get t d j := by
  induction t with
  | nil => simp [Tbl.insert, Tbl.get_cons, Ne.symm h]
  | cons p t ih =>
    simp only [Tbl.insert]
    split
    · simp [Tbl.get_cons, Ne.symm h]
    · simp [Tbl.get_cons, ih]

theorem Tbl.erase_ne {α : Type} (t : Tbl α) (k : Nat) : ∀ p ∈ Tbl.erase t k, p.1 ≠ k := by
  intro p hp
  simp only [Tbl.erase, List.mem_filter] at hp
  simpa using hp.2

/-- What was set is read. -/
@[simp] theorem Tbl.get_set_self {α : Type} (t : Tbl α) (d v : α) (k : Nat) : Tbl.get (Tbl.set t k v) d k = v :=
  Tbl.get_insert_self _ _ _ _ (Tbl.erase_ne t k)

/-- A set leaves every other key. -/
theorem Tbl.get_set_of_ne {α : Type} (t : Tbl α) (d v : α) {j k : Nat} (h : j ≠ k) :
    Tbl.get (Tbl.set t k v) d j = Tbl.get t d j := by
  rw [Tbl.set, Tbl.get_insert_of_ne _ _ _ h, Tbl.get_erase_of_ne _ _ h]

/-- A set, read at any key. -/
theorem Tbl.get_set {α : Type} (t : Tbl α) (d v : α) (j k : Nat) :
    Tbl.get (Tbl.set t k v) d j = if j = k then v else Tbl.get t d j := by
  by_cases h : j = k
  · simp [h]
  · simp [h, Tbl.get_set_of_ne t d v h]

/-- The keys of a table rise. -/
def Tbl.rising {α : Type} (t : Tbl α) : Prop := t.Pairwise fun p q => p.1 < q.1

theorem Tbl.rising_erase {α : Type} {t : Tbl α} (k : Nat) (h : Tbl.rising t) : Tbl.rising (Tbl.erase t k) :=
  List.Pairwise.filter _ h

theorem Tbl.mem_insert {α : Type} {t : Tbl α} {k : Nat} {v : α} {p : Nat × α} (h : p ∈ Tbl.insert t k v) :
    p = (k, v) ∨ p ∈ t := by
  induction t with
  | nil => simpa [Tbl.insert] using h
  | cons q t ih =>
    simp only [Tbl.insert] at h
    split at h
    · simpa using h
    · rcases List.mem_cons.1 h with h | h
      · exact .inr (by simp [h])
      · rcases ih h with h | h
        · exact .inl h
        · exact .inr (by simp [h])

theorem Tbl.rising_insert {α : Type} {t : Tbl α} {k : Nat} (v : α) (h : Tbl.rising t) (hk : ∀ p ∈ t, p.1 ≠ k) :
    Tbl.rising (Tbl.insert t k v) := by
  induction t with
  | nil => simp [Tbl.insert, Tbl.rising]
  | cons q t ih =>
    have hq := List.pairwise_cons.1 h
    simp only [Tbl.insert]
    split
    · rename_i hlt
      refine List.pairwise_cons.2 ⟨?_, h⟩
      intro p hp
      rcases List.mem_cons.1 hp with rfl | hp
      · exact hlt
      · exact Nat.lt_trans hlt (hq.1 p hp)
    · rename_i hge
      have hne : q.1 ≠ k := hk q (by simp)
      refine List.pairwise_cons.2 ⟨?_, ih hq.2 fun p hp => hk p (by simp [hp])⟩
      intro p hp
      rcases Tbl.mem_insert hp with rfl | hp
      · exact Nat.lt_of_le_of_ne (Nat.le_of_not_lt hge) hne
      · exact hq.1 p hp

/-- A set keeps the keys rising. -/
theorem Tbl.rising_set {α : Type} {t : Tbl α} (k : Nat) (v : α) (h : Tbl.rising t) : Tbl.rising (Tbl.set t k v) :=
  Tbl.rising_insert v (Tbl.rising_erase k h) (Tbl.erase_ne t k)

end Sys2Proof.Machine
end

