-- ==== Sys2Proof/Laws/State.lean ====
section
/-! SUPPORT. The named updates of the state, field by field: each changes the one field it names. -/
namespace Sys2Proof.Machine

/-! ### emit -/

@[simp] theorem State.emit_regs (s : State) (m : OutMsg) : (s.emit m).regs = s.regs := rfl
@[simp] theorem State.emit_shadow (s : State) (m : OutMsg) : (s.emit m).shadow = s.shadow := rfl
@[simp] theorem State.emit_heldLo (s : State) (m : OutMsg) : (s.emit m).heldLo = s.heldLo := rfl
@[simp] theorem State.emit_ports (s : State) (m : OutMsg) : (s.emit m).ports = s.ports := rfl
@[simp] theorem State.emit_brx (s : State) (m : OutMsg) : (s.emit m).brx = s.brx := rfl
@[simp] theorem State.emit_ev (s : State) (m : OutMsg) : (s.emit m).ev = s.ev := rfl
@[simp] theorem State.emit_tmu (s : State) (m : OutMsg) : (s.emit m).tmu = s.tmu := rfl
@[simp] theorem State.emit_sec (s : State) (m : OutMsg) : (s.emit m).sec = s.sec := rfl
@[simp] theorem State.emit_fuse (s : State) (m : OutMsg) : (s.emit m).fuse = s.fuse := rfl
@[simp] theorem State.emit_pwr (s : State) (m : OutMsg) : (s.emit m).pwr = s.pwr := rfl
@[simp] theorem State.emit_side (s : State) (m : OutMsg) : (s.emit m).side = s.side := rfl
@[simp] theorem State.emit_store (s : State) (m : OutMsg) : (s.emit m).store = s.store := rfl
@[simp] theorem State.emit_jobs (s : State) (m : OutMsg) : (s.emit m).jobs = s.jobs := rfl
@[simp] theorem State.emit_tor (s : State) (m : OutMsg) : (s.emit m).tor = s.tor := rfl
@[simp] theorem State.emit_pair (s : State) (m : OutMsg) : (s.emit m).pair = s.pair := rfl
@[simp] theorem State.emit_host (s : State) (m : OutMsg) : (s.emit m).host = s.host := rfl
@[simp] theorem State.emit_acc (s : State) (m : OutMsg) : (s.emit m).acc = s.acc := rfl
@[simp] theorem State.emit_upd (s : State) (m : OutMsg) : (s.emit m).upd = s.upd := rfl
@[simp] theorem State.emit_stm (s : State) (m : OutMsg) : (s.emit m).stm = s.stm := rfl
@[simp] theorem State.emit_asy (s : State) (m : OutMsg) : (s.emit m).asy = s.asy := rfl
@[simp] theorem State.emit_mem (s : State) (m : OutMsg) : (s.emit m).mem = s.mem := rfl
@[simp] theorem State.emit_now (s : State) (m : OutMsg) : (s.emit m).now = s.now := rfl
@[simp] theorem State.emit_pending (s : State) (m : OutMsg) : (s.emit m).pending = s.pending := rfl
@[simp] theorem State.emit_fresh (s : State) (m : OutMsg) : (s.emit m).fresh = s.fresh := rfl

/-! ### emitAll -/

@[simp] theorem State.emitAll_regs (s : State) (l : List OutMsg) : (s.emitAll l).regs = s.regs := rfl
@[simp] theorem State.emitAll_shadow (s : State) (l : List OutMsg) : (s.emitAll l).shadow = s.shadow := rfl
@[simp] theorem State.emitAll_heldLo (s : State) (l : List OutMsg) : (s.emitAll l).heldLo = s.heldLo := rfl
@[simp] theorem State.emitAll_ports (s : State) (l : List OutMsg) : (s.emitAll l).ports = s.ports := rfl
@[simp] theorem State.emitAll_brx (s : State) (l : List OutMsg) : (s.emitAll l).brx = s.brx := rfl
@[simp] theorem State.emitAll_ev (s : State) (l : List OutMsg) : (s.emitAll l).ev = s.ev := rfl
@[simp] theorem State.emitAll_tmu (s : State) (l : List OutMsg) : (s.emitAll l).tmu = s.tmu := rfl
@[simp] theorem State.emitAll_sec (s : State) (l : List OutMsg) : (s.emitAll l).sec = s.sec := rfl
@[simp] theorem State.emitAll_fuse (s : State) (l : List OutMsg) : (s.emitAll l).fuse = s.fuse := rfl
@[simp] theorem State.emitAll_pwr (s : State) (l : List OutMsg) : (s.emitAll l).pwr = s.pwr := rfl
@[simp] theorem State.emitAll_side (s : State) (l : List OutMsg) : (s.emitAll l).side = s.side := rfl
@[simp] theorem State.emitAll_store (s : State) (l : List OutMsg) : (s.emitAll l).store = s.store := rfl
@[simp] theorem State.emitAll_jobs (s : State) (l : List OutMsg) : (s.emitAll l).jobs = s.jobs := rfl
@[simp] theorem State.emitAll_tor (s : State) (l : List OutMsg) : (s.emitAll l).tor = s.tor := rfl
@[simp] theorem State.emitAll_pair (s : State) (l : List OutMsg) : (s.emitAll l).pair = s.pair := rfl
@[simp] theorem State.emitAll_host (s : State) (l : List OutMsg) : (s.emitAll l).host = s.host := rfl
@[simp] theorem State.emitAll_acc (s : State) (l : List OutMsg) : (s.emitAll l).acc = s.acc := rfl
@[simp] theorem State.emitAll_upd (s : State) (l : List OutMsg) : (s.emitAll l).upd = s.upd := rfl
@[simp] theorem State.emitAll_stm (s : State) (l : List OutMsg) : (s.emitAll l).stm = s.stm := rfl
@[simp] theorem State.emitAll_asy (s : State) (l : List OutMsg) : (s.emitAll l).asy = s.asy := rfl
@[simp] theorem State.emitAll_mem (s : State) (l : List OutMsg) : (s.emitAll l).mem = s.mem := rfl
@[simp] theorem State.emitAll_now (s : State) (l : List OutMsg) : (s.emitAll l).now = s.now := rfl
@[simp] theorem State.emitAll_pending (s : State) (l : List OutMsg) : (s.emitAll l).pending = s.pending := rfl
@[simp] theorem State.emitAll_fresh (s : State) (l : List OutMsg) : (s.emitAll l).fresh = s.fresh := rfl

/-! ### wr -/

@[simp] theorem State.wr_shadow (s : State) (r : Reg) (v : W32) (o : Nat) : (s.wr r v o).shadow = s.shadow := rfl
@[simp] theorem State.wr_heldLo (s : State) (r : Reg) (v : W32) (o : Nat) : (s.wr r v o).heldLo = s.heldLo := rfl
@[simp] theorem State.wr_ports (s : State) (r : Reg) (v : W32) (o : Nat) : (s.wr r v o).ports = s.ports := rfl
@[simp] theorem State.wr_brx (s : State) (r : Reg) (v : W32) (o : Nat) : (s.wr r v o).brx = s.brx := rfl
@[simp] theorem State.wr_ev (s : State) (r : Reg) (v : W32) (o : Nat) : (s.wr r v o).ev = s.ev := rfl
@[simp] theorem State.wr_tmu (s : State) (r : Reg) (v : W32) (o : Nat) : (s.wr r v o).tmu = s.tmu := rfl
@[simp] theorem State.wr_sec (s : State) (r : Reg) (v : W32) (o : Nat) : (s.wr r v o).sec = s.sec := rfl
@[simp] theorem State.wr_fuse (s : State) (r : Reg) (v : W32) (o : Nat) : (s.wr r v o).fuse = s.fuse := rfl
@[simp] theorem State.wr_pwr (s : State) (r : Reg) (v : W32) (o : Nat) : (s.wr r v o).pwr = s.pwr := rfl
@[simp] theorem State.wr_side (s : State) (r : Reg) (v : W32) (o : Nat) : (s.wr r v o).side = s.side := rfl
@[simp] theorem State.wr_store (s : State) (r : Reg) (v : W32) (o : Nat) : (s.wr r v o).store = s.store := rfl
@[simp] theorem State.wr_jobs (s : State) (r : Reg) (v : W32) (o : Nat) : (s.wr r v o).jobs = s.jobs := rfl
@[simp] theorem State.wr_tor (s : State) (r : Reg) (v : W32) (o : Nat) : (s.wr r v o).tor = s.tor := rfl
@[simp] theorem State.wr_pair (s : State) (r : Reg) (v : W32) (o : Nat) : (s.wr r v o).pair = s.pair := rfl
@[simp] theorem State.wr_host (s : State) (r : Reg) (v : W32) (o : Nat) : (s.wr r v o).host = s.host := rfl
@[simp] theorem State.wr_acc (s : State) (r : Reg) (v : W32) (o : Nat) : (s.wr r v o).acc = s.acc := rfl
@[simp] theorem State.wr_upd (s : State) (r : Reg) (v : W32) (o : Nat) : (s.wr r v o).upd = s.upd := rfl
@[simp] theorem State.wr_stm (s : State) (r : Reg) (v : W32) (o : Nat) : (s.wr r v o).stm = s.stm := rfl
@[simp] theorem State.wr_asy (s : State) (r : Reg) (v : W32) (o : Nat) : (s.wr r v o).asy = s.asy := rfl
@[simp] theorem State.wr_mem (s : State) (r : Reg) (v : W32) (o : Nat) : (s.wr r v o).mem = s.mem := rfl
@[simp] theorem State.wr_now (s : State) (r : Reg) (v : W32) (o : Nat) : (s.wr r v o).now = s.now := rfl
@[simp] theorem State.wr_pending (s : State) (r : Reg) (v : W32) (o : Nat) : (s.wr r v o).pending = s.pending := rfl
@[simp] theorem State.wr_outbox (s : State) (r : Reg) (v : W32) (o : Nat) : (s.wr r v o).outbox = s.outbox := rfl
@[simp] theorem State.wr_fresh (s : State) (r : Reg) (v : W32) (o : Nat) : (s.wr r v o).fresh = s.fresh := rfl

/-! ### wrFld -/

@[simp] theorem State.wrFld_shadow (s : State) (r : Reg) (lo w v o : Nat) : (s.wrFld r lo w v o).shadow = s.shadow := rfl
@[simp] theorem State.wrFld_heldLo (s : State) (r : Reg) (lo w v o : Nat) : (s.wrFld r lo w v o).heldLo = s.heldLo := rfl
@[simp] theorem State.wrFld_ports (s : State) (r : Reg) (lo w v o : Nat) : (s.wrFld r lo w v o).ports = s.ports := rfl
@[simp] theorem State.wrFld_brx (s : State) (r : Reg) (lo w v o : Nat) : (s.wrFld r lo w v o).brx = s.brx := rfl
@[simp] theorem State.wrFld_ev (s : State) (r : Reg) (lo w v o : Nat) : (s.wrFld r lo w v o).ev = s.ev := rfl
@[simp] theorem State.wrFld_tmu (s : State) (r : Reg) (lo w v o : Nat) : (s.wrFld r lo w v o).tmu = s.tmu := rfl
@[simp] theorem State.wrFld_sec (s : State) (r : Reg) (lo w v o : Nat) : (s.wrFld r lo w v o).sec = s.sec := rfl
@[simp] theorem State.wrFld_fuse (s : State) (r : Reg) (lo w v o : Nat) : (s.wrFld r lo w v o).fuse = s.fuse := rfl
@[simp] theorem State.wrFld_pwr (s : State) (r : Reg) (lo w v o : Nat) : (s.wrFld r lo w v o).pwr = s.pwr := rfl
@[simp] theorem State.wrFld_side (s : State) (r : Reg) (lo w v o : Nat) : (s.wrFld r lo w v o).side = s.side := rfl
@[simp] theorem State.wrFld_store (s : State) (r : Reg) (lo w v o : Nat) : (s.wrFld r lo w v o).store = s.store := rfl
@[simp] theorem State.wrFld_jobs (s : State) (r : Reg) (lo w v o : Nat) : (s.wrFld r lo w v o).jobs = s.jobs := rfl
@[simp] theorem State.wrFld_tor (s : State) (r : Reg) (lo w v o : Nat) : (s.wrFld r lo w v o).tor = s.tor := rfl
@[simp] theorem State.wrFld_pair (s : State) (r : Reg) (lo w v o : Nat) : (s.wrFld r lo w v o).pair = s.pair := rfl
@[simp] theorem State.wrFld_host (s : State) (r : Reg) (lo w v o : Nat) : (s.wrFld r lo w v o).host = s.host := rfl
@[simp] theorem State.wrFld_acc (s : State) (r : Reg) (lo w v o : Nat) : (s.wrFld r lo w v o).acc = s.acc := rfl
@[simp] theorem State.wrFld_upd (s : State) (r : Reg) (lo w v o : Nat) : (s.wrFld r lo w v o).upd = s.upd := rfl
@[simp] theorem State.wrFld_stm (s : State) (r : Reg) (lo w v o : Nat) : (s.wrFld r lo w v o).stm = s.stm := rfl
@[simp] theorem State.wrFld_asy (s : State) (r : Reg) (lo w v o : Nat) : (s.wrFld r lo w v o).asy = s.asy := rfl
@[simp] theorem State.wrFld_mem (s : State) (r : Reg) (lo w v o : Nat) : (s.wrFld r lo w v o).mem = s.mem := rfl
@[simp] theorem State.wrFld_now (s : State) (r : Reg) (lo w v o : Nat) : (s.wrFld r lo w v o).now = s.now := rfl
@[simp] theorem State.wrFld_pending (s : State) (r : Reg) (lo w v o : Nat) : (s.wrFld r lo w v o).pending = s.pending := rfl
@[simp] theorem State.wrFld_outbox (s : State) (r : Reg) (lo w v o : Nat) : (s.wrFld r lo w v o).outbox = s.outbox := rfl
@[simp] theorem State.wrFld_fresh (s : State) (r : Reg) (lo w v o : Nat) : (s.wrFld r lo w v o).fresh = s.fresh := rfl

/-! ### bumpBy -/

@[simp] theorem State.bumpBy_shadow (s : State) (r : Reg) (n o : Nat) : (s.bumpBy r n o).shadow = s.shadow := rfl
@[simp] theorem State.bumpBy_heldLo (s : State) (r : Reg) (n o : Nat) : (s.bumpBy r n o).heldLo = s.heldLo := rfl
@[simp] theorem State.bumpBy_ports (s : State) (r : Reg) (n o : Nat) : (s.bumpBy r n o).ports = s.ports := rfl
@[simp] theorem State.bumpBy_brx (s : State) (r : Reg) (n o : Nat) : (s.bumpBy r n o).brx = s.brx := rfl
@[simp] theorem State.bumpBy_ev (s : State) (r : Reg) (n o : Nat) : (s.bumpBy r n o).ev = s.ev := rfl
@[simp] theorem State.bumpBy_tmu (s : State) (r : Reg) (n o : Nat) : (s.bumpBy r n o).tmu = s.tmu := rfl
@[simp] theorem State.bumpBy_sec (s : State) (r : Reg) (n o : Nat) : (s.bumpBy r n o).sec = s.sec := rfl
@[simp] theorem State.bumpBy_fuse (s : State) (r : Reg) (n o : Nat) : (s.bumpBy r n o).fuse = s.fuse := rfl
@[simp] theorem State.bumpBy_pwr (s : State) (r : Reg) (n o : Nat) : (s.bumpBy r n o).pwr = s.pwr := rfl
@[simp] theorem State.bumpBy_side (s : State) (r : Reg) (n o : Nat) : (s.bumpBy r n o).side = s.side := rfl
@[simp] theorem State.bumpBy_store (s : State) (r : Reg) (n o : Nat) : (s.bumpBy r n o).store = s.store := rfl
@[simp] theorem State.bumpBy_jobs (s : State) (r : Reg) (n o : Nat) : (s.bumpBy r n o).jobs = s.jobs := rfl
@[simp] theorem State.bumpBy_tor (s : State) (r : Reg) (n o : Nat) : (s.bumpBy r n o).tor = s.tor := rfl
@[simp] theorem State.bumpBy_pair (s : State) (r : Reg) (n o : Nat) : (s.bumpBy r n o).pair = s.pair := rfl
@[simp] theorem State.bumpBy_host (s : State) (r : Reg) (n o : Nat) : (s.bumpBy r n o).host = s.host := rfl
@[simp] theorem State.bumpBy_acc (s : State) (r : Reg) (n o : Nat) : (s.bumpBy r n o).acc = s.acc := rfl
@[simp] theorem State.bumpBy_upd (s : State) (r : Reg) (n o : Nat) : (s.bumpBy r n o).upd = s.upd := rfl
@[simp] theorem State.bumpBy_stm (s : State) (r : Reg) (n o : Nat) : (s.bumpBy r n o).stm = s.stm := rfl
@[simp] theorem State.bumpBy_asy (s : State) (r : Reg) (n o : Nat) : (s.bumpBy r n o).asy = s.asy := rfl
@[simp] theorem State.bumpBy_mem (s : State) (r : Reg) (n o : Nat) : (s.bumpBy r n o).mem = s.mem := rfl
@[simp] theorem State.bumpBy_now (s : State) (r : Reg) (n o : Nat) : (s.bumpBy r n o).now = s.now := rfl
@[simp] theorem State.bumpBy_pending (s : State) (r : Reg) (n o : Nat) : (s.bumpBy r n o).pending = s.pending := rfl
@[simp] theorem State.bumpBy_outbox (s : State) (r : Reg) (n o : Nat) : (s.bumpBy r n o).outbox = s.outbox := rfl
@[simp] theorem State.bumpBy_fresh (s : State) (r : Reg) (n o : Nat) : (s.bumpBy r n o).fresh = s.fresh := rfl

/-! ### bump -/

@[simp] theorem State.bump_shadow (s : State) (r : Reg) (o : Nat) : (s.bump r o).shadow = s.shadow := rfl
@[simp] theorem State.bump_heldLo (s : State) (r : Reg) (o : Nat) : (s.bump r o).heldLo = s.heldLo := rfl
@[simp] theorem State.bump_ports (s : State) (r : Reg) (o : Nat) : (s.bump r o).ports = s.ports := rfl
@[simp] theorem State.bump_brx (s : State) (r : Reg) (o : Nat) : (s.bump r o).brx = s.brx := rfl
@[simp] theorem State.bump_ev (s : State) (r : Reg) (o : Nat) : (s.bump r o).ev = s.ev := rfl
@[simp] theorem State.bump_tmu (s : State) (r : Reg) (o : Nat) : (s.bump r o).tmu = s.tmu := rfl
@[simp] theorem State.bump_sec (s : State) (r : Reg) (o : Nat) : (s.bump r o).sec = s.sec := rfl
@[simp] theorem State.bump_fuse (s : State) (r : Reg) (o : Nat) : (s.bump r o).fuse = s.fuse := rfl
@[simp] theorem State.bump_pwr (s : State) (r : Reg) (o : Nat) : (s.bump r o).pwr = s.pwr := rfl
@[simp] theorem State.bump_side (s : State) (r : Reg) (o : Nat) : (s.bump r o).side = s.side := rfl
@[simp] theorem State.bump_store (s : State) (r : Reg) (o : Nat) : (s.bump r o).store = s.store := rfl
@[simp] theorem State.bump_jobs (s : State) (r : Reg) (o : Nat) : (s.bump r o).jobs = s.jobs := rfl
@[simp] theorem State.bump_tor (s : State) (r : Reg) (o : Nat) : (s.bump r o).tor = s.tor := rfl
@[simp] theorem State.bump_pair (s : State) (r : Reg) (o : Nat) : (s.bump r o).pair = s.pair := rfl
@[simp] theorem State.bump_host (s : State) (r : Reg) (o : Nat) : (s.bump r o).host = s.host := rfl
@[simp] theorem State.bump_acc (s : State) (r : Reg) (o : Nat) : (s.bump r o).acc = s.acc := rfl
@[simp] theorem State.bump_upd (s : State) (r : Reg) (o : Nat) : (s.bump r o).upd = s.upd := rfl
@[simp] theorem State.bump_stm (s : State) (r : Reg) (o : Nat) : (s.bump r o).stm = s.stm := rfl
@[simp] theorem State.bump_asy (s : State) (r : Reg) (o : Nat) : (s.bump r o).asy = s.asy := rfl
@[simp] theorem State.bump_mem (s : State) (r : Reg) (o : Nat) : (s.bump r o).mem = s.mem := rfl
@[simp] theorem State.bump_now (s : State) (r : Reg) (o : Nat) : (s.bump r o).now = s.now := rfl
@[simp] theorem State.bump_pending (s : State) (r : Reg) (o : Nat) : (s.bump r o).pending = s.pending := rfl
@[simp] theorem State.bump_outbox (s : State) (r : Reg) (o : Nat) : (s.bump r o).outbox = s.outbox := rfl
@[simp] theorem State.bump_fresh (s : State) (r : Reg) (o : Nat) : (s.bump r o).fresh = s.fresh := rfl

/-! ### setPort -/

@[simp] theorem State.setPort_regs (s : State) (p : Nat) (q : Port) : (s.setPort p q).regs = s.regs := rfl
@[simp] theorem State.setPort_shadow (s : State) (p : Nat) (q : Port) : (s.setPort p q).shadow = s.shadow := rfl
@[simp] theorem State.setPort_heldLo (s : State) (p : Nat) (q : Port) : (s.setPort p q).heldLo = s.heldLo := rfl
@[simp] theorem State.setPort_brx (s : State) (p : Nat) (q : Port) : (s.setPort p q).brx = s.brx := rfl
@[simp] theorem State.setPort_ev (s : State) (p : Nat) (q : Port) : (s.setPort p q).ev = s.ev := rfl
@[simp] theorem State.setPort_tmu (s : State) (p : Nat) (q : Port) : (s.setPort p q).tmu = s.tmu := rfl
@[simp] theorem State.setPort_sec (s : State) (p : Nat) (q : Port) : (s.setPort p q).sec = s.sec := rfl
@[simp] theorem State.setPort_fuse (s : State) (p : Nat) (q : Port) : (s.setPort p q).fuse = s.fuse := rfl
@[simp] theorem State.setPort_pwr (s : State) (p : Nat) (q : Port) : (s.setPort p q).pwr = s.pwr := rfl
@[simp] theorem State.setPort_side (s : State) (p : Nat) (q : Port) : (s.setPort p q).side = s.side := rfl
@[simp] theorem State.setPort_store (s : State) (p : Nat) (q : Port) : (s.setPort p q).store = s.store := rfl
@[simp] theorem State.setPort_jobs (s : State) (p : Nat) (q : Port) : (s.setPort p q).jobs = s.jobs := rfl
@[simp] theorem State.setPort_tor (s : State) (p : Nat) (q : Port) : (s.setPort p q).tor = s.tor := rfl
@[simp] theorem State.setPort_pair (s : State) (p : Nat) (q : Port) : (s.setPort p q).pair = s.pair := rfl
@[simp] theorem State.setPort_host (s : State) (p : Nat) (q : Port) : (s.setPort p q).host = s.host := rfl
@[simp] theorem State.setPort_acc (s : State) (p : Nat) (q : Port) : (s.setPort p q).acc = s.acc := rfl
@[simp] theorem State.setPort_upd (s : State) (p : Nat) (q : Port) : (s.setPort p q).upd = s.upd := rfl
@[simp] theorem State.setPort_stm (s : State) (p : Nat) (q : Port) : (s.setPort p q).stm = s.stm := rfl
@[simp] theorem State.setPort_asy (s : State) (p : Nat) (q : Port) : (s.setPort p q).asy = s.asy := rfl
@[simp] theorem State.setPort_mem (s : State) (p : Nat) (q : Port) : (s.setPort p q).mem = s.mem := rfl
@[simp] theorem State.setPort_now (s : State) (p : Nat) (q : Port) : (s.setPort p q).now = s.now := rfl
@[simp] theorem State.setPort_pending (s : State) (p : Nat) (q : Port) : (s.setPort p q).pending = s.pending := rfl
@[simp] theorem State.setPort_outbox (s : State) (p : Nat) (q : Port) : (s.setPort p q).outbox = s.outbox := rfl
@[simp] theorem State.setPort_fresh (s : State) (p : Nat) (q : Port) : (s.setPort p q).fresh = s.fresh := rfl

/-! ### queuePkt -/

@[simp] theorem State.queuePkt_regs (s : State) (p : Nat) (vc : Fin 4) (k : Packet) (b : Bool) : (s.queuePkt p vc k b).regs = s.regs := rfl
@[simp] theorem State.queuePkt_shadow (s : State) (p : Nat) (vc : Fin 4) (k : Packet) (b : Bool) : (s.queuePkt p vc k b).shadow = s.shadow := rfl
@[simp] theorem State.queuePkt_heldLo (s : State) (p : Nat) (vc : Fin 4) (k : Packet) (b : Bool) : (s.queuePkt p vc k b).heldLo = s.heldLo := rfl
@[simp] theorem State.queuePkt_brx (s : State) (p : Nat) (vc : Fin 4) (k : Packet) (b : Bool) : (s.queuePkt p vc k b).brx = s.brx := rfl
@[simp] theorem State.queuePkt_ev (s : State) (p : Nat) (vc : Fin 4) (k : Packet) (b : Bool) : (s.queuePkt p vc k b).ev = s.ev := rfl
@[simp] theorem State.queuePkt_tmu (s : State) (p : Nat) (vc : Fin 4) (k : Packet) (b : Bool) : (s.queuePkt p vc k b).tmu = s.tmu := rfl
@[simp] theorem State.queuePkt_sec (s : State) (p : Nat) (vc : Fin 4) (k : Packet) (b : Bool) : (s.queuePkt p vc k b).sec = s.sec := rfl
@[simp] theorem State.queuePkt_fuse (s : State) (p : Nat) (vc : Fin 4) (k : Packet) (b : Bool) : (s.queuePkt p vc k b).fuse = s.fuse := rfl
@[simp] theorem State.queuePkt_pwr (s : State) (p : Nat) (vc : Fin 4) (k : Packet) (b : Bool) : (s.queuePkt p vc k b).pwr = s.pwr := rfl
@[simp] theorem State.queuePkt_side (s : State) (p : Nat) (vc : Fin 4) (k : Packet) (b : Bool) : (s.queuePkt p vc k b).side = s.side := rfl
@[simp] theorem State.queuePkt_store (s : State) (p : Nat) (vc : Fin 4) (k : Packet) (b : Bool) : (s.queuePkt p vc k b).store = s.store := rfl
@[simp] theorem State.queuePkt_jobs (s : State) (p : Nat) (vc : Fin 4) (k : Packet) (b : Bool) : (s.queuePkt p vc k b).jobs = s.jobs := rfl
@[simp] theorem State.queuePkt_tor (s : State) (p : Nat) (vc : Fin 4) (k : Packet) (b : Bool) : (s.queuePkt p vc k b).tor = s.tor := rfl
@[simp] theorem State.queuePkt_pair (s : State) (p : Nat) (vc : Fin 4) (k : Packet) (b : Bool) : (s.queuePkt p vc k b).pair = s.pair := rfl
@[simp] theorem State.queuePkt_host (s : State) (p : Nat) (vc : Fin 4) (k : Packet) (b : Bool) : (s.queuePkt p vc k b).host = s.host := rfl
@[simp] theorem State.queuePkt_acc (s : State) (p : Nat) (vc : Fin 4) (k : Packet) (b : Bool) : (s.queuePkt p vc k b).acc = s.acc := rfl
@[simp] theorem State.queuePkt_upd (s : State) (p : Nat) (vc : Fin 4) (k : Packet) (b : Bool) : (s.queuePkt p vc k b).upd = s.upd := rfl
@[simp] theorem State.queuePkt_stm (s : State) (p : Nat) (vc : Fin 4) (k : Packet) (b : Bool) : (s.queuePkt p vc k b).stm = s.stm := rfl
@[simp] theorem State.queuePkt_asy (s : State) (p : Nat) (vc : Fin 4) (k : Packet) (b : Bool) : (s.queuePkt p vc k b).asy = s.asy := rfl
@[simp] theorem State.queuePkt_mem (s : State) (p : Nat) (vc : Fin 4) (k : Packet) (b : Bool) : (s.queuePkt p vc k b).mem = s.mem := rfl
@[simp] theorem State.queuePkt_now (s : State) (p : Nat) (vc : Fin 4) (k : Packet) (b : Bool) : (s.queuePkt p vc k b).now = s.now := rfl
@[simp] theorem State.queuePkt_pending (s : State) (p : Nat) (vc : Fin 4) (k : Packet) (b : Bool) : (s.queuePkt p vc k b).pending = s.pending := rfl
@[simp] theorem State.queuePkt_outbox (s : State) (p : Nat) (vc : Fin 4) (k : Packet) (b : Bool) : (s.queuePkt p vc k b).outbox = s.outbox := rfl
@[simp] theorem State.queuePkt_fresh (s : State) (p : Nat) (vc : Fin 4) (k : Packet) (b : Bool) : (s.queuePkt p vc k b).fresh = s.fresh := rfl

/-! ### setJob -/

@[simp] theorem State.setJob_regs (s : State) (j : Job) : (s.setJob j).regs = s.regs := rfl
@[simp] theorem State.setJob_shadow (s : State) (j : Job) : (s.setJob j).shadow = s.shadow := rfl
@[simp] theorem State.setJob_heldLo (s : State) (j : Job) : (s.setJob j).heldLo = s.heldLo := rfl
@[simp] theorem State.setJob_ports (s : State) (j : Job) : (s.setJob j).ports = s.ports := rfl
@[simp] theorem State.setJob_brx (s : State) (j : Job) : (s.setJob j).brx = s.brx := rfl
@[simp] theorem State.setJob_ev (s : State) (j : Job) : (s.setJob j).ev = s.ev := rfl
@[simp] theorem State.setJob_tmu (s : State) (j : Job) : (s.setJob j).tmu = s.tmu := rfl
@[simp] theorem State.setJob_sec (s : State) (j : Job) : (s.setJob j).sec = s.sec := rfl
@[simp] theorem State.setJob_fuse (s : State) (j : Job) : (s.setJob j).fuse = s.fuse := rfl
@[simp] theorem State.setJob_pwr (s : State) (j : Job) : (s.setJob j).pwr = s.pwr := rfl
@[simp] theorem State.setJob_side (s : State) (j : Job) : (s.setJob j).side = s.side := rfl
@[simp] theorem State.setJob_store (s : State) (j : Job) : (s.setJob j).store = s.store := rfl
@[simp] theorem State.setJob_tor (s : State) (j : Job) : (s.setJob j).tor = s.tor := rfl
@[simp] theorem State.setJob_pair (s : State) (j : Job) : (s.setJob j).pair = s.pair := rfl
@[simp] theorem State.setJob_host (s : State) (j : Job) : (s.setJob j).host = s.host := rfl
@[simp] theorem State.setJob_acc (s : State) (j : Job) : (s.setJob j).acc = s.acc := rfl
@[simp] theorem State.setJob_upd (s : State) (j : Job) : (s.setJob j).upd = s.upd := rfl
@[simp] theorem State.setJob_stm (s : State) (j : Job) : (s.setJob j).stm = s.stm := rfl
@[simp] theorem State.setJob_asy (s : State) (j : Job) : (s.setJob j).asy = s.asy := rfl
@[simp] theorem State.setJob_mem (s : State) (j : Job) : (s.setJob j).mem = s.mem := rfl
@[simp] theorem State.setJob_now (s : State) (j : Job) : (s.setJob j).now = s.now := rfl
@[simp] theorem State.setJob_pending (s : State) (j : Job) : (s.setJob j).pending = s.pending := rfl
@[simp] theorem State.setJob_outbox (s : State) (j : Job) : (s.setJob j).outbox = s.outbox := rfl
@[simp] theorem State.setJob_fresh (s : State) (j : Job) : (s.setJob j).fresh = s.fresh := rfl

/-! ### setSlot -/

@[simp] theorem State.setSlot_regs (s : State) (k : Nat) (b : List Byte) : (s.setSlot k b).regs = s.regs := rfl
@[simp] theorem State.setSlot_shadow (s : State) (k : Nat) (b : List Byte) : (s.setSlot k b).shadow = s.shadow := rfl
@[simp] theorem State.setSlot_heldLo (s : State) (k : Nat) (b : List Byte) : (s.setSlot k b).heldLo = s.heldLo := rfl
@[simp] theorem State.setSlot_ports (s : State) (k : Nat) (b : List Byte) : (s.setSlot k b).ports = s.ports := rfl
@[simp] theorem State.setSlot_brx (s : State) (k : Nat) (b : List Byte) : (s.setSlot k b).brx = s.brx := rfl
@[simp] theorem State.setSlot_ev (s : State) (k : Nat) (b : List Byte) : (s.setSlot k b).ev = s.ev := rfl
@[simp] theorem State.setSlot_tmu (s : State) (k : Nat) (b : List Byte) : (s.setSlot k b).tmu = s.tmu := rfl
@[simp] theorem State.setSlot_sec (s : State) (k : Nat) (b : List Byte) : (s.setSlot k b).sec = s.sec := rfl
@[simp] theorem State.setSlot_fuse (s : State) (k : Nat) (b : List Byte) : (s.setSlot k b).fuse = s.fuse := rfl
@[simp] theorem State.setSlot_pwr (s : State) (k : Nat) (b : List Byte) : (s.setSlot k b).pwr = s.pwr := rfl
@[simp] theorem State.setSlot_side (s : State) (k : Nat) (b : List Byte) : (s.setSlot k b).side = s.side := rfl
@[simp] theorem State.setSlot_store (s : State) (k : Nat) (b : List Byte) : (s.setSlot k b).store = s.store := rfl
@[simp] theorem State.setSlot_jobs (s : State) (k : Nat) (b : List Byte) : (s.setSlot k b).jobs = s.jobs := rfl
@[simp] theorem State.setSlot_tor (s : State) (k : Nat) (b : List Byte) : (s.setSlot k b).tor = s.tor := rfl
@[simp] theorem State.setSlot_pair (s : State) (k : Nat) (b : List Byte) : (s.setSlot k b).pair = s.pair := rfl
@[simp] theorem State.setSlot_acc (s : State) (k : Nat) (b : List Byte) : (s.setSlot k b).acc = s.acc := rfl
@[simp] theorem State.setSlot_upd (s : State) (k : Nat) (b : List Byte) : (s.setSlot k b).upd = s.upd := rfl
@[simp] theorem State.setSlot_stm (s : State) (k : Nat) (b : List Byte) : (s.setSlot k b).stm = s.stm := rfl
@[simp] theorem State.setSlot_asy (s : State) (k : Nat) (b : List Byte) : (s.setSlot k b).asy = s.asy := rfl
@[simp] theorem State.setSlot_mem (s : State) (k : Nat) (b : List Byte) : (s.setSlot k b).mem = s.mem := rfl
@[simp] theorem State.setSlot_now (s : State) (k : Nat) (b : List Byte) : (s.setSlot k b).now = s.now := rfl
@[simp] theorem State.setSlot_pending (s : State) (k : Nat) (b : List Byte) : (s.setSlot k b).pending = s.pending := rfl
@[simp] theorem State.setSlot_outbox (s : State) (k : Nat) (b : List Byte) : (s.setSlot k b).outbox = s.outbox := rfl
@[simp] theorem State.setSlot_fresh (s : State) (k : Nat) (b : List Byte) : (s.setSlot k b).fresh = s.fresh := rfl

/-! ### setTile -/

@[simp] theorem State.setTile_regs (s : State) (a : Nat) (t : Tile) : (s.setTile a t).regs = s.regs := rfl
@[simp] theorem State.setTile_shadow (s : State) (a : Nat) (t : Tile) : (s.setTile a t).shadow = s.shadow := rfl
@[simp] theorem State.setTile_heldLo (s : State) (a : Nat) (t : Tile) : (s.setTile a t).heldLo = s.heldLo := rfl
@[simp] theorem State.setTile_ports (s : State) (a : Nat) (t : Tile) : (s.setTile a t).ports = s.ports := rfl
@[simp] theorem State.setTile_brx (s : State) (a : Nat) (t : Tile) : (s.setTile a t).brx = s.brx := rfl
@[simp] theorem State.setTile_ev (s : State) (a : Nat) (t : Tile) : (s.setTile a t).ev = s.ev := rfl
@[simp] theorem State.setTile_tmu (s : State) (a : Nat) (t : Tile) : (s.setTile a t).tmu = s.tmu := rfl
@[simp] theorem State.setTile_sec (s : State) (a : Nat) (t : Tile) : (s.setTile a t).sec = s.sec := rfl
@[simp] theorem State.setTile_fuse (s : State) (a : Nat) (t : Tile) : (s.setTile a t).fuse = s.fuse := rfl
@[simp] theorem State.setTile_pwr (s : State) (a : Nat) (t : Tile) : (s.setTile a t).pwr = s.pwr := rfl
@[simp] theorem State.setTile_side (s : State) (a : Nat) (t : Tile) : (s.setTile a t).side = s.side := rfl
@[simp] theorem State.setTile_store (s : State) (a : Nat) (t : Tile) : (s.setTile a t).store = s.store := rfl
@[simp] theorem State.setTile_jobs (s : State) (a : Nat) (t : Tile) : (s.setTile a t).jobs = s.jobs := rfl
@[simp] theorem State.setTile_tor (s : State) (a : Nat) (t : Tile) : (s.setTile a t).tor = s.tor := rfl
@[simp] theorem State.setTile_pair (s : State) (a : Nat) (t : Tile) : (s.setTile a t).pair = s.pair := rfl
@[simp] theorem State.setTile_host (s : State) (a : Nat) (t : Tile) : (s.setTile a t).host = s.host := rfl
@[simp] theorem State.setTile_upd (s : State) (a : Nat) (t : Tile) : (s.setTile a t).upd = s.upd := rfl
@[simp] theorem State.setTile_stm (s : State) (a : Nat) (t : Tile) : (s.setTile a t).stm = s.stm := rfl
@[simp] theorem State.setTile_asy (s : State) (a : Nat) (t : Tile) : (s.setTile a t).asy = s.asy := rfl
@[simp] theorem State.setTile_mem (s : State) (a : Nat) (t : Tile) : (s.setTile a t).mem = s.mem := rfl
@[simp] theorem State.setTile_now (s : State) (a : Nat) (t : Tile) : (s.setTile a t).now = s.now := rfl
@[simp] theorem State.setTile_pending (s : State) (a : Nat) (t : Tile) : (s.setTile a t).pending = s.pending := rfl
@[simp] theorem State.setTile_outbox (s : State) (a : Nat) (t : Tile) : (s.setTile a t).outbox = s.outbox := rfl
@[simp] theorem State.setTile_fresh (s : State) (a : Nat) (t : Tile) : (s.setTile a t).fresh = s.fresh := rfl

/-! ### setSlice -/

@[simp] theorem State.setSlice_regs (s : State) (k : Nat) (x : Slice) : (s.setSlice k x).regs = s.regs := rfl
@[simp] theorem State.setSlice_shadow (s : State) (k : Nat) (x : Slice) : (s.setSlice k x).shadow = s.shadow := rfl
@[simp] theorem State.setSlice_heldLo (s : State) (k : Nat) (x : Slice) : (s.setSlice k x).heldLo = s.heldLo := rfl
@[simp] theorem State.setSlice_ports (s : State) (k : Nat) (x : Slice) : (s.setSlice k x).ports = s.ports := rfl
@[simp] theorem State.setSlice_brx (s : State) (k : Nat) (x : Slice) : (s.setSlice k x).brx = s.brx := rfl
@[simp] theorem State.setSlice_ev (s : State) (k : Nat) (x : Slice) : (s.setSlice k x).ev = s.ev := rfl
@[simp] theorem State.setSlice_tmu (s : State) (k : Nat) (x : Slice) : (s.setSlice k x).tmu = s.tmu := rfl
@[simp] theorem State.setSlice_sec (s : State) (k : Nat) (x : Slice) : (s.setSlice k x).sec = s.sec := rfl
@[simp] theorem State.setSlice_fuse (s : State) (k : Nat) (x : Slice) : (s.setSlice k x).fuse = s.fuse := rfl
@[simp] theorem State.setSlice_pwr (s : State) (k : Nat) (x : Slice) : (s.setSlice k x).pwr = s.pwr := rfl
@[simp] theorem State.setSlice_side (s : State) (k : Nat) (x : Slice) : (s.setSlice k x).side = s.side := rfl
@[simp] theorem State.setSlice_store (s : State) (k : Nat) (x : Slice) : (s.setSlice k x).store = s.store := rfl
@[simp] theorem State.setSlice_jobs (s : State) (k : Nat) (x : Slice) : (s.setSlice k x).jobs = s.jobs := rfl
@[simp] theorem State.setSlice_tor (s : State) (k : Nat) (x : Slice) : (s.setSlice k x).tor = s.tor := rfl
@[simp] theorem State.setSlice_pair (s : State) (k : Nat) (x : Slice) : (s.setSlice k x).pair = s.pair := rfl
@[simp] theorem State.setSlice_host (s : State) (k : Nat) (x : Slice) : (s.setSlice k x).host = s.host := rfl
@[simp] theorem State.setSlice_acc (s : State) (k : Nat) (x : Slice) : (s.setSlice k x).acc = s.acc := rfl
@[simp] theorem State.setSlice_stm (s : State) (k : Nat) (x : Slice) : (s.setSlice k x).stm = s.stm := rfl
@[simp] theorem State.setSlice_asy (s : State) (k : Nat) (x : Slice) : (s.setSlice k x).asy = s.asy := rfl
@[simp] theorem State.setSlice_mem (s : State) (k : Nat) (x : Slice) : (s.setSlice k x).mem = s.mem := rfl
@[simp] theorem State.setSlice_now (s : State) (k : Nat) (x : Slice) : (s.setSlice k x).now = s.now := rfl
@[simp] theorem State.setSlice_pending (s : State) (k : Nat) (x : Slice) : (s.setSlice k x).pending = s.pending := rfl
@[simp] theorem State.setSlice_outbox (s : State) (k : Nat) (x : Slice) : (s.setSlice k x).outbox = s.outbox := rfl
@[simp] theorem State.setSlice_fresh (s : State) (k : Nat) (x : Slice) : (s.setSlice k x).fresh = s.fresh := rfl

/-! ### setEngines -/

@[simp] theorem State.setEngines_regs (s : State) (k : Nat) (l : List Engine) : (s.setEngines k l).regs = s.regs := rfl
@[simp] theorem State.setEngines_shadow (s : State) (k : Nat) (l : List Engine) : (s.setEngines k l).shadow = s.shadow := rfl
@[simp] theorem State.setEngines_heldLo (s : State) (k : Nat) (l : List Engine) : (s.setEngines k l).heldLo = s.heldLo := rfl
@[simp] theorem State.setEngines_ports (s : State) (k : Nat) (l : List Engine) : (s.setEngines k l).ports = s.ports := rfl
@[simp] theorem State.setEngines_brx (s : State) (k : Nat) (l : List Engine) : (s.setEngines k l).brx = s.brx := rfl
@[simp] theorem State.setEngines_ev (s : State) (k : Nat) (l : List Engine) : (s.setEngines k l).ev = s.ev := rfl
@[simp] theorem State.setEngines_tmu (s : State) (k : Nat) (l : List Engine) : (s.setEngines k l).tmu = s.tmu := rfl
@[simp] theorem State.setEngines_sec (s : State) (k : Nat) (l : List Engine) : (s.setEngines k l).sec = s.sec := rfl
@[simp] theorem State.setEngines_fuse (s : State) (k : Nat) (l : List Engine) : (s.setEngines k l).fuse = s.fuse := rfl
@[simp] theorem State.setEngines_pwr (s : State) (k : Nat) (l : List Engine) : (s.setEngines k l).pwr = s.pwr := rfl
@[simp] theorem State.setEngines_side (s : State) (k : Nat) (l : List Engine) : (s.setEngines k l).side = s.side := rfl
@[simp] theorem State.setEngines_store (s : State) (k : Nat) (l : List Engine) : (s.setEngines k l).store = s.store := rfl
@[simp] theorem State.setEngines_jobs (s : State) (k : Nat) (l : List Engine) : (s.setEngines k l).jobs = s.jobs := rfl
@[simp] theorem State.setEngines_tor (s : State) (k : Nat) (l : List Engine) : (s.setEngines k l).tor = s.tor := rfl
@[simp] theorem State.setEngines_pair (s : State) (k : Nat) (l : List Engine) : (s.setEngines k l).pair = s.pair := rfl
@[simp] theorem State.setEngines_host (s : State) (k : Nat) (l : List Engine) : (s.setEngines k l).host = s.host := rfl
@[simp] theorem State.setEngines_acc (s : State) (k : Nat) (l : List Engine) : (s.setEngines k l).acc = s.acc := rfl
@[simp] theorem State.setEngines_upd (s : State) (k : Nat) (l : List Engine) : (s.setEngines k l).upd = s.upd := rfl
@[simp] theorem State.setEngines_asy (s : State) (k : Nat) (l : List Engine) : (s.setEngines k l).asy = s.asy := rfl
@[simp] theorem State.setEngines_mem (s : State) (k : Nat) (l : List Engine) : (s.setEngines k l).mem = s.mem := rfl
@[simp] theorem State.setEngines_now (s : State) (k : Nat) (l : List Engine) : (s.setEngines k l).now = s.now := rfl
@[simp] theorem State.setEngines_pending (s : State) (k : Nat) (l : List Engine) : (s.setEngines k l).pending = s.pending := rfl
@[simp] theorem State.setEngines_outbox (s : State) (k : Nat) (l : List Engine) : (s.setEngines k l).outbox = s.outbox := rfl
@[simp] theorem State.setEngines_fresh (s : State) (k : Nat) (l : List Engine) : (s.setEngines k l).fresh = s.fresh := rfl

/-! ### setArb -/

@[simp] theorem State.setArb_regs (s : State) (a : Nat) (x : Arb) : (s.setArb a x).regs = s.regs := rfl
@[simp] theorem State.setArb_shadow (s : State) (a : Nat) (x : Arb) : (s.setArb a x).shadow = s.shadow := rfl
@[simp] theorem State.setArb_heldLo (s : State) (a : Nat) (x : Arb) : (s.setArb a x).heldLo = s.heldLo := rfl
@[simp] theorem State.setArb_ports (s : State) (a : Nat) (x : Arb) : (s.setArb a x).ports = s.ports := rfl
@[simp] theorem State.setArb_brx (s : State) (a : Nat) (x : Arb) : (s.setArb a x).brx = s.brx := rfl
@[simp] theorem State.setArb_ev (s : State) (a : Nat) (x : Arb) : (s.setArb a x).ev = s.ev := rfl
@[simp] theorem State.setArb_tmu (s : State) (a : Nat) (x : Arb) : (s.setArb a x).tmu = s.tmu := rfl
@[simp] theorem State.setArb_sec (s : State) (a : Nat) (x : Arb) : (s.setArb a x).sec = s.sec := rfl
@[simp] theorem State.setArb_fuse (s : State) (a : Nat) (x : Arb) : (s.setArb a x).fuse = s.fuse := rfl
@[simp] theorem State.setArb_pwr (s : State) (a : Nat) (x : Arb) : (s.setArb a x).pwr = s.pwr := rfl
@[simp] theorem State.setArb_side (s : State) (a : Nat) (x : Arb) : (s.setArb a x).side = s.side := rfl
@[simp] theorem State.setArb_store (s : State) (a : Nat) (x : Arb) : (s.setArb a x).store = s.store := rfl
@[simp] theorem State.setArb_jobs (s : State) (a : Nat) (x : Arb) : (s.setArb a x).jobs = s.jobs := rfl
@[simp] theorem State.setArb_tor (s : State) (a : Nat) (x : Arb) : (s.setArb a x).tor = s.tor := rfl
@[simp] theorem State.setArb_pair (s : State) (a : Nat) (x : Arb) : (s.setArb a x).pair = s.pair := rfl
@[simp] theorem State.setArb_host (s : State) (a : Nat) (x : Arb) : (s.setArb a x).host = s.host := rfl
@[simp] theorem State.setArb_acc (s : State) (a : Nat) (x : Arb) : (s.setArb a x).acc = s.acc := rfl
@[simp] theorem State.setArb_upd (s : State) (a : Nat) (x : Arb) : (s.setArb a x).upd = s.upd := rfl
@[simp] theorem State.setArb_asy (s : State) (a : Nat) (x : Arb) : (s.setArb a x).asy = s.asy := rfl
@[simp] theorem State.setArb_mem (s : State) (a : Nat) (x : Arb) : (s.setArb a x).mem = s.mem := rfl
@[simp] theorem State.setArb_now (s : State) (a : Nat) (x : Arb) : (s.setArb a x).now = s.now := rfl
@[simp] theorem State.setArb_pending (s : State) (a : Nat) (x : Arb) : (s.setArb a x).pending = s.pending := rfl
@[simp] theorem State.setArb_outbox (s : State) (a : Nat) (x : Arb) : (s.setArb a x).outbox = s.outbox := rfl
@[simp] theorem State.setArb_fresh (s : State) (a : Nat) (x : Arb) : (s.setArb a x).fresh = s.fresh := rfl

/-! ### What the named updates change -/

@[simp] theorem State.emit_outbox (s : State) (m : OutMsg) : (s.emit m).outbox = s.outbox ++ [m] := rfl
@[simp] theorem State.emitAll_outbox (s : State) (l : List OutMsg) : (s.emitAll l).outbox = s.outbox ++ l := rfl
theorem State.wr_regs (s : State) (r : Reg) (v : W32) (o : Nat) : (s.wr r v o).regs = Tbl.set s.regs (r.key o) v := rfl
theorem State.setPort_ports (s : State) (p : Nat) (q : Port) : (s.setPort p q).ports = Tbl.set s.ports p q := rfl
theorem State.setJob_jobs (s : State) (j : Job) : (s.setJob j).jobs = Tbl.set s.jobs j.slot j := rfl
theorem State.setSlot_host (s : State) (k : Nat) (b : List Byte) :
    (s.setSlot k b).host = { s.host with slots := Tbl.set s.host.slots k b } := rfl
theorem State.setSlice_upd (s : State) (k : Nat) (x : Slice) :
    (s.setSlice k x).upd = { s.upd with slices := Tbl.set s.upd.slices k x } := rfl
theorem State.setEngines_stm (s : State) (k : Nat) (l : List Engine) :
    (s.setEngines k l).stm = { s.stm with engines := Tbl.set s.stm.engines k l } := rfl
theorem State.setArb_stm (s : State) (a : Nat) (x : Arb) :
    (s.setArb a x).stm = { s.stm with arbs := Tbl.set s.stm.arbs a x } := rfl

/-! ### What is read after them -/

/-- A port that was replaced is read. -/
@[simp] theorem State.port_setPort_self (s : State) (p : Nat) (q : Port) : (s.setPort p q).port p = q := by
  simp [State.port, State.setPort_ports]

theorem State.port_setPort_of_ne (s : State) {p p' : Nat} (q : Port) (h : p' ≠ p) : (s.setPort p q).port p' = s.port p' := by
  simp [State.port, State.setPort_ports, Tbl.get_set_of_ne _ _ _ h]

@[simp] theorem State.slice_setSlice_self (s : State) (k : Nat) (x : Slice) : (s.setSlice k x).slice k = x := by
  simp [State.slice, State.setSlice_upd]

theorem State.slice_setSlice_of_ne (s : State) {k k' : Nat} (x : Slice) (h : k' ≠ k) : (s.setSlice k x).slice k' = s.slice k' := by
  simp [State.slice, State.setSlice_upd, Tbl.get_set_of_ne _ _ _ h]

/-- A register that was written is read. -/
@[simp] theorem State.rd_wr_self (s : State) (r : Reg) (v : W32) (o : Nat) : (s.wr r v o).rd r o = v := by
  simp [State.rd, State.wr_regs]

/-- A write leaves every register with another key. -/
theorem State.rd_wr_of_ne (s : State) (r q : Reg) (v : W32) (o p : Nat) (h : q.key p ≠ r.key o) : (s.wr r v o).rd q p = s.rd q p := by
  unfold State.rd
  rw [State.wr_regs, Tbl.get_set_of_ne _ _ _ h]
  rfl

/-! ### Putting the queue and the Bruix block back -/

@[simp] theorem State.keeping_pending (t s : State) (b : Brx) : (t.keeping s b).pending = s.pending := rfl
@[simp] theorem State.keeping_brx (t s : State) (b : Brx) : (t.keeping s b).brx = b := rfl
@[simp] theorem State.keeping_self (s : State) : s.keeping s s.brx = s := rfl

/-- A state whose queue and Bruix block are those of `s` is kept as it is. -/
theorem State.keeping_eq (t s : State) (hp : t.pending = s.pending) (hb : t.brx = s.brx) : t.keeping s s.brx = t := by
  rw [← hb, State.keeping, ← hp]

@[simp] theorem State.keeping_regs (t s : State) (b : Brx) : (t.keeping s b).regs = t.regs := rfl
@[simp] theorem State.keeping_shadow (t s : State) (b : Brx) : (t.keeping s b).shadow = t.shadow := rfl
@[simp] theorem State.keeping_heldLo (t s : State) (b : Brx) : (t.keeping s b).heldLo = t.heldLo := rfl
@[simp] theorem State.keeping_ports (t s : State) (b : Brx) : (t.keeping s b).ports = t.ports := rfl
@[simp] theorem State.keeping_ev (t s : State) (b : Brx) : (t.keeping s b).ev = t.ev := rfl
@[simp] theorem State.keeping_tmu (t s : State) (b : Brx) : (t.keeping s b).tmu = t.tmu := rfl
@[simp] theorem State.keeping_sec (t s : State) (b : Brx) : (t.keeping s b).sec = t.sec := rfl
@[simp] theorem State.keeping_fuse (t s : State) (b : Brx) : (t.keeping s b).fuse = t.fuse := rfl
@[simp] theorem State.keeping_pwr (t s : State) (b : Brx) : (t.keeping s b).pwr = t.pwr := rfl
@[simp] theorem State.keeping_side (t s : State) (b : Brx) : (t.keeping s b).side = t.side := rfl
@[simp] theorem State.keeping_store (t s : State) (b : Brx) : (t.keeping s b).store = t.store := rfl
@[simp] theorem State.keeping_jobs (t s : State) (b : Brx) : (t.keeping s b).jobs = t.jobs := rfl
@[simp] theorem State.keeping_tor (t s : State) (b : Brx) : (t.keeping s b).tor = t.tor := rfl
@[simp] theorem State.keeping_pair (t s : State) (b : Brx) : (t.keeping s b).pair = t.pair := rfl
@[simp] theorem State.keeping_host (t s : State) (b : Brx) : (t.keeping s b).host = t.host := rfl
@[simp] theorem State.keeping_acc (t s : State) (b : Brx) : (t.keeping s b).acc = t.acc := rfl
@[simp] theorem State.keeping_upd (t s : State) (b : Brx) : (t.keeping s b).upd = t.upd := rfl
@[simp] theorem State.keeping_stm (t s : State) (b : Brx) : (t.keeping s b).stm = t.stm := rfl
@[simp] theorem State.keeping_asy (t s : State) (b : Brx) : (t.keeping s b).asy = t.asy := rfl
@[simp] theorem State.keeping_mem (t s : State) (b : Brx) : (t.keeping s b).mem = t.mem := rfl
@[simp] theorem State.keeping_now (t s : State) (b : Brx) : (t.keeping s b).now = t.now := rfl
@[simp] theorem State.keeping_outbox (t s : State) (b : Brx) : (t.keeping s b).outbox = t.outbox := rfl
@[simp] theorem State.keeping_fresh (t s : State) (b : Brx) : (t.keeping s b).fresh = t.fresh := rfl

end Sys2Proof.Machine
end

