-- ==== Sys2Proof/Laws/Slice.lean ====
section
/-! SUPPORT. The registers of an update slice: what is read after a write, for scalars, masks and the lanes of a vector. -/
namespace Sys2Proof.Machine

/-! ### Scalars and masks -/

theorem Slice.sget_sput (x : Slice) (r q : Nat) (v : W64) :
    (x.sput r v).sget q = if q = 0 then 0 else if q = r then v else x.sget q := by
  unfold Slice.sput Slice.sget
  by_cases hq : q = 0
  · simp [hq]
  · by_cases hr : r = 0
    · have : q ≠ r := by omega
      simp [hq, hr]
    · by_cases h : q = r
      · subst h; simp [hq]
      · simp [hq, hr, h, Tbl.get_set_of_ne _ _ _ h]

theorem Slice.mget_mput (x : Slice) (r q : Nat) (v : BitVec 1024) :
    (x.mput r v).mget q = if q = 0 then BitVec.allOnes 1024 else if q = r then v else x.mget q := by
  unfold Slice.mput Slice.mget
  by_cases hq : q = 0
  · simp [hq]
  · by_cases hr : r = 0
    · have : q ≠ r := by omega
      simp [hq, hr]
    · by_cases h : q = r
      · subst h; simp [hq]
      · simp [hq, hr, h, Tbl.get_set_of_ne _ _ _ h]

/-- A write of a scalar register leaves the rest of the slice. -/
theorem Slice.sput_frame (x : Slice) (r : Nat) (v : W64) : x.sput r v = { x with s := (x.sput r v).s } := by
  unfold Slice.sput; split <;> rfl

theorem Slice.mput_frame (x : Slice) (r : Nat) (v : BitVec 1024) : x.mput r v = { x with m := (x.mput r v).m } := by
  unfold Slice.mput; split <;> rfl

/-! ### Lanes -/

/-- Numbers of `w` bits side by side, the first in the lowest bits. -/
def packLanes (w : Nat) : List Nat → Nat
  | [] => 0
  | a :: l => a % 2 ^ w + 2 ^ w * packLanes w l

theorem packLanes_sum (w : Nat) (l : List Nat) (k : Nat) :
    ((l.zipIdx k).map fun e => e.1 % 2 ^ w * 2 ^ (w * e.2)).sum = 2 ^ (w * k) * packLanes w l := by
  induction l generalizing k with
  | nil => simp [packLanes]
  | cons a l ih =>
    simp only [List.zipIdx_cons, List.map_cons, List.sum_cons, packLanes, ih (k + 1)]
    rw [show w * (k + 1) = w * k + w from Nat.mul_succ w k, Nat.pow_add, Nat.mul_add, Nat.mul_comm (a % 2 ^ w), Nat.mul_assoc]

theorem packLanes_lt (w : Nat) (l : List Nat) : packLanes w l < 2 ^ (w * l.length) := by
  induction l with
  | nil => simp [packLanes]
  | cons a l ih =>
    simp only [packLanes, List.length_cons]
    rw [show w * (l.length + 1) = w + w * l.length by rw [Nat.mul_succ, Nat.add_comm], Nat.pow_add]
    have h := Nat.mod_lt a (Nat.two_pow_pos w)
    calc a % 2 ^ w + 2 ^ w * packLanes w l < 2 ^ w + 2 ^ w * packLanes w l := by omega
      _ = 2 ^ w * (packLanes w l + 1) := by rw [Nat.mul_succ, Nat.add_comm]
      _ ≤ 2 ^ w * 2 ^ (w * l.length) := Nat.mul_le_mul_left _ ih

theorem packLanes_cut (w : Nat) (l : List Nat) (i : Nat) (h : i < l.length) :
    packLanes w l / 2 ^ (w * i) % 2 ^ w = l.getD i 0 % 2 ^ w := by
  induction l generalizing i with
  | nil => simp at h
  | cons a l ih =>
    have hp := Nat.two_pow_pos w
    cases i with
    | zero => simp [packLanes]
    | succ i =>
      have hi : i < l.length := by simpa using h
      simp only [packLanes, List.getD_cons_succ]
      rw [show w * (i + 1) = w + w * i by rw [Nat.mul_succ, Nat.add_comm], Nat.pow_add, ← Nat.div_div_eq_div_mul,
        Nat.add_mul_div_left _ _ hp, Nat.div_eq_of_lt (Nat.mod_lt a hp), Nat.zero_add, ih i hi]

/-- Lanes put into a register are read from it. -/
theorem cut_pack (w : Nat) (l : List Nat) (hw : w * l.length = 16384) :
    ((List.range l.length).map fun i =>
      (BitVec.ofNat 16384 ((l.zipIdx.map fun e => e.1 % 2 ^ w * 2 ^ (w * e.2)).sum)).toNat / 2 ^ (w * i) % 2 ^ w) =
      l.map (· % 2 ^ w) := by
  have hs : (l.zipIdx.map fun e => e.1 % 2 ^ w * 2 ^ (w * e.2)).sum = packLanes w l := by
    simpa using packLanes_sum w l 0
  have hlt : packLanes w l < 2 ^ 16384 := hw ▸ packLanes_lt w l
  rw [hs, BitVec.toNat_ofNat, Nat.mod_eq_of_lt hlt]
  apply List.ext_getElem
  · simp
  · intro i h1 h2
    have hi : i < l.length := by simpa using h1
    simp [packLanes_cut w l i hi, List.getD_eq_getElem?_getD, hi]

theorem modeOk_lt {mode : Nat} {l : List Nat} (h : modeOk mode l = true) : mode < 4 := by
  unfold modeOk at h
  simp only [Bool.and_eq_true, decide_eq_true_eq] at h
  exact h.1

/-- A vector operand has as many lanes as its mode says (R123). -/
theorem Slice.vget_length (x : Slice) (mode r : Nat) (h : mode < 4) : (x.vget mode r).length = modeElems mode := by
  unfold Slice.vget modeWidth modeElems
  have h4 : mode = 0 ∨ mode = 1 ∨ mode = 2 ∨ mode = 3 := by omega
  rcases h4 with rfl | rfl | rfl | rfl <;> simp

theorem Slice.vput_v (x : Slice) (mode r : Nat) (l : List Nat) : x.vput mode r l = { x with v := (x.vput mode r l).v } := by
  unfold Slice.vput; split <;> rfl

@[simp] theorem Slice.vput_pc (x : Slice) (mode r : Nat) (l : List Nat) : (x.vput mode r l).pc = x.pc := by
  rw [Slice.vput_v]

@[simp] theorem Slice.vput_loops (x : Slice) (mode r : Nat) (l : List Nat) : (x.vput mode r l).loops = x.loops := by
  rw [Slice.vput_v]

/-- A write of a vector operand leaves the other registers. -/
theorem Slice.vreg_vput_of_ne (x : Slice) (mode r q : Nat) (l : List Nat) (h : q ≠ r) (h3 : mode = 3 → q ≠ r + 1) :
    (x.vput mode r l).vreg q = x.vreg q := by
  unfold Slice.vput Slice.vreg
  split
  · rename_i hm
    simp [Tbl.get_set_of_ne _ _ _ (h3 hm), Tbl.get_set_of_ne _ _ _ h]
  · simp [Tbl.get_set_of_ne _ _ _ h]

/-- The lanes of an operand that was written. -/
theorem Slice.vget_vput (x : Slice) (mode r : Nat) (l : List Nat) (h : mode < 4) (hl : l.length = modeElems mode) :
    (x.vput mode r l).vget mode r = l.map (· % 2 ^ modeWidth mode) := by
  have h4 : mode = 0 ∨ mode = 1 ∨ mode = 2 ∨ mode = 3 := by omega
  rcases h4 with rfl | rfl | rfl | rfl
  · have hl' : l.length = 512 := hl
    have := cut_pack 32 l (by omega)
    rw [hl'] at this
    simpa [Slice.vget, Slice.vput, Slice.vreg, modeWidth] using this
  · have hl' : l.length = 1024 := hl
    have := cut_pack 16 l (by omega)
    rw [hl'] at this
    simpa [Slice.vget, Slice.vput, Slice.vreg, modeWidth] using this
  · have hl' : l.length = 1024 := hl
    have := cut_pack 16 l (by omega)
    rw [hl'] at this
    simpa [Slice.vget, Slice.vput, Slice.vreg, modeWidth] using this
  · have hl' : l.length = 512 := hl
    have h1 : (l.take 256).length = 256 := by simp [hl']
    have h2 : (l.drop 256).length = 256 := by simp [hl']
    have c1 := cut_pack 64 (l.take 256) (by omega)
    have c2 := cut_pack 64 (l.drop 256) (by omega)
    rw [h1] at c1
    rw [h2] at c2
    have e : l.map (· % 2 ^ 64) = (l.take 256).map (· % 2 ^ 64) ++ (l.drop 256).map (· % 2 ^ 64) := by
      rw [← List.map_append, List.take_append_drop]
    have hv : modeWidth 3 = 64 := rfl
    rw [hv, e, ← c1, ← c2]
    simp [Slice.vget, Slice.vput, Slice.vreg, modeWidth, Tbl.get_set_of_ne]

end Sys2Proof.Machine
end

