-- ==== Sys2Proof/Tests/Make.lean ====
section
/-! SUPPORT. Small states and operands that the witnesses of the statements share. -/
namespace Sys2Proof.Tests
open Sys2Proof Sys2Proof.Machine

/-- `n` zero bytes with little-endian fields in place: offset, width, value. -/
def fields (n : Nat) (l : List (Nat × Nat × Nat)) : List Byte :=
  l.foldl (fun (b : List Byte) e => putBytes b e.1 (leBytes e.2.1 e.2.2)) (List.replicate n 0)

/-- A control message with a body of `b` bytes, padded to whole flits. -/
def msg (job : W32) (ident : W64) (b : List Byte) : CtlMsg :=
  ⟨0, BitVec.ofNat 16 b.length, job, ident, b ++ List.replicate ((32 - (16 + b.length) % 32) % 32) 0⟩

/-- The same with the repeat flag. -/
def again (m : CtlMsg) : CtlMsg := { m with flags := 1 }

/-- A packet. -/
def packet (kind tag gen : Byte) (seq job : W32) (src dst : W16) (b : List Byte) : Packet :=
  ⟨⟨kind, 0, tag, gen, BitVec.ofNat 32 b.length, seq, job, src, dst, 0, 0⟩, b⟩

/-- A command packet. -/
def cmd (job : W32) (id : W64) (p : List Byte) : CmdPkt := ⟨1, 0, job, id, 0, BitVec.ofNat 16 p.length, 0, 0, 0, p⟩

/-- A descriptor: one plane of binary32, one layer of 16,384 elements, one kernel, one profile, one tray, gradients in binary32. -/
def desc (id : Nat) : List Byte :=
  fields 416 ([(0, 2, 0x90), (2, 2, 1), (4, 4, id), (8, 2, 1), (10, 2, 1), (12, 1, 1), (13, 1, 1), (14, 1, 1), (15, 1, 1), (0x10, 1, 1),
    (0x11, 7, 2 ^ 56 - 1), (0x18, 8, 16384), (0x21, 1, 1), (0x30, 16, 2 ^ 128 - 1), (128 + 8, 4, 16384), (176, 2, 1),
    (288, 2, 0xFFFF), (290, 1, 0xFF), (291, 4, 0xFFFFFFFF), (295, 1, 0x10), (296, 8, 1), (304, 4, 0x3F800000), (308, 4, 0x3F800000),
    (312, 4, 0x3F000000), (316, 4, 0x40000000), (324, 4, 0xFFFFFFFF), (332, 2, 0xFFFF), (335, 1, 0xFF)] ++
    (List.range 8).flatMap fun i => [(224 + 8 * i, 1, 1), (226 + 8 * i, 2, 1)])

/-- A layer schedule in which site 0 streams the layer in one entry. -/
def sched : List Byte := fields 80 [(0, 4, 1), (64 + 8, 4, 16384), (64 + 14, 1, 1), (64 + 15, 1, 1)]

/-- Job 1 in slot 0, running, with state of step 4. -/
def job1 : Job := { Job.staged 0 (desc 1) sched with
  phase := .running, admittedSites := 1,
  strata := { Strata.empty with committed := { Stratum.empty with step := 4, map := [(0, 7)] }, held := true } }

/-- Its step 5, open. -/
def step5 : OpenStep := OpenStep.opened 5 .open 0x3F800000 0

/-- Job 1 with step 5 open. -/
def job15 : Job := { job1 with open_ := [step5] }

/-- A controller that runs: power, the control complex, the peloton table of the job, a spoke and the pair link up. -/
def hub : State := { State.reset with
  pwr.released := true, pwr.pwrGood := true, pwr.domOn := BitVec.allOnes 64, host.busMaster := true, tor.position := some 0
  tor.peloton := [(0, ⟨1, 1, 0, [0]⟩)]
  ports := [(0, Port.init .active), (8, Port.init .active)] }

/-- The same with job 1 and its open step. -/
def busy : State := { hub with jobs := [(0, job15)] }

/-- The same alone: the partner has failed. -/
def alone : State := { busy with pair.role := .sole, pair.partnerFailed := true }

end Sys2Proof.Tests
end

