-- ==== Sys2Proof/Tests/Slice0.lean ====
section
/-! SUPPORT. The author's own tests: ill-formed commands, the words of the slice instructions written out bit by bit, the step, and worked
examples of the spec. -/
namespace Sys2Proof.Tests
set_option Elab.async false
open Sys2Proof Sys2Proof.Machine

/-! ### Well-formed commands: one term for each check that the check refuses -/

/-- A command packet with `n` bytes of parameters. -/
def pkt (n : Nat) : CmdPkt := ⟨1, 0, 0, 1, 0, BitVec.ofNat 16 n, 0, 0, 0, List.replicate n 0⟩

/-- A control message with `n` bytes after its envelope. -/
def ctl (n : Nat) : CtlMsg := ⟨0, BitVec.ofNat 16 n, 0, 0, List.replicate n 0⟩

/-- A packet that gives `len` bytes of content and holds `n`. -/
def packetOf (len n : Nat) : Packet := ⟨⟨1, 0, 0, 0, BitVec.ofNat 32 len, 0, 0, 0, 0, 0, 0⟩, List.replicate n 0⟩

/-- A frame with `n` empty slots and `e` wrong symbols. -/
def frameOf (n e : Nat) : Frame := ⟨List.replicate e 0, ⟨0, 0, 0, 0, 0⟩, List.replicate n FlitSlot.idle⟩

theorem test_wf_params : Instr.wf (.noop 0 (pkt 192)) = true ∧ Instr.wf (.noop 0 (pkt 193)) = false := by decide +kernel
theorem test_wf_packet : Instr.wf (.collUp (packetOf 32 32)) = true ∧ Instr.wf (.collUp (packetOf 33 32)) = false := by decide +kernel
theorem test_wf_message : Instr.wf (.admitSite 0 (ctl 48)) = true ∧ Instr.wf (.admitSite 0 (ctl 47)) = false := by decide +kernel
theorem test_wf_frame : Instr.wf (.frameRx 0 (frameOf 23 640)) = true ∧ Instr.wf (.frameRx 0 (frameOf 24 0)) = false ∧
    Instr.wf (.frameRx 0 (frameOf 23 641)) = false := by decide +kernel
theorem test_wf_slot_write : Instr.wf (.hostSlotWrite 0 252 [0, 0, 0, 0]) = true ∧
    Instr.wf (.hostSlotWrite 0 253 [0, 0, 0, 0]) = false := by decide +kernel
theorem test_wf_window : Instr.wf (.windowPageAccess 0 0xFFFFFFC 4 none) = true ∧ Instr.wf (.windowPageAccess 0 0xFFFFFFD 4 none) = false ∧
    Instr.wf (.windowPageAccess 0 0 4 (some [1, 2, 3])) = false := by decide +kernel
theorem test_wf_repair_copy : Instr.wf (.repairCopyRx [0]) = false := by decide +kernel
theorem test_wf_thermal : Instr.wf (.thermalSample 127) = true ∧ Instr.wf (.thermalSample 128) = false ∧
    Instr.wf (.thermalSample (-129)) = false := by decide +kernel
theorem test_wf_announce : Instr.wf (.ptpAnnounce 0 (List.replicate 10 0)) = true ∧
    Instr.wf (.ptpAnnounce 0 (List.replicate 9 0)) = false := by decide +kernel
theorem test_wf_bist : Instr.wf (.bistDone (List.replicate 72 0)) = true ∧ Instr.wf (.bistDone []) = false := by decide +kernel

/-! ### Words of the update slices (R126, R127), one for each form -/

/-- Form V: VFMA v3 = v1·v2 + v31 under mask 5 in mode 3. -/
theorem test_word_v : decodeSlice 7 (0b000100#6 ++ 0b00011#5 ++ 0b00001#5 ++ 0b00010#5 ++ 0b11111#5 ++ 0b101#3 ++ 0b011#3) =
    .vfma 7 3 1 2 31 5 3 := by decide +kernel
/-- Form VS: VADDS v4 = v6 + s9. -/
theorem test_word_vs : decodeSlice 0 (0b010000#6 ++ 0b00100#5 ++ 0b00110#5 ++ 0b00000#5 ++ 0b01001#5 ++ 0b000#3 ++ 0b000#3) =
    .vadds 0 4 6 0 9 0 0 := by decide +kernel
/-- Form C: VCVT v2 from v1, FR byte 0x92, selector 0xC1. -/
theorem test_word_c : decodeSlice 1 (0b001110#6 ++ 0b00010#5 ++ 0b00001#5 ++ 0b10010010#8 ++ 0b11000001#8) = .vcvt 1 2 1 0x92 0xC1 := by
  decide +kernel
/-- Form T: VLD v8, s3, stream 15, selector 2. -/
theorem test_word_t : decodeSlice 2 (0b100000#6 ++ 0b01000#5 ++ 0b00011#5 ++ 0b1111#4 ++ 0b00000010#8 ++ 0b0000#4) = .vld 2 8 3 15 2 0 := by
  decide +kernel
/-- Form D: RDGET s5, slot 7, field 4. -/
theorem test_word_d : decodeSlice 3 (0b101011#6 ++ 0b00101#5 ++ 0b00000#5 ++ 0b111#3 ++ 0b100#3 ++ 0b0000#4 ++ 0b000#3 ++ 0b000#3) =
    .rdget 3 5 0 7 4 0 0 0 := by decide +kernel
/-- Form S: SFOP s1 = s2 op s3, sub-op 7. -/
theorem test_word_s : decodeSlice 4 (0b110011#6 ++ 0b00001#5 ++ 0b00010#5 ++ 0b00011#5 ++ 0b00111#5 ++ 0b000000#6) = .sfop 4 1 2 3 7 0 := by
  decide +kernel
/-- Form SI: SADDI s30 = s31 + 0x8000. -/
theorem test_word_si : decodeSlice 5 (0b110001#6 ++ 0b11110#5 ++ 0b11111#5 ++ 0x8000#16) = .saddi 5 30 31 0x8000 := by decide +kernel
/-- Form B: BR on s6, condition 3, back by 2. -/
theorem test_word_b : decodeSlice 6 (0b111001#6 ++ 0b00110#5 ++ 0b011#3 ++ 0b00#2 ++ 0xFFFE#16) = .br 6 6 3 0 0xFFFE := by decide +kernel
/-- An opcode that the table does not list. -/
theorem test_word_illegal : decodeSlice 6 (0b111111#6 ++ 0#26) = .illegal 6 (0b111111#6 ++ 0#26) := by decide +kernel
theorem test_table_words : decodeTableWord 32 0xC7DF8000 = none ∧ State.reset.withFetchWord 32 0xC7DF8000 = State.reset := by decide +kernel

/-! ### The step -/

theorem test_step_front : (step { State.reset with pending := [.helloTx, .brxCapLock] }) =
    exec .helloTx { State.reset with pending := [.brxCapLock] } := rfl
theorem test_step_idle : ∃ t, step State.reset = .next t ∧ t.now = 1 := ⟨_, rfl, by decide +kernel⟩

/-! ### Worked examples of the spec -/

/-- R103: 1 + 2^−8 to bfloat16 under SR gives 1 + 2^−7 exactly when r ≥ 2^31. -/
theorem test_stochastic : (fpConvert fmtBf16 false 2 (2 ^ 31) (.fin false 257 (-8))).1 = 0x3F81 ∧
    (fpConvert fmtBf16 false 2 (2 ^ 31 - 1) (.fin false 257 (-8))).1 = 0x3F80 := by decide +kernel
/-- R101: an FP4 byte holds element 2i in bits 3:0; four FP6 elements take 3 bytes. -/
theorem test_packed : packBits 4 [0x3, 0xA] = [0xA3] ∧ (packBits 6 [1, 2, 3, 63]).length = 3 := by decide +kernel

/-- The digits of a zero message and its checksum of 960 (RFC 8391); a key of another parameter set verifies nothing (log entry 11). -/
theorem test_xmssDigits : wotsDigits (List.replicate 32 0) = List.replicate 64 0 ++ [3, 12, 0] := by decide +kernel
theorem test_xmssOtherSet : xmssVerify 1 (List.replicate 68 0) [] (List.replicate 2820 0) = false := by decide +kernel

end Sys2Proof.Tests
end

