-- ==== Sys2Proof/Tests/WitnessHost.lean ====
section
/-! SUPPORT. States and operands that meet the hypotheses of the statements on the host interface: registers, commands, slots, windows, the
ring. KERNEL_LOAD, PROFILE_LOAD, EVR_CLEAR and FW_STAGE, which carry a signature, are in Tests/WitnessSigned.lean. -/
namespace Sys2Proof.Tests
set_option Elab.async false
open Sys2Proof Sys2Proof.Machine

/-! ### Registers -/

/-- Offsets: misaligned, in a hole, an RW register, a counter that clears on a read, and both halves of a pair with a shadow. -/
theorem witness_registerReads : (3 : BitVec 24).toNat % 4 ≠ 0 ∧ hub.regAt 0x10000 = none ∧
    hub.regAt 0xC0014 = some (.torHelloInterval, 0, 0) ∧ Reg.hi? .torHelloInterval = none ∧ Reg.lo? .torHelloInterval = none ∧
    (Reg.row .torHelloInterval).maskOf .rc = 0 ∧ hub.regAt 0xC0020 = some (.torAlarmsOrig, 0, 0) ∧ Reg.hi? .torAlarmsOrig = none ∧
    Reg.lo? .torAlarmsOrig = none ∧ hub.regAt 0x18 = some (.capSerialLo, 0, 0) ∧ Reg.hi? .capSerialLo = some .capSerialHi ∧
    hub.regAt 0x1C = some (.capSerialHi, 0, 0) ∧ Reg.lo? .capSerialHi = some .capSerialLo ∧ Reg.hi? .capSerialHi = none ∧
    Tbl.has (State.shadow { hub with shadow := [(0x18, 5)] }) (0x1C - 4) = true ∧ Tbl.has hub.shadow (0x1C - 4) = false := by
  decide +kernel
/-- The first offset after the MSI-X table, and the last before it. -/
theorem witness_registerHoles : hub.regAt 0x149008 = none ∧ hub.regAt 0x147FFC = none := by decide +kernel
theorem witness_registerWrites : hub.regAt 0xC0014 = some (.torHelloInterval, 0, 0) ∧ Reg.writeActs .torHelloInterval = false ∧
    (∃ a, a = 0x100010 ∧ hub.regAt a = some (.secIdIndexLo, 0, 0)) ∧ Reg.hi? .secIdIndexLo = some .secIdIndexHi ∧
    Reg.writeActs .secIdIndexLo = false ∧ Reg.writeActs .secIdIndexHi = false ∧ hub.regAt 0x100014 = some (.secIdIndexHi, 0, 0) ∧
    Tbl.has (State.heldLo { hub with heldLo := [(0x100010, 5)] }) (0x100014 - 4) = true ∧ Tbl.has hub.heldLo (0x100014 - 4) = false :=
  ⟨by decide +kernel, by decide +kernel, ⟨_, rfl, by decide +kernel⟩, by decide +kernel⟩

/-! ### Commands -/

/-- A window reference of the first window: page and bytes. -/
def wref (page len : Nat) : List Byte := leBytes 1 0 ++ leBytes 1 0 ++ leBytes 2 page ++ leBytes 4 len

/-- Bedrock slots: two of the least size. -/
def slotTable : List Byte := fields 32 [(8, 8, 2 ^ 21 + 128), (24, 8, 2 ^ 21 + 128)]

/-- A dedup table of one tray and one shard. -/
def dedup : List Byte := fields 84 [(0, 2, 0x72), (2, 2, 1), (4, 4, 1), (8, 2, 1), (10, 2, 1), (12, 4, 1), (0x4C, 4, 1), (0x50, 1, 1)]

/-- The peloton table of job 2 in slot 1, without its digest. -/
def pelTable : List Byte := fields 66 [(0, 2, 0x60), (2, 2, 1), (4, 4, 2), (8, 2, 1), (10, 2, 1), (13, 1, 1)]

/-- The first window: SCRATCH, its first 16 pages DEVICE, with the objects that the commands name in its pages. -/
def window0 : Window := ⟨1, 0, (List.range 128).map fun i => 64 + i, List.range 16⟩

/-- What stands in page `p` of the first window. -/
def inPage (p : Nat) (b : List Byte) (m : Memory) : Memory := memWriteBytes m (frameAddr 64 + 65536 * p) b

/-- A controller that runs, with the window. -/
def withWindow (s : State) : State := { s with
  host.windows := [(0, window0)]
  mem := inPage 4 sched (inPage 3 (desc 2) (inPage 2 dedup (inPage 1 slotTable []))) }

/-- A command packet for a running job. -/
def cmdJ (job : W32) (id : W64) (p : List Byte) : CmdPkt := { cmd job id p with gen := 1 }

/-- Job 1 in another state. -/
def inPhase (p : JobPhase) : Job := { job1 with phase := p }

/-- The leading side after its partner has failed, with the window, targets and a job. -/
def leader (j : Job) : State := withWindow { hub with
  pair.partnerFailed := true, jobs := [(0, j)], host.targets := some ⟨0, [(0, 2 ^ 22), (0, 2 ^ 22)], 0, []⟩ }

theorem witness_queries : (withWindow hub).admits 0x0001 0 (cmd 0 1 []) = true ∧ (withWindow hub).admits 0x0002 255 (cmd 0 1 (leBytes 8 9)) = true ∧
    (leader job1).admits 0x0003 0 (cmdJ 1 1 (wref 0 128)) = true ∧ ((leader job1).job? ((cmdJ 1 1 (wref 0 128)).jobId 3)).isSome = true ∧
    (withWindow hub).admits 0x0004 0 (cmd 0 1 ([7, 0, 0, 0, 0, 0, 0, 0] ++ wref 0 256)) = true ∧
    ((State.host { hub with host.siteCap := [(7, [])] }).siteCap.find? fun e => e.1 == 7).isSome = true := by decide +kernel
/-- The commands of class L, the greatest operands that their rows admit among them. -/
theorem witness_sideCommands :
    let h := withWindow hub
    let held := leader (inPhase .held)
    h.takes 0x0005 0 (cmd 0 1 ([7, 64, 0, 0] ++ leBytes 4 8 ++ wref 0 256)) = true ∧
    h.takes 0x0101 0 (cmd 0 1 ([63, 1, 0, 0] ++ leBytes 4 0)) = true ∧ h.takes 0x0102 0 (cmd 0 1 [63]) = true ∧
    h.takes 0x0104 0 (cmd 0 1 [7]) = true ∧ h.takes 0x0106 0 (cmd 0 1 [63]) = true ∧ h.takes 0x0107 0 (cmd 0 1 [255, 2]) = true ∧
    h.takes 0x0108 0 (cmd 0 1 [63, 2]) = true ∧ h.takes 0x0109 0 (cmd 0 1 (leBytes 8 64 ++ wref 1 32)) = true ∧
    held.takes 0x010A 0 (cmd 1 1 [255, 15, 0, 0]) = true ∧ held.takes 0x010B 0 (cmd 1 1 [255, 15, 3]) = true ∧
    State.takes { h with pair.role := .withdrawn } 0x010C 0 (cmd 0 1 []) = true ∧
    h.takes 0x010D 0 (cmd 0 1 ([1, 0, 255, 15, 0, 0, 0, 0] ++ wref 0 65536)) = true ∧
    h.takes 0x010E 0 (cmd 0 1 ([29, 0, 0, 0, 0, 0, 0, 0] ++ wref 0 64)) = true ∧
    h.takes 0x0111 255 (cmd 0 (2 ^ 64 - 2) (List.replicate 32 9 ++ wref 0 4096)) = true := by decide +kernel
/-- Kernels wait while an update runs, or while a step has had a layer updated. -/
theorem witness_kernelWaits : hub.kernelsIdle = true ∧ hub.host.kernelDue = [] ∧ busy.kernelsIdle = true ∧
    (State.kernelsIdle { busy with upd.run := some ⟨1, 5, 0, 0, 0, 0, [], false⟩ }) = false ∧
    (State.kernelsIdle { busy with jobs := [(0, { job15 with open_ := [{ step5 with ready := [0] }] })] }) = false := by decide +kernel
/-- The signed objects: the packets pass the form and role checks. -/
theorem witness_signedCommands : ([(0x0103, [7, 0, 0, 0, 0, 0, 0, 0] ++ wref 5 1024), (0x0105, [63, 0, 0, 0, 0, 0, 0, 0] ++ wref 5 1024),
    (0x010F, wref 5 1024), (0x0110, wref 5 1024)] : List (Nat × List Byte)).all (fun e =>
      formCode e.1 ((cmd 0 1 e.2).bytes e.1) == 0 && (opInfo e.1).any fun q => hub.roleAdmits q) = true := by decide +kernel
theorem witness_alone : (leader job1).partnerJournals = false ∧ (leader job1).pair.partnerFailed = true ∧ (leader job1).leads = true := by
  decide +kernel
/-- The commands of class P on a running job, or without one. -/
theorem witness_pairCommands :
    let a := leader job15
    let none_ := { leader job15 with jobs := [] }
    let flags := Job.strata { job1 with strata := { job1.strata with assayed := { Stratum.empty with step := 3 }, retained := [{ Stratum.empty with step := 3 }] } }
    a.takes 0x0201 0 (cmd 0 1 [15, 0, 0, 4]) = true ∧
    a.takes 0x0202 0 (cmd 2 1 ([1, 0, 0, 0, 0, 0, 0, 0] ++ wref 3 416 ++ wref 4 80)) = true ∧
    a.takes 0x0205 0 (cmdJ 1 1 [1]) = true ∧ a.takes 0x0206 0 (cmdJ 1 1 ([0, 0, 0, 0, 0, 0, 0, 0] ++ wref 4 80)) = true ∧
    a.takes 0x0207 0 (cmdJ 1 1 (List.replicate 64 0)) = true ∧
    (leader { job1 with strata := flags }).takes 0x0208 0 (cmdJ 1 1 (leBytes 8 3 ++ leBytes 8 4)) = true ∧
    a.takes 0x0211 0 (cmd 0 1 ([7, 0, 0, 0] ++ leBytes 4 8 ++ leBytes 4 8)) = true ∧ a.takes 0x0212 0 (cmd 0 1 [7]) = true ∧
    a.takes 0x0213 0 (cmdJ 1 1 (leBytes 8 1 ++ leBytes 4 86400 ++ leBytes 4 0 ++ wref 2 84)) = true ∧
    a.takes 0x0214 0 (cmdJ 1 1 (leBytes 8 1 ++ leBytes 4 86400 ++ leBytes 4 604800 ++ leBytes 4 255 ++ leBytes 4 0 ++ wref 2 84)) = true ∧
    a.takes 0x0215 0 (cmdJ 1 1 []) = true ∧ State.takes { none_ with pwr.strapsAt.spare := true } 0x0210 0 (cmd 0 1 []) = true := by
  decide +kernel
/-- Those on a job that is staged, held, covered by a buddy, or in a bedrock. -/
theorem witness_pairCommandsHeld :
    let h := leader (inPhase .held)
    h.takes 0x0209 0 (cmd 1 1 (leBytes 4 60000)) = true ∧ h.takes 0x020A 0 (cmd 1 1 (leBytes 4 60000)) = true ∧
    h.takes 0x020B 0 (cmd 1 1 [7, 0, 255, 255]) = true ∧
    h.takes 0x020C 0 (cmd 1 1 ([7, 0, 0, 0, 0, 0, 0, 0] ++ wref 0 1024 ++ List.replicate 32 0)) = true ∧
    (leader (inPhase .staged)).takes 0x0204 0 (cmd 1 1 []) = true ∧ (h.job? 1).isSome = true := by decide +kernel
/-- Those that need a buddy, a bedrock, a job to restore, and a new peloton table. -/
theorem witness_pairCommandsMore :
    let covered := leader { job1 with desc := putBytes (desc 1) 335 [1] }
    let bed : Bedrock := ⟨1, 0, true, 6, none, dedup, 60, false, false, [], [], [], false, [], none, false⟩
    State.takes { covered with tor.peloton := covered.tor.peloton ++ [(1, ⟨1, 1, 2, [0, 1]⟩)] } 0x020E 0 (cmdJ 1 1 []) = true ∧
    (leader { job1 with bed := some bed }).takes 0x0216 0 (cmdJ 1 1 []) = true ∧
    (leader { inPhase .staged with desc := putBytes (desc 1) 295 [0x30] }).takes 0x0217 0
      (cmd 1 1 ([1, 0, 0, 0] ++ leBytes 4 86400 ++ wref 5 4096 ++ wref 6 4096)) = true ∧
    State.takes { leader job1 with mem := inPage 7 (putBytes pelTable 0x10 (leBytes 32 (pelOf pelTable).digest.toNat)) [] } 0x0203 0
      (cmd 0 1 (wref 7 66)) = true := by decide +kernel
/-- A spare may take the position between two trays that it sees. -/
theorem witness_positionAssign :
    let n : Neigh := { Neigh.init with heard := true, posValid := true, position := 0x100 }
    State.takes { leader job1 with jobs := [], pwr.strapsAt.spare := true, tor.position := none, tor.dimX := 2, tor.stable := true
                                   tor.neigh := [(0, { n with port := 1 }), (1, { n with port := 0 })]
                                   ports := [(9, Port.init .active), (10, Port.init .active)] } 0x020F 0 (cmd 0 1 [0, 0]) = true := by
  decide +kernel
/-- Beside a partner: a command of class P, and the three that only a pair runs. -/
theorem witness_pairBeside : (withWindow hub).partnerJournals = true ∧ (withWindow hub).takes 0x0201 0 (cmd 0 1 [15, 0, 0, 4]) = true ∧
    hostOp (.regionQuota 0 (cmd 0 1 [15, 0, 0, 4])) = some (0x0201, 0, cmd 0 1 [15, 0, 0, 4]) ∧
    ((opInfo 0x0201).any fun q => q.cls == .pair) = true ∧ (withWindow hub).takes 0x0218 0 (cmd 0 1 []) = true ∧
    (withWindow hub).takes 0x0219 0 (cmd 0 1 [1]) = true ∧ hub.sideB = false ∧ hub.pair.fenced = false ∧
    (let j := { job1 with strata := { job1.strata with committed := { job1.strata.committed with poisoned := [0] } } }
     j.repairable false 0 4 = true ∧ (State.takes { withWindow busy with jobs := [(0, j)] } 0x020D 0
       (cmdJ 1 1 (leBytes 4 0 ++ leBytes 4 0 ++ leBytes 8 4))) = true) := by decide +kernel
/-- Refusals: a DEVICE slot, firmware that does not run, a bad form, a wrong role, no link, a repeat, an ID at the floor, a full journal. -/
theorem witness_refusals : (State.host { hub with host.device := 1 }).device.getLsbD 0 = true ∧ State.reset.hubRuns = false ∧
    formCode 0x0101 ((cmd 0 1 []).bytes 0x0101) ≠ 0 ∧ formCode 0x0102 ((cmd 0 1 [63]).bytes 0x0102) = 0 ∧
    (opInfo 0x010C).any (fun q => !hub.roleAdmits q) = true ∧
    (State.host { hub with host.linkOk := false }).linkOk = false ∧
    (State.entry? { hub with host.journal := [⟨0, 1, 0, 3, true, [], []⟩] } 1).isSome = true ∧ hub.entry? 1 = none ∧
    (1 : W64).toNat ≤ (State.host { hub with host.idFloor := 1 }).idFloor.toNat := by decide +kernel

/-! ### Slots, windows and the ring -/

theorem witness_slotsAndWindows :
    let w := withWindow hub
    ([1, 2, 3, 4] : List Byte).length = 4 ∧ (252 : Fin 256).val % 4 = 0 ∧ w.host.device.getLsbD 255 = false ∧
    w.window? ((0 : Fin 16384).val / 256) = some window0 ∧ window0.kind = 1 ∧ w.sec.recovery = false ∧ w.window? 0 = some window0 ∧
    w.pageFlag 0 4095 = 0 ∧ w.pageFlag 0 15 = 1 ∧ State.pageFlag { w with host.windows := [(0, ⟨2, 1, [64], []⟩)] } 0 0 = 2 ∧
    w.pageFlag 63 0 = 3 := by decide +kernel
theorem witness_ring : hub.host.cqQueue = [] ∧ hub.host.busMaster = true ∧ hub.fld .hstCtrl 0 1 = 0 ∧ (1 : W32).getLsbD 0 = true ∧
    (let s := hub.wr .hstCtrl 1
     s.fld .hstCtrl 0 1 = 1 ∧ (s.wr .hstCqHead 0).cqRoom = true) ∧ (4 : Fin 7).val < 6 ∧ (6 : Fin 7).val = 6 := by decide +kernel
/-- The slot after the last taken is DEVICE: at the distance of 0, and of 255. -/
theorem witness_slotTake : hub.hubRuns = true ∧ (State.host { hub with host.device := 1 }).device.getLsbD ((hub.host.lastTaken + 1 + 0) % 256) = true ∧
    (State.host { hub with host.lastTaken := 0, host.device := 1 }).device.getLsbD ((0 + 1 + 255) % 256) = true ∧
    hub.slotTaken 0 = false := by decide +kernel

end Sys2Proof.Tests
end

