-- ==== Sys2Proof/Tests/WitnessJob.lean ====
section
/-! SUPPORT. States and operands that meet the hypotheses of the statements on the resilient step, the store, streaming, arbitration and the
assay. -/
namespace Sys2Proof.Tests
set_option Elab.async false
open Sys2Proof Sys2Proof.Machine

/-! ### Gradients -/

/-- A gradient packet of one element of the layer's start, in binary32, for step 5; kind 2 is data, 3 a marker. -/
def grad (kind fmt seq : Nat) (elem : W32) : Packet :=
  packet 2 5 0 (BitVec.ofNat 32 seq) 1 0 0 (fields 64 [(0, 1, kind), (1, 1, fmt), (0x10, 4, 1), (0x18, 8, 5), (32, 4, elem.toNat)])

/-- Job 1 with step 5 confirming and step 6 speculative; its gradients hold in no memory. -/
def job156 : Job := { job1 with open_ := [{ step5 with phase := .confirming }, OpenStep.opened 6 .speculative 0x3F800000 0] }

/-- The packet of a tag that is not open, of another generation, of a repeated sequence number, and of the step to be staged. -/
theorem witness_gradientArrival :
    let p := grad 2 1 0 0x3F800000
    busy.genStale 0 { p.hdr with flags := 8 } = false ∧
    State.genStale { busy with host.siteGen := [(0, 3)] } 0 { p.hdr with flags := 8 } = true ∧ busy.genStale 0 p.hdr = false ∧
    hub.job? p.hdr.jobId = none ∧ job15.tag? 6 = none ∧ job15.tag? p.hdr.tag = some step5 ∧ step5.phase ≠ .speculative ∧
    ((busy.gradIn 1 5 0).seqs.contains p.hdr.seq.toNat) = false ∧ (gradPkt p.content).fmt = job15.gradFormat ∧
    (gradPkt p.content).step = step5.step.toNat ∧ (gradPkt p.content).marker = false ∧
    (gradPkt p.content).elems.any (lossElem (gradPkt p.content).fmt) = false ∧ (gradPkt (grad 3 1 0 0).content).marker = true ∧
    busy.tileAt 1 5 0 0 = none ∧ (State.tileAt { busy with acc.tiles := [(3, ⟨.accum, 1, 5, 0, 0, [], 0, [], [], []⟩)] } 1 5 0 0) = some 3 ∧
    State.genStale { busy with jobs := [(0, job156)] } 0 p.hdr = false ∧ (job156.tag? 6).any (fun o => o.phase == .speculative) = true ∧
    job156.holdUsed + p.content.length < job156.holdGib * 2 ^ 30 ∧
    Job.holdGib { job156 with desc := putBytes job156.desc 294 [0] } * 2 ^ 30 ≤ job156.holdUsed + p.content.length := by decide +kernel
/-- The tile of a layer of one site whose contribution is complete. -/
theorem witness_accumulation :
    let s := { busy with acc := { AccSt.init with tiles := [(3, ⟨.accum, 1, 5, 0, 0, [], 0, [], [], []⟩)], grads := [⟨1, 5, 0, [], [], [(0, 0, 16384)]⟩] } }
    formatMx job15.gradFormat = false ∧ (s.tile 3).state = .accum ∧ (s.tile 3).added < job15.sites.length ∧ job15.sites.length ≤ 8 ∧
    job15.sites.Nodup ∧ (job15.sites.drop (s.tile 3).added).all (fun k => (s.gradIn 1 5 k).covers 0 0 (job15.tileCount 0 0)) = true := by
  decide +kernel

/-- A contribution that fills a slice's staging SRAM, and a job whose hold area is full of site 0's. -/
def staged5 (l : List Nat) : Staged := ⟨1, 5, 0, 0, 0, 1, [], l⟩
def filling (l : List Nat) : State := { busy with acc.staged := [staged5 l], acc.withheld := [(0, 2)] }
def held6 : Job := { job156 with hold := [(0, grad 2 1 0 0)], holdFull := true }

theorem staged5_used (l : List Nat) : (filling l).stagingUsed 0 = (32 * l.length + 7) / 8 := by
  simp [State.stagingUsed, filling, staged5, sliceOf, Staged.bytes, elemBytes, formatMx, fmtBits, formatCode, fpFormat, FpFormat.width]
theorem witness_stagingFull : 2 ^ 23 < (filling (List.replicate (2 ^ 22) 0)).stagingUsed 0 ∧ busy.stagingUsed 0 ≤ 2 ^ 23 ∧
    (0, 2#8) ∈ (filling []).acc.withheld ∧ (2#8).getLsbD 1 = true := by
  refine ⟨?_, by decide +kernel, List.mem_cons_self, by decide +kernel⟩
  rw [staged5_used, List.length_replicate]; decide
theorem witness_creditsWithheld : 1 < (busy.port 0).withhold.length ∧ (State.job? { busy with jobs := [(0, held6)] } held6.id) = some held6 ∧
    held6.holdFull = true ∧ held6.sites.contains 0 = true ∧ (held6.hold.any fun e => e.1 == 0) = true := by decide +kernel
/-- A block of E4M3: a contribution that fits, one with a NaN, and one that leaves the range of an image that is nearly full. -/
theorem witness_blockScaled :
    let x : Bsa := ⟨-2, List.replicate 32 0, 0, false, false⟩
    let c : Nat × List Val := (127, List.replicate 32 (.fin false 1 0))
    let sums := fun (x : Bsa) => (List.range 32).map fun i => x.images.getD i 0 + valRoundInt 0 (valScale (-x.q) (c.2.getD i (.fin false 0 0)))
    x.nan = false ∧ (Bsa.nan { x with nan := true }) = true ∧ c.1 ≠ 0xFF ∧ (c.2.any valNonfinite) = false ∧ x.images.length = 32 ∧ c.2.length = 32 ∧
    ((sums x).all fun v => decide (v.natAbs ≤ 2 ^ 31 - 1)) = true ∧
    ((sums { x with images := List.replicate 32 (2 ^ 31 - 1) }).all fun v => decide (v.natAbs ≤ 2 ^ 31 - 1)) = false ∧ x.repeats < 8 ∧
    8 ≤ (Bsa.repeats { x with repeats := 8 }) := by decide +kernel

/-! ### Update and confirmation -/

theorem witness_oldest : (busy.job? 1 == some job15) = true ∧ job15.open_.head? = some step5 := by decide +kernel
theorem witness_tileAssign : step5.phase ≠ .speculative ∧ (0 : W16).toNat < job15.nLayers ∧ step5.closedLayers.contains 0 = false := by
  decide +kernel
/-- A layer has closed and its kernel is loaded. -/
theorem witness_kernelDispatch :
    let img := fields 0x280 [(6, 1, 1), (0x18, 2, 16)]
    let j := { job15 with desc := putBytes job15.desc 144 (leBytes 32 (shake256 img).toNat), open_ := [{ step5 with closedLayers := [0] }] }
    let s := { busy with jobs := [(0, j)], host.kernels := [(7, img)] }
    s.upd.run = none ∧ j.phase = .running ∧ s.kernelSlot (j.kernelDigest (j.layer 0).2.2) = some 7 ∧
    (s.takeScratch ⟨1, 5, 0, 0, 7, 0, [], false⟩ 0).isSome = true := by decide +kernel
theorem witness_phaseBarriers :
    let d : Dispatcher := ⟨1, 5, 0, 0, 0, 0, [], false⟩
    let img := fun n => fields 0x280 [(6, 1, n)]
    let s := fun n => { busy with upd.run := some d, host.kernels := [(0, img n)] }
    ((s 1).upd.run == some d) = true ∧ (s 1).upd.faulted = none ∧ ((List.range 16).all fun k => ((s 1).slice k).run.isNone && !((s 1).slice k).stopped) = true ∧
    (job15.step? d.step).isSome = true ∧ d.phase + 1 < imgPhases ((s 2).image 0) ∧ imgPhases ((s 1).image 0) ≤ d.phase + 1 ∧
    step5.ready.length + 1 = job15.nLayers ∧
    (State.slice { busy with upd.slices := [(15, { Slice.init with run := some ⟨1, 5, 0, 0, false, 0, 0, 1⟩ })] } 15).run.isSome = true := by
  decide +kernel
/-- A step that is ready for its root, one whose checks can be decided, and one whose copies are awaited. -/
theorem witness_confirmation :
    let done := { step5 with phase := .confirming, ready := [0], scalar := some (0, 0, false) }
    let voting := { done with ownRoot := some 1, partnerRoot := some 1, reports := [(0, [])] }
    let copying := { done with commit := .copies, landings := [escrowId 5] }
    done.ownRoot = none ∧ done.ready.length = job15.nLayers ∧ done.scalar.isSome = true ∧ busy.coverKind job15 = 0 ∧
    busy.voteReady job15 done = false ∧ busy.voteReady job15 voting = true ∧ busy.tapsMissing job15 voting = busy ∧
    done.voteBack = false ∧ job15.phase = .running ∧ copying.landings.contains (escrowId copying.step) = true ∧
    (Strata.pinCopy { job15.strata with pinCopy := some Stratum.empty }).isSome = true := by decide +kernel

/-! ### The store -/

/-- Hop attempts at the limit; the hour's corrected errors at the threshold; the seventeenth uncorrected error of a stack. -/
theorem witness_storeErrors : Tbl.get hub.store.hopTries 0 4 < hub.hopAttempts ∧
    hub.hopAttempts ≤ Tbl.get (State.store { hub with store.hopTries := [(1, hub.hopAttempts)] }).hopTries 0 1 ∧ (1 : Fin 5).val < 2 ∧
    5 ≤ ([0, 0, 0, 0].filter (fun a => hub.now < a + 10 ^ 9) ++ [hub.now]).length ∧
    ((List.replicate (hub.rd .strEccCeThresh).toNat 0).filter (fun a => hub.now < a + 3600 * 10 ^ 9) ++ [hub.now]).length =
      (hub.rd .strEccCeThresh).toNat + 1 ∧
    17 ≤ ((List.replicate 16 0).filter (fun a => hub.now < a + 3600 * 10 ^ 9) ++ [hub.now]).length ∧
    hub.store.failedStacks.getLsbD 15 = false := by decide +kernel
/-- A repair of a page of the committed stratum, of an entry of silt, and of a job that is gone. -/
theorem witness_repair :
    let e : SiltEntry := ⟨4, true, false, true, false, false, 0, 0, [], [(0, 70)], 9, 0, 0, 0, []⟩
    let s := { busy with store.repair := some (1, false, 0, 4, none), store.quota := [(0, 1000)] }
    hub.store.repair = none ∧ s.store.repair = some (1, false, 0, 4, none) ∧ hub.job? 1 = none ∧
    ((job15.strata.committed :: []).find? fun x => x.step == 4 && Tbl.has x.map 0) = some job15.strata.committed ∧
    busy.repairFrame job15 0 = none ∧ (s.repairFrame job15 0).isSome = true ∧
    ((Job.silt { job15 with silt := [e] }).find? fun e => e.step == 4) = some e := by decide +kernel

/-! ### Streaming -/

/-- A schedule of one entry of 4 elements. -/
def sched4 : List Byte := fields 80 [(0, 4, 1), (64 + 8, 4, 4), (64 + 14, 1, 1), (64 + 15, 1, 1)]

/-- The engine of site 0 in step 5, opened. -/
def engine5 : Engine := { Engine.start 1 5 with opened := true }

/-- A controller that streams with an engine. -/
def streaming (g : Engine) : State := { busy with
  jobs := [(0, { job15 with sched := sched4 })], stm.engines := [(0, [g])], host.siteCap := [(0, fields 256 [(0x18, 4, 2 ^ 20)])] }

/-- The entry of site 0. -/
def entry4 : SchedEntry := ⟨0, 4, 0, 1, false, false, true⟩

theorem witness_entryBegin :
    let j := { job15 with sched := sched4 }
    ((streaming engine5).engineNow 0 == some engine5) = true ∧ (schedList (j.schedFor 5) 0)[0]?.any (fun e => e.layer == 0 && e.count == 4) = true ∧
    engine5.begun = false ∧ engine5.opened = true ∧ j.mayStream = true ∧ (streaming engine5).stm.parked.getLsbD 0 = false ∧
    engine5.released.contains 0 = false ∧ j.layerReadable 5 0 = true ∧ j.layerReadable 6 0 = false ∧ engine5.layerWait = false ∧
    (streaming engine5).windowOut 0 + entry4.bytes 1 ≤ (streaming engine5).siteWindow 0 ∧
    busy.siteWindow 0 < busy.windowOut 0 + entry4.bytes 1 ∧ (Engine.released { engine5 with released := [0] }).contains 0 = true := by
  decide +kernel
theorem witness_packetEnqueue :
    let g := { engine5 with begun := true }
    let s := streaming g
    let j := { job15 with sched := sched4 }
    let len := unitBytes (frFormat 1) (entry4.unitLen 0) false
    g.begun = true ∧ s.bufUsed 0 + len ≤ 2 ^ 23 ∧
    ((s.unitVals j (j.streamStratum 5) 0 4).all fun v => !(j.streamStratum 5).poisoned.contains v.2.1) = true ∧
    ((s.unitVals j (j.streamStratum 5) 0 4).any fun v => [0].contains v.2.1) = true ∧
    s.unitReaders j 0 g 0 0 = [] ∧ 0 < len := by decide +kernel
/-- An engine that resumes in the middle of its entry, which is charged. -/
theorem witness_entryResumes :
    let g := { engine5 with charged := [(0, entry4.bytes 1)] }
    (∃ c ∈ g.charged, c.1 = g.entry) ∧ (streaming g).windowOut 0 ≤ (streaming g).siteWindow 0 ∧ engine5.charged = [] :=
  ⟨⟨_, List.mem_cons_self, rfl⟩, by decide +kernel, rfl⟩
/-- A buffer that is full but for less than a unit. -/
theorem bufUsed_one (h : PktHdr) (b : List Byte) :
    State.bufUsed { busy with stm.buffers := [(0, [⟨h, b⟩])] } 0 = b.length + 0 := rfl
theorem witness_bufferFull :
    2 ^ 23 < State.bufUsed { busy with stm.buffers := [(0, [⟨PktHdr.mk 1 0 0 0 0 0 0 0 0 0 0, List.replicate (2 ^ 23) 0⟩])] } 0 + 1 := by
  rw [bufUsed_one, List.length_replicate]; decide
theorem witness_packetSend :
    let p := packet 1 5 0 0 1 0 0 (List.replicate 32 0)
    let s := { busy with stm.buffers := [(0, [p])], ports := [(0, { Port.init .active with peerBuf := [64, 0, 0, 0] })] }
    (Tbl.get s.stm.buffers [] 0)[(s.port 0).streams]? = some p ∧ (s.port 0).up = true ∧ p.flitCount ≤ (s.port 0).credit 0 ∧ (busy.port 0).credit 0 < p.flitCount ∧
    (hub.port 1).up = false := by decide +kernel
/-- Releases: of an entry that is not under way; received-through values for the step, for none, and malformed. -/
theorem witness_releases :
    let m := msg 1 5 (fields 8 [(4, 1, 5)])
    let r := msg 1 0 (fields 12 [(0, 1, 5), (2, 1, 1), (4, 4, 7)])
    m.formOk 8 = true ∧ zeroBytes m.bytes 5 3 = true ∧ (msg 1 5 (fields 12 [])).formOk 8 = false ∧
    zeroBytes (msg 1 5 (fields 8 [(7, 1, 1)])).bytes 5 3 = false ∧
    (((streaming engine5).engines 0).find? fun g => g.job == 1 && g.step == 5 && g.step.setWidth 8 == 5) = some engine5 ∧ engine5.begun = false ∧
    ((streaming engine5).engines 1) = [] ∧
    (([packet 1 5 0 0 1 0 0 (List.replicate 32 0)].drop 0).filter fun p => p.hdr.jobId == engine5.job && p.hdr.tag == engine5.step.setWidth 8 &&
      fieldLE p.content 4 4 == m.get 0 4).length ≠ 0 ∧ r.formOk 12 = true ∧ r.get 2 1 < 4 ∧ zeroBytes r.bytes 3 1 = true ∧
    (State.stm { busy with stm.parked := 1 }).parked.getLsbD 0 = true ∧ (busy.port 0).up = true ∧ busy.stm.parked.getLsbD 0 = false := by
  decide +kernel

/-! ### Arbiters -/

/-- The last slot of a window; a floor that is owed, and one that is not; a high requester, a masked one, and surplus. -/
theorem witness_arbiterSlots :
    let x := Arb.init
    x.slot < 4096 ∧ (4095 : Nat) < 4096 ∧ (let s := hub.wr .stmArbFloor 1 0; s.arb 0 = x ∧ x.normalGranted < min 4096 (s.rd .stmArbFloor 0).toNat ∧
      ¬ 4096 - x.slot ≤ min 4096 (s.rd .stmArbFloor 0).toNat - x.normalGranted ∧
      4096 - (4095 : Nat) ≤ min 4096 (s.rd .stmArbFloor 0).toNat - x.normalGranted) ∧
    (let s := hub.wr .stmArbPrio 2 0; (s.fld .stmArbPrio 0 8 0).testBit 1 = true ∧ (s.fld .stmArbPrio 0 8 0).testBit 0 = false) ∧
    ((x.lastNormal + 1 + 0) % 8 = 0 ∧ (x.lastNormal + 1 + 7) % 8 = 7) ∧ hub.fld .stmCtrl 0 1 = 1 ∧ (hub.wr .stmCtrl 0).fld .stmCtrl 0 1 = 0 := by
  decide +kernel
/-- A full window; grants of each kind to be withdrawn; a quota at and below what has been used. -/
theorem witness_arbiterWindows :
    let used : Arb := { Arb.init with use := [5, 0, 0, 0, 0, 0, 0, 0] }
    (State.arb { hub with stm.arbs := [(23, { Arb.init with slot := 4096 })] } 23).slot = 4096 ∧ (hub.arb 23).slot ≠ 4096 ∧
    (hub.arb 0).granted = none ∧ (Arb.granted { Arb.init with granted := some (0, true) }) = some (0, true) ∧
    (Arb.granted { Arb.init with granted := some (1, false) }) = some (1, false) ∧
    ((hub.wr .stmArbPrio 1 0).fld .stmArbPrio 0 8 0).testBit 0 = true ∧ ((hub.wr .stmArbPrio 1 0).fld .stmArbPrio 0 8 0).testBit 1 = false ∧
    used.use.getD 0 0 < min 4096 (6 : W32).toNat ∧ min 4096 (5 : W32).toNat ≤ used.use.getD 0 0 := by decide +kernel

/-! ### The assay -/

/-- A sample record of step 5, and queues at and above their marks. -/
theorem witness_assayArrivals :
    let p := packet 3 5 0 0 1 0 0 (fields 64 [(8, 8, 5)])
    let x : Sample := ⟨0, 1, 0, p.content, false, false⟩
    let size := fun (l : List Sample) => (l.map fun y => y.bytes.length).sum
    busy.genStale 0 p.hdr = false ∧ (job15.tag? p.hdr.tag).isSome = true ∧
    size (busy.asy.samples ++ [x]) ≤ min 49152 (busy.fld .asyQueue 0 16) * 1024 ∧
    min 49152 ((busy.wr .asyQueue 0).fld .asyQueue 0 16) * 1024 < size (busy.asy.samples ++ [x]) ∧
    ((List.range 8).all fun q => !(busy.port q).withhold.getD 3 false) = true ∧ size (busy.asy.taps ++ [x] ++ busy.asy.heldTaps) ≤ 2 ^ 23 ∧
    hub.job? 1 = none := by decide +kernel
theorem sampleSize_one (b : List Byte) :
    (([(⟨0, 1, 0, b, false, false⟩ : Sample)].map fun y => y.bytes.length).sum) = b.length + 0 := rfl
theorem witness_tapsFull : 2 ^ 23 < (([(⟨0, 1, 0, List.replicate (2 ^ 23 + 1) 0, false, false⟩ : Sample)].map fun y => y.bytes.length).sum) := by
  rw [sampleSize_one, List.length_replicate]; decide
/-- A sample to be judged, one that is to be passed over, a tap report of each kind, and a descent. -/
theorem witness_assayChecks :
    let x : Sample := ⟨0, 1, 0, fields 64 [(8, 8, 5)], false, false⟩
    let gone : Sample := { x with job := 9, discarded := true, bytes := fields 64 [(8, 8, 5), (0x13, 1, 2)] }
    hub.nextSample = none ∧ State.nextSample { busy with asy.samples := [x] } = some x ∧
    State.nextSample { busy with asy.samples := [gone] } = some gone ∧ busy.sourceGone gone = true ∧ (busy.job? 1).isSome = true ∧
    hub.asy.taps = [] ∧ tapNonfinite (List.replicate 128 0) = false ∧
    busy.tapCheck { x with bytes := fields 128 [(0x25, 1, 9)] } = none ∧ (busy.tapCheck { x with bytes := List.replicate 128 0 }).isSome = true ∧
    (Descent.level ⟨1, 5, 2, [0], [0, 1, 2, 3], 0⟩) = 2 ∧ (Descent.level ⟨1, 5, 0, [0], [0], 0⟩) = 0 ∧ hub.asy.descents = [] ∧
    ([(⟨1, 5, 2, [0], [0, 1, 2, 3], 0xFFFF⟩ : Descent)].find? fun d => d.holder == 0xFFFF).isSome = true ∧
    busy.sourceGone { x with discarded := true } = false ∧ (job15.committed).toNat < x.step.toNat := by
  decide +kernel

end Sys2Proof.Tests
end

