-- ==== Sys2Proof/Tests/WitnessLink.lean ====
section
/-! SUPPORT. States and operands that meet the hypotheses of the statements on links, the torus, collectives and job starts. -/
namespace Sys2Proof.Tests
set_option Elab.async false
open Sys2Proof Sys2Proof.Machine

/-! ### Frames -/

/-- A frame without flits, one with 10 wrong symbols, and one with 11, which FEC cannot correct. -/
def bare : Frame := ⟨[], ⟨0, 0, 1023, 3, 7⟩, []⟩
def mended : Frame := { bare with errors := [0, 639, 2, 3, 4, 5, 6, 7, 8, 9, 9] }
def broken : Frame := { bare with errors := 10 :: mended.errors }

/-- A flit in one, the first of several. -/
def flit1 : FlitSlot := ⟨true, 3, true, false, 0, 0, 5⟩

theorem witness_framesReceived :
    let q : Port := Port.init .active
    State.reset.port 0 = Port.init .disabled ∧ (State.reset.port 0).up = false ∧ (hub.port 0).up = true ∧ (hub.port 8).rxWait = false ∧
    10 < broken.errors.eraseDups.length ∧ mended.errors.eraseDups.length ≤ 10 ∧ 7 ≤ mended.errors.eraseDups.length ∧
    (State.port { State.reset with ports := [(16, { q with rxWait := true })] } 16).rxWait = true ∧
    bare.errors.eraseDups.length = 0 ∧ bare.hdr.kind = 0 ∧ bare.slots = [] ∧ q.alarmSeen = none ∧ flit1.parityOk = true ∧
    FlitSlot.parityOk { flit1 with data := 4 } = false ∧ (1023 : BitVec 10) ≠ q.rxNext ∧ flit1.eop = false ∧ flit1.sop = true ∧
    q.rxPart.getD flit1.vc.val [] = [] ∧ q.withhold.getD flit1.vc.val false = false ∧ (FlitSlot.sop { flit1 with sop := false }) = false ∧
    (FlitSlot.reserved { flit1 with reserved := 1, eop := true }) ≠ 0 := by
  decide +kernel
/-- One flit, 24 flits, and the same after as many resends as escalate. -/
def flitA : Flit := ⟨1023, 0, true, true, 0⟩

theorem witness_replay :
    let q : Port := { Port.init .active with replay := [flitA] }
    q.up = true ∧ q.rxWait = false ∧ (Port.rxWait { q with rxWait := true }) = true ∧ (Port.nakSeen { q with nakSeen := some 1023 }) = some 1023 ∧
    q.nakSeen ≠ some 1023 ∧ q.replay.dropWhile (fun x => x.seq != 1023) = flitA :: [] ∧ (Port.init .active).replay = [] ∧ q.alarm = none ∧
    24 ≤ (List.replicate 24 flitA).length ∧ (List.replicate 23 flitA).length ≤ 23 ∧ q.resends < hub.escalateAttempts 16 ∧ hub.escalateAttempts 16 ≤ (Port.resends { q with resends := 3 }) ∧
    hub.escalateAttempts 8 ≤ (Port.resends { q with resends := 8 }) := by decide +kernel
/-- Windows in which more replays and more heavily corrected frames have been counted than the thresholds allow, and one that is over. -/
theorem witness_linkWindows :
    let q : Port := { Port.init .active with rateWin := (0, 65, false), heavyWin := (0, 1001, false) }
    (if q.rateWin.1 + 1000 * max 1 (hub.fld .spkParityWin 0 16 0) ≤ hub.now then (hub.now, 0, false) else q.rateWin) = q.rateWin ∧
    hub.fld .spkParityWin 16 16 0 < q.rateWin.2.1 ∧ (64 : Nat) < q.rateWin.2.1 ∧ q.rateWin.2.2 = false ∧ hub.now < q.heavyWin.1 + 10 ^ 9 ∧
    (hub.rd .spkHeavyThresh 0).toNat < q.heavyWin.2.1 ∧ q.heavyWin.2.2 = false ∧ q.rateWin.1 + 1000 * 1000 ≤ 10 ^ 6 := by decide +kernel
/-- A repair copy queued on the pair link ahead of a packet that is forwarded. -/
theorem witness_nextPair :
    let copy : Packet := packet 5 0 0 0 1 0x100 0 (fields 32 [(1, 1, 8)])
    let fwd : Packet := packet 5 0 0 0 1 0x100 0 (fields 32 [(1, 1, 2)])
    let q : Port := { Port.init .active with txq := [⟨0, copy, 0, false, false⟩, ⟨0, fwd, 0, false, false⟩], copyGap := 3 }
    q.nextPair = some 1 ∧ (Port.nextPair { q with copyGap := 7 }) = some 0 ∧ copy.pairCopy = true ∧ fwd.forwarded = true ∧ fwd.pairCopy = false := by
  decide +kernel

/-! ### Training -/

theorem witness_training :
    let q : Port := Port.init .align
    let s : State := { hub with ports := [(0, q), (9, q), (15, Port.init .detect), (8, Port.init .param), (1, Port.init .equalise)] }
    (s.port 15).state = .detect ∧ (s.port 0).state = .align ∧ (s.port 16).state = .detect ∧ (s.port 1).state = .equalise ∧
    (s.port 8).state = .param ∧ ¬ ((s.port 0).eqLanes ≠ 0 ∨ s.fld .spkCtrl 3 1 0 = 1) ∧ ¬ ((s.port 9).eqLanes ≠ 0 ∨ s.fld .torCtrl 3 1 = 1) ∧
    (0xFFFF : BitVec 16) &&& ~~~(lanesPassed (List.replicate 15 4000 ++ [4001])) ≠ 0 ∧
    (0xFF : BitVec 16) &&& ~~~(lanesPassed (List.replicate 8 0)) = 0 ∧ (Port.init .down).state = .down ∧ (Port.eqLanes { q with eqLanes := 1 }) ≠ 0 ∧
    chooseWidth false 0xFFFF = some (3, 0) ∧ chooseWidth false 0x7FFF = some (2, 0) ∧ chooseWidth false 0x7777 = none ∧
    chooseWidth true 0xF0 = some (1, 1) ∧ chooseWidth false 0xFFFE = some (2, 1) := by decide +kernel
theorem witness_widths : (∀ i, i < 16 → (0xFFFF : BitVec 16).getLsbD i = true) ∧ (∀ i, i < 8 → (0x7FFF : BitVec 16).getLsbD i = true) ∧
    (∃ i, i < 16 ∧ 8 ≤ i ∧ (0x7FFF : BitVec 16).getLsbD i = false) ∧ (∀ i, i < 16 → 8 ≤ i → (0xFFFE : BitVec 16).getLsbD i = true) ∧
    (∃ i, i < 8 ∧ (0xFFFE : BitVec 16).getLsbD i = false) ∧ (∀ g, g < 4 → ∃ i, i < 4 ∧ (0x7777 : BitVec 16).getLsbD (4 * g + i) = false) := by
  decide +kernel
theorem witness_retrain :
    let s : State := { hub with ports := [(0, Port.init .down), (8, Port.init .down), (9, Port.init .down), (14, Port.init .disabled)],
                                now := 10 ^ 9, pwr.bistGood := BitVec.allOnes 72 }
    let on := (s.wrFld .spkCtrl 4 1 1 7).wrFld .torCtrl 4 1 1
    let off := (s.wrFld .spkCtrl 4 1 0 7).wrFld .torCtrl 4 1 0
    off.fld .spkCtrl 4 1 7 = 0 ∧ on.fld .spkCtrl 4 1 7 = 1 ∧ (s.port 8).state = .down ∧ s.pair.fenced = false ∧ s.portUsable 8 = true ∧
    (s.port 8).attempts = [] ∧ 3 ≤ ([1, 2, 3] : List Nat).length ∧ (0 : Nat) + 10 ^ 9 ≤ s.now ∧ (s.port 7).up = false ∧ (hub.port 8).up = true ∧
    (s.port 7).state = .disabled ∧ off.fld .torCtrl 4 1 = 0 ∧ on.fld .torCtrl 4 1 = 1 ∧ (s.port 9).state = .down ∧ (s.port 14).state ≠ .down ∧
    s.portUsable 9 = true := by decide +kernel

/-! ### The torus -/

/-- A torus of 4 × 4 × 4 whose + x neighbour is as expected, with its alarm lane up. -/
def grid : State := { busy with
  tor.dimX := 4, tor.dimY := 4, tor.dimZ := 4, tor.stable := true
  tor.neigh := [(0, { Neigh.init with heard := true, position := 0x100, posValid := true, port := 1, alarmUp := true })]
  ports := [(0, Port.init .active), (8, Port.init .active), (9, Port.init .active), (10, Port.init .disabled)] }

/-- A HALT of controller 0x100, without hops, and with the most hops. -/
def alarm0 (hops : Nat) : BitVec 128 := alarmSlot 3 hops false 0x100 0 255 0

theorem witness_alarms :
    (grid.neigh 0).alarmUp = true ∧ (grid.neigh 1).alarmUp = false ∧ slotFld (alarm0 0) 112 16 = 0xA1A1 ∧ slotFld 0 112 16 ≠ 0xA1A1 ∧
    slotFld (alarm0 0) 0 32 = crc32Bits ((List.range 96).map fun i => (alarm0 0).getLsbD (127 - i)) ∧ slotFld (alarm0 0) 108 4 = 3 ∧
    slotFld (alarm0 0 ^^^ 1) 0 32 ≠ crc32Bits ((List.range 96).map fun i => (alarm0 0 ^^^ 1).getLsbD (127 - i)) ∧
    slotFld (alarm0 0) 96 5 = 0 ∧ slotFld (alarm0 0 ||| (1#128 <<< 96)) 96 5 ≠ 0 ∧ slotFld (alarm0 63) 102 6 = 63 ∧ slotFld (alarm0 62) 102 6 ≠ 63 ∧ grid.neighState 0 = 1 ∧
    (State.neighState { grid with tor.neigh := [(0, { grid.neigh 0 with podId := 1 })] } 0) = 4 ∧
    (⟨BitVec.ofNat 16 (slotFld (alarm0 0) 80 16), (alarm0 0).getLsbD 101, BitVec.ofNat 8 (slotFld (alarm0 0) 64 8)⟩ : Triple) ∉ grid.tor.triples ∧
    (⟨BitVec.ofNat 16 (slotFld (alarm0 0) 80 16), (alarm0 0).getLsbD 101, BitVec.ofNat 8 (slotFld (alarm0 0) 64 8)⟩ : Triple) = ⟨0x100, false, 255⟩ := by
  decide +kernel
/-- A hello of the same dims, and one of greater ones. -/
def hello (dims : Nat) : List Byte := fields 32 [(0, 2, 0x50), (2, 2, 1), (8, 2, 0x100), (0xA, 2, 0x100), (0xC, 1, 1), (0xD, 1, 2), (0xE, 2, dims + 4 * 32 + 4 * 1024)]

theorem witness_survey :
    helloOk (hello 4) = true ∧ helloOk (hello 5) = true ∧ helloOk (hello 17) = false ∧ (grid.port 9).up = true ∧ (grid.port 14).up = false ∧
    max grid.tor.dimX (fieldLE (hello 4) 0xE 2 % 32) = 4 ∧ max grid.tor.dimX (fieldLE (hello 5) 0xE 2 % 32) ≠ grid.tor.dimX ∧
    grid.tor.stable = true ∧ busy.tor.stable = false ∧ (State.fld (grid.wrFld .torCtrl 2 1 0) .torCtrl 2 1) = 0 ∧
    (State.fld (grid.wrFld .torCtrl 2 1 1) .torCtrl 2 1) = 1 ∧ (∀ q, q < 6 → ((grid.port (9 + q)).up = true ↔ q = (0 : Fin 6).val)) ∧
    (grid.port 9).state ≠ .disabled ∧ (grid.port 10).state = .disabled ∧ grid.lanesLow [] = 0 ∧ grid.lanesLow [0] = 1 := by decide +kernel
/-- A packet to here, to the + x neighbour, and in the direction of a port that is down. -/
theorem witness_routes :
    let k := fun (dst : W16) => packet 4 0 0 0 1 0 dst []
    (k 0).hdr.kind ≠ 9 ∧ (k 0).hdr.kind ≠ 7 ∧ (k 0).hdr.kind ≠ 0xB ∧ grid.routePort (k 0).hdr.dst = none ∧ grid.routePort (k 0x200).hdr.dst = some 0 ∧
    grid.routePort (k 0x300).hdr.dst = some 1 ∧ grid.routePort (k 0x033).hdr.dst = some 3 ∧ grid.neighState 0 = 1 ∧ grid.neighState 1 ≠ 1 := by decide +kernel

/-! ### Landings -/

/-- A REQUEST of a purpose and its tag; a landing of 40 bytes open, half of it here; a transfer that asks. -/
def request (purpose : Nat) (tag : Byte) : Packet :=
  { packet 0xC tag 0 0 1 0x100 0 (landBody 1 purpose 0 0 77 40 0) with hdr := { (packet 0xC tag 0 0 1 0x100 0 (landBody 1 purpose 0 0 77 40 0)).hdr with flags := 4 } }
def landing1 : Landing := ⟨1, 1, 1, 0x100, 1, 77, 40, some 5, [], false⟩
def transfer1 : Transfer := ⟨77, 0x100, 7, 1, some 5, [1], false, false⟩
def landing : State := { grid with tor := { grid.tor with landings := [landing1], transfers := [transfer1] } }

theorem witness_landRequests :
    hub.job? (request 1 5).hdr.jobId = none ∧ grid.job? (request 1 5).hdr.jobId = some job15 ∧ grid.landRefusal job15 (request 1 6) = some 4 ∧
    grid.landRefusal job15 (request 4 5) = some 5 ∧ grid.landRefusal job15 (request 1 5) = none ∧ fieldLE (request 1 5).content 1 1 ≠ 5 ∧
    landOk (request 1 5).content = true ∧ landOk (putBytes (request 1 5).content 0x1F [1]) = false := by
  decide +kernel
theorem witness_landGrants :
    let k := packet 0xC 5 0 0 1 0x100 0 (landBody 2 7 1 1 77 1 0)
    (∀ x ∈ grid.tor.transfers, ¬ (x.id = 77 ∧ x.dest = k.hdr.src ∧ x.granted = false)) ∧
    (landing.tor.transfers.find? fun x => x.id == BitVec.ofNat 64 (fieldLE k.content 8 8) && x.dest == k.hdr.src && !x.granted) = some transfer1 ∧
    1 ≤ transfer1.data.length ∧ transfer1.data.length ≤ 65536 ∧ fieldLE k.content 0x18 1 ≠ 1 ∧ fieldLE k.content 0x18 1 ≠ 3 ∧
    transfer1.purpose ≠ 4 ∧ transfer1.purpose ≠ 5 ∧ transfer1.assist = false ∧
    (landing.tor.transfers.find? fun x => x.id == 77 && x.dest == 0x100) = some transfer1 ∧
    fieldLE (landBody 4 7 0 0 77 1 3) 0x18 1 = 3 ∧ fieldLE (landBody 4 7 0 0 77 1 1) 0x18 1 = 1 ∧
    (∀ x ∈ landing.tor.transfers, ¬ (x.id = 78 ∧ x.dest = 0x100)) ∧ landOk k.content = true ∧ landOk (landBody 3 7 0 0 77 1 0) = true ∧
    landOk (landBody 4 7 0 0 77 1 3) = true := by decide +kernel
/-- XFER of 32 bytes at an offset of the landing of 40 bytes: the first half, the second; beyond the end. -/
def xfer (off n : Nat) : Packet :=
  packet 7 5 0 0 1 0x100 0 (fields (32 + n) [(0, 1, 0x70), (2, 2, 1), (8, 8, off), (0x10, 4, n), (0x14, 4, 1)])

theorem witness_xfers :
    let mine := fun (c : List Byte) (l : Landing) => l.id.toNat == fieldLE c 2 2 && l.gen.toNat == fieldLE c 0x14 4
    let off := fun (p : Packet) => fieldLE p.content 8 8
    let n := fun (p : Packet) => fieldLE p.content 0x10 4
    let put := fun (l : Landing) (p : Packet) => { l with data := (l.data.filter fun d => d.1 != off p) ++ [(off p, sliceBytes p.content 0x20 (n p))] }
    (xfer 0 32).hdr.kind = 7 ∧ landing.tor.landings.find? (mine (xfer 0 32).content) = some landing1 ∧ grid.tor.landings.find? (mine (xfer 0 32).content) = none ∧
    off (xfer 32 32) + n (xfer 32 32) ≤ up32 landing1.length.toNat ∧ up32 landing1.length.toNat < off (xfer 64 32) + n (xfer 64 32) ∧
    n (xfer 0 32) % 32 = 0 ∧ n (xfer 0 32) ≠ 0 ∧ off (xfer 32 32) % 32 = 0 ∧ fieldLE (xfer 0 32).content 0 1 = 0x70 ∧
    (put landing1 (xfer 0 32)).missing ≠ 0 ∧ (put (put landing1 (xfer 0 32)) (xfer 32 32)).missing = 0 ∧
    (∀ l ∈ landing.tor.landings, l.id ≠ 2) ∧ (landing.tor.landings.find? fun l => l.id == 1) = some landing1 ∧ landing1.purpose ≠ 5 ∧
    xferOk (xfer 0 32).content = true ∧ xferOk (xfer 32 32).content = true ∧ xferOk (putBytes (xfer 0 32).content 1 [8]) = false := by decide +kernel

/-! ### Collectives -/

/-- A vote of two members: this is the root, the other its child. -/
def two : State := { grid with tor := { grid.tor with peloton := [(0, ⟨1, 1, 0, [0, 0x100]⟩)] } }
def voteKey : CollKey := ⟨1, .vote, 5, 0, 0⟩
def vote1 : Coll := ⟨voteKey, 0, 1, some [.or 1], none, false, [], false, none, false⟩
def upOf (op : Nat) : Packet := packet 4 0 0 0 1 0x100 0 (fields 80 [(0, 1, 0x80), (1, 1, op), (2, 1, 1), (4, 2, 1), (6, 2, 1), (8, 8, 5), (32, 1, 2), (40, 8, 1)])

theorem witness_collectives :
    let s : State := { two with tor := { two.tor with colls := [vote1] }, pair.partnerFailed := true }
    let done : Coll := { vote1 with result := some [.or 1] }
    two.collKeyOf 1 (upOf 3).content = some (voteKey, 0) ∧ two.collKeyOf 1 (putBytes (upOf 3).content 0 [0x81]) = some (voteKey, 0) ∧ two.collKeyOf 2 (upOf 3).content = none ∧
    (two.coll voteKey 0).result = none ∧ itemsOf (upOf 3).content 32 (fieldLE (upOf 3).content 2 1) = [.or 1] ∧ done.result = some [.or 1] ∧
    ([.or 1] : List CollItem) ≠ [.or 0] ∧ s.tor.colls.find? (fun c => c.key == voteKey) = some vote1 ∧ vote1.contributed = false ∧ vote1.result = none ∧
    s.trayValue vote1 = some ([.or 1], false) ∧ two.trayValue vote1 = none ∧ treeKids 2 0 = [1] ∧ Tbl.has vote1.ups 1 = false ∧
    Tbl.has (Tbl.set vote1.ups 1 [.or 1]) 1 = true ∧ s.planeIdx vote1.slot = 0 ∧ (State.planeIdx { two with tor.position := some 0x100 } 0) ≠ 0 ∧
    collOk 0x80 (upOf 3).content = true ∧ collOk 0x81 (putBytes (upOf 3).content 0 [0x81]) = true ∧ collOk 0x80 (upOf 0).content = false ∧
    collOk 0x81 (upOf 3).content = false ∧ collOk 0x80 (putBytes (upOf 3).content 0x13 [1]) = false := by
  decide +kernel
theorem witness_collectiveTimeout : (∀ op : Fin 6, ∃ o, collOpOf (op.val + 1) = some o) ∧ voteKey.op ≠ .barrier ∧ vote1.key = voteKey ∧ vote1.result = none ∧
    (CollKey.op { voteKey with op := .advance }) = .advance ∧ (CollKey.op { voteKey with op := .scalar }) = .scalar ∧
    (CollKey.op { voteKey with op := .roots }) = .roots ∧ voteKey.op = .vote ∧ (∀ c ∈ two.tor.colls, ¬ (c.key = voteKey ∧ c.result = none)) := by
  have h : ∀ op : Fin 6, (collOpOf (op.val + 1)).isSome = true := by decide +kernel
  exact ⟨fun op => Option.isSome_iff_exists.mp (h op), by decide +kernel, by decide +kernel, by decide +kernel, by decide +kernel, by decide +kernel,
    by decide +kernel, by decide +kernel, by decide +kernel⟩

/-! ### Starts -/

/-- A start of job 1 that has just begun; a job being prepared, prepared, in doubt. -/
def run1 : StartRun := StartRun.begin_ 9 5 1 0
def starting (ph : JobPhase) (r : StartRun) : State := { two with jobs := [(0, { job1 with phase := ph, start := some r })] }
def startPkt (ty outcome : Nat) : Packet := packet 0xA 0 0 0 1 0x100 0 (startBody ty 0 1 1 9 5 [] 1 1 outcome 0)

theorem witness_startMessages :
    hub.startJob [] = none ∧ hub.job? (BitVec.ofNat 32 (fieldLE (startPkt 1 0).content 4 4)) = none ∧
    (∃ j, (starting .staged run1).job? 1 = some j ∧ j.phase = .staged ∧ ((starting .staged run1).pel j.pelSlot).isSome = true) ∧
    (∃ j, (starting .preparing run1).startJob (startPkt 2 0).content = some j ∧ j.start = some run1 ∧ j.phase ≠ .staged ∧ two.jobIdx j = 0) ∧
    (State.pel { two with tor.peloton := [] } 0) = none ∧
    (State.jobIdx { two with tor.position := some 0x100 } job1) ≠ 0 ∧
    (StartRun.total { run1 with committed := [(1, 1)] }) = (two.planeOf job1.pelSlot).length ∧ run1.total ≠ (two.planeOf job1.pelSlot).length ∧
    two.leads = true ∧ (State.leads { two with pair.role := .standby }) = false ∧ (StartRun.decision { run1 with decision := some false }) = some false ∧
    run1.passQuery = false ∧ fieldLE (startPkt 8 4).content 0x2C 1 = 4 ∧ fieldLE (startPkt 8 5).content 0x2C 1 = 5 ∧
    fieldLE (startPkt 8 0).content 0x2C 1 ≠ 4 ∧ ([1, 2, 3, 4, 5, 6, 7, 8, 9, 10].all fun ty => startOk (startPkt ty 0).content) = true ∧
    startOk (putBytes (startPkt 2 0).content 0x2D [1]) = false := by
  refine ⟨by decide +kernel, by decide +kernel, ⟨{ job1 with phase := .staged, start := some run1 }, by decide +kernel, by decide +kernel, by decide +kernel⟩,
    ⟨{ job1 with phase := .preparing, start := some run1 }, by decide +kernel, rfl, by decide +kernel, by decide +kernel⟩,
    by decide +kernel, by decide +kernel, by decide +kernel, by decide +kernel, by decide +kernel, by decide +kernel, by decide +kernel,
    by decide +kernel, by decide +kernel, by decide +kernel, by decide +kernel, by decide +kernel, by decide +kernel⟩
theorem witness_startTimeouts :
    let j := { job1 with phase := .preparing, start := some run1 }
    let doubt : StartRun := { run1 with unanswered := 10, waiting := false, answered := true }
    (starting .preparing run1).job? 1 = some j ∧ run1.answered = false ∧ (two.jobKids j).contains (1 : W16).toNat = true ∧ Tbl.has run1.ready 1 = false ∧
    run1.refusal = none ∧ run1.waiting = true ∧ run1.own = none ∧ doubt.waiting = false ∧ doubt.answered = true ∧ doubt.unanswered = 10 ∧
    run1.decision = none ∧ run1.unanswered ≠ 3 ∧ (StartRun.unanswered { run1 with unanswered := 3 }) = 3 ∧
    (StartRun.decision { run1 with decision := some true }) = some true ∧ two.jobIdx j = 0 := by decide +kernel

end Sys2Proof.Tests
end

