-- ==== Sys2Proof/Tests/WitnessPair.lean ====
section
/-! SUPPORT. States and operands that meet the hypotheses of the statements on the pair and on bedrocks. -/
namespace Sys2Proof.Tests
set_option Elab.async false
open Sys2Proof Sys2Proof.Machine

/-! ### Messages between the sides -/

/-- Messages of each type that has the form of R358. -/
theorem witness_pairForms : (∀ e ∈ ([(0x14, 64), (0x40, 12), (0x41, 512), (0x42, 8), (0x43, 8), (0x44, 16), (0x45, 16), (0x46, 32), (0x47, 256),
      (0x48, 8), (0x49, 8), (0x4B, 8), (0x4F, 16)] : List (Nat × Nat)),
      (msg 1 5 (fields e.2 [])).pairForm e.1 = true ∧ (again (msg 1 5 (fields e.2 []))).pairForm e.1 = true) ∧
    (msg 1 5 (fields (16 + 48 * 2) [(1, 1, 2)])).pairForm 0x45 = true ∧ (msg 1 5 (fields 32 [(0, 1, 0x81), (1, 1, 3)])).pairForm 0x4A = true ∧
    (again (msg 1 5 (fields 32 [(0, 1, 0x81), (1, 1, 3)]))).pairForm 0x4A = true ∧
    (∀ ty ∈ [0x14, 0x40, 0x41, 0x42, 0x43, 0x44, 0x45, 0x46, 0x47, 0x48, 0x49, 0x4A, 0x4B, 0x4F], (msg 1 5 (fields 7 [])).pairForm ty = false) := by
  decide +kernel
theorem witness_pairMessages :
    let m := again (msg 1 5 (fields 64 []))
    let seen : State := { busy with pair.applied := [(0x14, 5, fields 64 [] ++ [7])] }
    let r : CmdRun := ⟨9, 0x0206, 1, 0, true, [], none, 0, 1, []⟩
    let waits : State := { busy with host.runs := [r] }
    m.pairForm 0x14 = true ∧ m.flags.getLsbD 0 = true ∧ seen.pair.applied.contains (0x14, m.ident, m.bytes.take m.length.toNat ++ [7]) = true ∧
    seen.pair.applied.contains (0x14, m.ident, m.bytes.take m.length.toNat ++ [0]) = false ∧
    busy.pair.applied.contains (0x14, m.ident, m.bytes.take m.length.toNat) = false ∧ alone.pair.partnerFailed = true ∧
    busy.pair.partnerFailed = false ∧ busy.pair.role ≠ .withdrawn ∧ (State.pair { busy with pair.role := .withdrawn }).role = .withdrawn ∧
    busy.job? m.jobId = some job15 ∧ waits.run? 9 = some r ∧ r.stage = 1 ∧ busy.run? 9 = none ∧ busy.pair.role ≠ .standby ∧
    (State.pair { busy with pair.role := .standby }).role = .standby ∧ busy.host.runs = [] ∧ job15.step? m.ident = some step5 ∧
    step5.commit ≠ .exchange ∧ collOpOf ((msg 1 5 (fields 16 [(0, 1, 3)])).get 0 1) = some .vote := by decide +kernel
theorem witness_pairRepeats :
    let x : PairSent := ⟨0x43, 9, 1, fields 8 [], none⟩
    let s : State := { busy with pair.sent := [x] }
    s.pair.sent.filter (fun x => x.ty == (0x43 : Byte).toNat && x.ident == 9) = [x] ∧
    s.pair.sent.filter (fun x => x.ty == (0x44 : Byte).toNat && x.ident == 9) = [] := by decide +kernel

/-! ### The journal -/

/-- An entry of POSITION_CLEAR, which needs a spare's position, and one of JOB_TEARDOWN of a job. -/
def entry (seq id job op : Nat) (p : List Byte) : List Byte :=
  fields 512 ([(0, 8, seq), (8, 8, id), (0x10, 4, job), (0x14, 1, 1), (0x40, 2, op), (0x42, 1, 1), (0x52, 2, p.length)] ++
    (p.zipIdx.map fun e => (0x80 + e.2, 1, e.1.toNat)))

theorem witness_journal :
    let m := msg 0 9 (entry 1 9 0 0x0201 [15, 0, 0, 4])
    let gap := msg 0 9 (entry 2 9 0 0x0201 [15, 0, 0, 4])
    let s : State := { hub with pair.role := .standby, pair.journalNext := 1 }
    let e := entryOf m.bytes
    let x : JEntry := ⟨0, 9, 0, 2, true, [], []⟩
    m.pairForm 0x41 = true ∧ s.entry? e.id = none ∧ e.seqNo ≤ s.pair.journalNext ∧ s.pair.journalNext < (entryOf gap.bytes).seqNo ∧
    gap.flags.getLsbD 0 = false ∧ (again gap).flags.getLsbD 0 = true ∧ s.journalBusy = false ∧ fieldLE e.packet 0 2 = 0x0201 ∧
    (State.entry? { s with host.journal := [x] } e.id) = some x ∧
    s.partnerCode (fieldLE e.packet 0 2) e.job (sliceBytes e.packet 64 (fieldLE e.packet 0x12 2)) = 0 ∧
    s.partnerCode 0x0204 7 [] ≠ 0 := by decide +kernel
theorem witness_journalResend :
    let x : JEntry := ⟨1, 9, 0, 1, false, [], []⟩
    let s : State := { hub with host.journal := [x], pair.sent := [⟨0x41, 9, 0, [], none⟩] }
    let m := msg 0 0 (fields 8 [(0, 8, 1)])
    m.pairForm 0x42 = true ∧ s.host.journal.filter (fun x => m.get 0 8 ≤ x.seqNo && s.pairWaits 0x41 x.id) = [x] := by decide +kernel
theorem witness_pairAck :
    let ack := fun (ty : Nat) => msg 1 9 (fields 16 [(0, 1, ty)])
    let x := fun (ty : Nat) => (⟨ty, 9, 1, [], none⟩ : PairSent)
    let r : CmdRun := ⟨9, 0x0206, 1, 0, true, [], none, 0, 1, []⟩
    let s : State := { busy with pair.sent := [0x41, 0x43, 0x44, 0x47, 0x48].map x, host.runs := [r] }
    s.partnerJournals = true ∧ alone.partnerJournals = false ∧ s.pair.role ≠ .withdrawn ∧
    (∀ ty ∈ [0x41, 0x43, 0x44, 0x47, 0x48], (ack ty).pairForm 0x4F = true ∧
      s.pair.sent.find? (fun y => y.ty == (ack ty).get 0 1 && y.ident == (ack ty).ident) = some (x ty)) ∧
    s.pair.sent.find? (fun y => y.ty == (ack 0x45).get 0 1 && y.ident == (ack 0x45).ident) = none ∧ s.run? 9 = some r ∧ r.stage = 1 := by
  decide +kernel

/-! ### Watching the partner -/

theorem witness_heartbeats :
    let m := fun (halting : Nat) => msg 0 0 (fields 12 [(0, 1, 1), (1, 1, halting)])
    (m 0).pairForm 0x40 = true ∧ (∃ flags rest, (m 0).bytes.take 12 = 1 :: flags :: rest ∧ flags.getLsbD 0 = false) ∧
    (∃ flags rest, (m 1).bytes.take 12 = 1 :: flags :: rest ∧ flags.getLsbD 0 = true) ∧ hub.pair.role ≠ .withdrawn ∧
    hub.pair.partnerFailed = false ∧ (msg 0 0 []).pairForm 0x40 = false := by
  refine ⟨by decide +kernel, ⟨_, _, rfl, by decide +kernel⟩, ⟨_, _, rfl, by decide +kernel⟩, by decide +kernel, by decide +kernel, by decide +kernel⟩
theorem witness_partnerLost :
    let admitted := fun (s : State) (k : Nat) => s.jobs.vals.any fun j => j.admittedSites.getLsbD k
    let rejoining : State := { alone with pair.rejoin := some (9, 1) }
    hub.pair.polling = 0 ∧ (∀ k, k < 8 → admitted hub k = false) ∧ (∀ q, q < 8 → (admitted busy q = true ↔ q = 0)) ∧
    alone.pair.partnerFailed = true ∧ alone.pair.rejoin = none ∧ rejoining.pair.rejoin ≠ none ∧ rejoining.pair.role = .sole ∧
    (State.pair { busy with pair.polling := BitVec.ofNat 8 (2 ^ 7) }).polling = BitVec.ofNat 8 (2 ^ 7) ∧ hub.pair.hbPair = false ∧
    hub.pair.hbSide = false ∧ (hub.pair.pollUp || false) = false ∧ (hub.pair.pollUp || true) = true ∧ (hub.port 8).up = true ∧
    (State.reset.port 8).up = false ∧ State.reset.pair.partnerFailed = false ∧ hub.pair.role = .active ∧ hub.pair.fenced = false ∧ hub.jobs = [] ∧
    hub.pair.role ≠ .joining ∧ hub.pair.rejoin = none ∧ hub.host.runs = [] ∧ hub.tor.colls = [] := by decide +kernel
theorem witness_assist :
    let x : Transfer := ⟨77, 0x100, 7, 1, some 5, [1], false, false⟩
    let s : State := { busy with tor.transfers := [x] }
    s.tor.transfers.find? (fun x => x.id == 77 && !x.granted) = some x ∧ (∀ x ∈ s.tor.transfers, ¬ (x.id = 78 ∧ x.granted = false)) ∧
    s.pair.partnerFailed = false ∧ (s.port 8).up = true ∧ alone.pair.partnerFailed = true := by decide +kernel

/-! ### Bedrocks -/

/-- A dedup table of one tray and one shard. -/
def writers : List Byte := fields 84 [(0, 2, 0x72), (2, 2, 1), (4, 4, 1), (8, 2, 1), (10, 2, 1), (12, 4, 1), (0x4C, 4, 1), (0x50, 1, 1)]

/-- A bedrock of job 1 at its root, with one chunk to write. -/
def bed1 : Bedrock := ⟨7, 0, true, 6, some 4, writers, 60, true, true, [(1, 0)], [], [], false, [], none, false⟩

/-- A report of the tray at position 0, complete, and one of another step. -/
def report (step : Nat) : List Byte := fields 128 [(0x68, 8, step), (0x79, 1, 5)]

/-- Job 1 in the bedrock, at a side that leads with two slots. -/
def job1b (b : Bedrock) : Job := { job1 with bed := some b }
def bedded (b : Bedrock) (busy : List Nat) : State :=
  { alone with jobs := [(0, job1b b)], host.targets := some ⟨0, [(0, 2 ^ 22), (0, 2 ^ 22)], 0, busy⟩ }

theorem witness_bedrockChunks :
    let s := bedded bed1 [0]
    hub.job? 1 = none ∧ s.job? 1 = some (job1b bed1) ∧ job1.bed = none ∧ hub.host.targets = none ∧ bed1.chunks = (1, 0) :: [] ∧
    s.host.busMaster = true ∧ s.host.linkOk = true ∧ ([0] : List Nat).contains 1 = false ∧ (∀ q, q < 1 → ([0] : List Nat).contains q = true) ∧
    (∀ k, k < 2 → ([0, 1] : List Nat).contains k = true) ∧ State.reset.host.busMaster = false := by decide +kernel
theorem witness_bedrockReports :
    let s := bedded bed1 []
    let with_ := fun (r : List (List Byte)) => { bed1 with reports := r }
    s.isRoot (job1b bed1) = true ∧ (State.isRoot { s with pair.role := .standby } (job1b bed1)) = false ∧ bed1.manifest = none ∧
    (Bedrock.complete (with_ [report 4])) = true ∧ bed1.complete = false ∧ (Bedrock.complete (with_ [fields 128 [(0x68, 8, 4)]])) = false ∧
    (∃ x ∈ (with_ [report 5, report 4]).reports, fieldLE x 0x68 8 ≠ fieldLE (report 4) 0x68 8) ∧
    ¬ (∃ x ∈ (with_ [report 4]).reports, fieldLE x 0x68 8 ≠ fieldLE (report 4) 0x68 8) ∧ bed1.id ≠ 8 ∧ bed1.busy = [] ∧
    (Bedrock.busy { bed1 with busy := [1] }) ≠ [] := by
  refine ⟨by decide +kernel, by decide +kernel, by decide +kernel, by decide +kernel, by decide +kernel, by decide +kernel, ?_, ?_,
    by decide +kernel, by decide +kernel, by decide +kernel⟩
  · exact ⟨report 5, List.mem_cons_self, by decide +kernel⟩
  · have h : ∀ x ∈ [report 4], fieldLE x 0x68 8 = fieldLE (report 4) 0x68 8 := by decide +kernel
    exact fun ⟨x, hx, hn⟩ => hn (h x hx)
theorem witness_bedrockWarnings :
    let a : BedArm := ⟨8, 60, 60, 1, writers⟩
    let j : Job := { job1 with arm := some a, bedAt := some 0 }
    let s : State := { bedded bed1 [1] with jobs := [(0, j)], now := 60 * 10 ^ 9 }
    s.isRoot j = true ∧ j.arm = some a ∧ j.bed = none ∧ 1 ≤ a.count ∧ j.bedAt = some 0 ∧ 0 + a.minInterval * 10 ^ 9 ≤ s.now ∧
    busy.now < 0 + a.minInterval * 10 ^ 9 ∧ s.host.targets.isSome = true ∧ j.restore = none ∧ j.phase = .running ∧
    (∃ t, s.host.targets = some t ∧ t.busy.contains ((0x41 : W32).toNat % 64) = true ∧ t.busy.contains ((0x40 : W32).toNat % 64) = false) ∧
    job1.arm = none ∧ (bedded bed1 [1]).jobs = [(0, job1b bed1)] ∧ (job1b bed1).slot = 0 ∧ (job1b bed1).restore = none := by
  refine ⟨by decide +kernel, by decide +kernel, by decide +kernel, by decide +kernel, by decide +kernel, by decide +kernel, by decide +kernel,
    by decide +kernel, by decide +kernel, by decide +kernel, ⟨⟨0, [(0, 2 ^ 22), (0, 2 ^ 22)], 0, [1]⟩, by decide +kernel⟩, by decide +kernel,
    by decide +kernel, by decide +kernel, by decide +kernel⟩

end Sys2Proof.Tests
end

