-- ==== Sys2Proof/Tests/WitnessSigned.lean ====
section
/-! SUPPORT. Operands that the commands with a signature take, wherever the signature verifies: a signature takes the kernel too long to
verify, so that these witnesses keep its verification as a premise. -/
namespace Sys2Proof.Tests
open Sys2Proof Sys2Proof.Machine

/-- A signature block of Kerquel slot 0 for an object type, with a key and a signature of zeros, and a fuse map with that key alone. -/
def block (otype : Nat) : List Byte := fields 2916 [(0, 2, 0xA0), (2, 1, 1), (4, 2, otype), (8, 4, 2820)]
def fuses : FuseSt := { State.reset.fuse with programmed := 1, keyHash := [shake256 (List.replicate 68 0)] }

/-- The signature in a block verifies. -/
def Verifies (otype : Nat) (d : Digest) : Prop :=
  xmssVerify 1 (List.replicate 68 0) ((block otype).take 8 ++ digestBytes d) (List.replicate 2820 0) = true

theorem block_accepted (s : State) (hs : s.fuse = fuses) (otype : Nat) (d : Digest) (l : List Nat) (hl : l.contains 1 = true)
    (hf : sigForm 1 otype (block otype) = true) (h2 : fieldLE (block otype) 2 1 = 1) (h3 : fieldLE (block otype) 3 1 = 0)
    (hk : sliceBytes (block otype) 0x10 68 = List.replicate 68 0) (hg : sliceBytes (block otype) 0x60 (sigBytes 1) = List.replicate 2820 0)
    (h : Verifies otype d) : s.sigOk l otype d (block otype) = true := by
  have hv : sigValid 1 d (block otype) = true := by rw [sigValid, hk, hg]; exact h
  have hq : s.keyValid 0 = true := by rw [State.keyValid, hs]; decide
  have hh : (s.fuse.keyHash.getD 0 0 == shake256 (List.replicate 68 0)) = true := by rw [hs]; exact beq_self_eq_true _
  have hfu : s.sigFused 1 otype d (block otype) = true := by rw [State.sigFused, hf, h3, hq, hk, hh, hv]; rfl
  have hn : ¬ (1 : Nat) = 3 := by decide
  simp only [State.sigOk, h2, hl, Bool.true_and, if_neg hn, hfu]

/-- A command without a job whose object passes is taken. -/
theorem takes_of (s : State) (op : Nat) (c : CmdPkt)
    (h1 : (!s.host.device.getLsbD (0 : Fin 256).val && s.hubRuns && !s.slotTaken (0 : Fin 256).val && formCode op (c.bytes op) == 0 &&
      (opInfo op).any (fun q => (s.posted op 0 c).roleAdmits q)) = true)
    (h2 : paramsOk op (c.given op) = true) (h3 : opJob op (c.jobId op) = false) (h4 : (s.posted op 0 c).objectCode op (c.jobId op) (c.given op) = 0)
    (h5 : ((opRefs op (c.given op)).any fun o => !(s.posted op 0 c).wrefReady (c.given op) o) = false)
    (h6 : (s.host.linkOk && (s.entry? (c.ident op)).isNone && (s.run? (c.ident op)).isNone && decide (s.host.idFloor.toNat < (c.ident op).toNat) &&
      !s.journalBusy) = true)
    (hc : (s.posted op 0 c).contentCode op (c.jobId op) (c.given op) = 0) : s.takes op 0 c = true := by
  have hb : s.admits op 0 c = true := by
    rw [State.admits, h1, State.admitCode, h2, h3, h4, h5, hc]
    rfl
  rw [State.takes, hb, Bool.true_and]
  exact h6

/-- A side that runs, with an object in page 0 of the first window. -/
def holding (b : List Byte) : State := { withWindow hub with
  mem := (b.zipIdx.filter fun e => e.1 != 0).map fun e => (frameAddr 64 + e.2, e.1), fuse := fuses }

/-- The least kernel image, profile, authorisation and firmware image. -/
def kernel0 : List Byte := fields 580 [(0, 2, 0x10), (2, 2, 1), (6, 1, 1), (7, 1, 1), (0x18, 2, 1)] ++ block 0x10
def profile0 : List Byte := fields 64 [(0, 2, 1), (2, 2, 1), (5, 1, 1), (6, 1, 1), (7, 1, 1)] ++ block 0x20
def clear0 : List Byte := fields 40 [(0, 2, 0xB0), (2, 2, 1)] ++ block 0xB0
def firmware0 : List Byte := fields 64 [(0, 2, 0xC0), (2, 2, 1)] ++ block 0xC0

theorem witness_kernelLoad (h : Verifies 0x10 (shake256 (kernel0.take 580))) :
    (holding kernel0).takes 0x0103 0 (cmd 0 1 (List.replicate 8 0 ++ wref 0 3496)) = true := by
  refine takes_of _ _ _ (by decide +kernel) (by decide +kernel) (by decide +kernel) (by decide +kernel) (by decide +kernel) (by decide +kernel) ?_
  have hb : (State.posted (holding kernel0) 0x0103 0 (cmd 0 1 (List.replicate 8 0 ++ wref 0 3496))).wrefBytes
      ((cmd 0 1 (List.replicate 8 0 ++ wref 0 3496)).given 0x0103) 8 = kernel0 := by decide +kernel
  have hn : ¬ kernel0.length < 0x240 := by decide +kernel
  have hst : 0x240 + 4 * fieldLE kernel0 0x18 2 = 580 := by decide +kernel
  have hd : kernel0.drop 580 = block 0x10 := by decide +kernel
  have hi : imageOk kernel0 = true := by decide +kernel
  have hs := block_accepted (State.posted (holding kernel0) 0x0103 0 (cmd 0 1 (List.replicate 8 0 ++ wref 0 3496))) (by decide +kernel) 0x10
    (shake256 (kernel0.take 580)) [1, 2] rfl (by decide +kernel) (by decide +kernel) (by decide +kernel) (by decide +kernel) (by decide +kernel) h
  rw [show State.contentCode _ 0x0103 _ _ = State.kernelCheck _ _ from rfl, hb, State.kernelCheck, if_neg hn, hst, hd, hs, hi]
  rfl
theorem witness_profileLoad (h : Verifies 0x20 (shake256 (profile0.take 64))) :
    (holding profile0).takes 0x0105 0 (cmd 0 1 (List.replicate 8 0 ++ wref 0 2980)) = true := by
  refine takes_of _ _ _ (by decide +kernel) (by decide +kernel) (by decide +kernel) (by decide +kernel) (by decide +kernel) (by decide +kernel) ?_
  have hb : (State.posted (holding profile0) 0x0105 0 (cmd 0 1 (List.replicate 8 0 ++ wref 0 2980))).wrefBytes
      ((cmd 0 1 (List.replicate 8 0 ++ wref 0 2980)).given 0x0105) 8 = profile0 := by decide +kernel
  have hd : profile0.drop 64 = block 0x20 := by decide +kernel
  have hi : profileOk (profile0.take 64) = true := by decide +kernel
  have ho : State.ownerValid (State.posted (holding profile0) 0x0105 0 (cmd 0 1 (List.replicate 8 0 ++ wref 0 2980))) = false := by decide +kernel
  have hs := block_accepted (State.posted (holding profile0) 0x0105 0 (cmd 0 1 (List.replicate 8 0 ++ wref 0 2980))) (by decide +kernel) 0x20
    (shake256 (profile0.take 64)) [1] rfl (by decide +kernel) (by decide +kernel) (by decide +kernel) (by decide +kernel) (by decide +kernel) h
  rw [show State.contentCode _ 0x0105 _ _ = State.profileCheck _ _ from rfl, hb, State.profileCheck, ho, hd]
  simp only [Bool.false_eq_true, if_false, hs, hi]
  rfl
theorem witness_evrClear (h : Verifies 0xB0 (shake256 (clear0.take 40))) :
    (holding clear0).takes 0x010F 0 (cmd 0 1 (wref 0 2956)) = true := by
  refine takes_of _ _ _ (by decide +kernel) (by decide +kernel) (by decide +kernel) (by decide +kernel) (by decide +kernel) (by decide +kernel) ?_
  have hb : (State.posted (holding clear0) 0x010F 0 (cmd 0 1 (wref 0 2956))).wrefBytes ((cmd 0 1 (wref 0 2956)).given 0x010F) 0 = clear0 := by
    decide +kernel
  have hd : clear0.drop 40 = block 0xB0 := by decide +kernel
  have ho : State.ownerSigners (State.posted (holding clear0) 0x010F 0 (cmd 0 1 (wref 0 2956))) = [1] := by decide +kernel
  have hf : (State.authFields (State.posted (holding clear0) 0x010F 0 (cmd 0 1 (wref 0 2956))) clear0 8 && fieldLE clear0 2 2 == 1 &&
    zeroBytes clear0 4 4 && zeroBytes clear0 0x18 16) = true := by decide +kernel
  have hs := block_accepted (State.posted (holding clear0) 0x010F 0 (cmd 0 1 (wref 0 2956))) (by decide +kernel) 0xB0
    (shake256 (clear0.take 40)) [1] rfl (by decide +kernel) (by decide +kernel) (by decide +kernel) (by decide +kernel) (by decide +kernel) h
  have hc : State.clearAuth (State.posted (holding clear0) 0x010F 0 (cmd 0 1 (wref 0 2956))) clear0 = true := by
    rw [State.clearAuth, hf, ho, hd, hs]; rfl
  rw [show State.contentCode _ 0x010F _ _ = (if State.clearAuth _ (State.wrefBytes _ _ 0) then 0 else 0x010E) from rfl, hb, hc]
  rfl
theorem firmware_signed (s : State) (hs : s.fuse = fuses) (h : Verifies 0xC0 (shake256 (firmware0.take 64))) : s.fwSigned firmware0 = true := by
  have ho : s.ownerValid = false := by rw [State.ownerValid, State.keyValid, State.keyValid, State.keyValid, State.keyValid, hs]; decide
  have hn : fwBody firmware0 = 64 := by decide +kernel
  have hd : (firmware0.drop 64).take (sigBlockBytes 1) = block 0xC0 := by decide +kernel
  have hv := block_accepted s hs 0xC0 (shake256 (firmware0.take 64)) [1] rfl (by decide +kernel) (by decide +kernel) (by decide +kernel)
    (by decide +kernel) (by decide +kernel) h
  rw [State.fwSigned, hn, hd, ho, hv]
  rfl
theorem witness_fwStage (h : Verifies 0xC0 (shake256 (firmware0.take 64))) :
    (holding firmware0).takes 0x0110 0 (cmd 0 1 (wref 0 2980)) = true := by
  refine takes_of _ _ _ (by decide +kernel) (by decide +kernel) (by decide +kernel) (by decide +kernel) (by decide +kernel) (by decide +kernel) ?_
  have hb : (State.posted (holding firmware0) 0x0110 0 (cmd 0 1 (wref 0 2980))).wrefBytes ((cmd 0 1 (wref 0 2980)).given 0x0110) 0 = firmware0 := by
    decide +kernel
  have hw := firmware_signed (State.posted (holding firmware0) 0x0110 0 (cmd 0 1 (wref 0 2980))) (by decide +kernel) h
  have hl : (decide (firmware0.length < 64) || decide (2 ^ 23 < firmware0.length) || decide (firmware0.length < fwBody firmware0)) = false := by
    decide +kernel
  have hm : fwForm firmware0 = true := by decide +kernel
  have hv : ¬ fieldLE firmware0 8 4 < (State.posted (holding firmware0) 0x0110 0 (cmd 0 1 (wref 0 2980))).fuse.svnMin := by decide +kernel
  rw [show State.contentCode _ 0x0110 _ _ = State.fwCode _ (State.wrefBytes _ _ 0) from rfl, hb, State.fwCode, hl, hw, State.fwCheck, hm, hw]
  simp only [Bool.not_true, Bool.or_self, Bool.false_eq_true, if_false, hv, if_true]
/-- SEC.CTRL.recovery_go with that image in the buffer. -/
theorem witness_recoveryImage (h : Verifies 0xC0 (shake256 (firmware0.take 64))) :
    let s : State := { hub with fuse := fuses, sec.recovery := true, sec.recoveryBuf := firmware0 }
    s.fwCheck (s.sec.recoveryBuf.take (fwBody s.sec.recoveryBuf + sigBlockBytes 1 + if s.ownerValid then sigBlockBytes 2 else 0)) = 0 := by
  intro s
  have hb : s.sec.recoveryBuf.take (fwBody s.sec.recoveryBuf + sigBlockBytes 1 + if s.ownerValid then sigBlockBytes 2 else 0) = firmware0 := by
    decide +kernel
  have hm : fwForm firmware0 = true := by decide +kernel
  rw [hb, State.fwCheck, hm, firmware_signed s rfl h]
  decide +kernel
/-- A fuse authorisation that revokes Kerquel slot 1 under slot 0. -/
def fuse0 : List Byte := fields 80 [(0, 2, 0xB0), (2, 2, 3), (4, 1, 1)] ++ block 0xB0

theorem witness_fuseAuthorised (h : Verifies 0xB0 (shake256 (fuse0.take 80))) : (holding fuse0).fuseOk fuse0 = true := by
  have hd : fuse0.drop 80 = block 0xB0 := by decide +kernel
  have ha : fieldLE fuse0 2 2 = 3 := by decide +kernel
  have ht : fieldLE fuse0 4 1 = 1 := by decide +kernel
  have h3 : fieldLE (block 0xB0) 3 1 = 0 := by decide +kernel
  have hf : ((holding fuse0).authFields fuse0 8 && zeroBytes fuse0 5 3 && zeroBytes fuse0 56 24 && (holding fuse0).fuseAction fuse0) = true := by
    decide +kernel
  have hs := block_accepted (holding fuse0) rfl 0xB0 (shake256 (fuse0.take 80)) [1] rfl (by decide +kernel) (by decide +kernel) (by decide +kernel)
    (by decide +kernel) (by decide +kernel) h
  rw [State.fuseOk, hf, State.fuseSigner, hd, ha, ht, h3]
  simp only [Nat.reduceLT, and_self, if_true, hs]
  rfl

end Sys2Proof.Tests
end

