-- ==== Sys2Proof/Tests/WitnessSite.lean ====
section
/-! SUPPORT. States and operands that meet the hypotheses of the statements on the Bruix block. -/
namespace Sys2Proof.Tests
set_option Elab.async false
open Sys2Proof Sys2Proof.Machine

/-- A capability table: one domain that bears the stream window, 16 watchdogs, 4 feeds, 64 streams, 1,024 route entries, 64 freeze points,
and buffers of a mebibyte. -/
def capTable : List Byte :=
  let b := fields 256 [(0, 2, 0x40), (3, 1, 1), (4, 1, 3), (5, 1, 1), (6, 1, 16), (12, 4, 2), (0x18, 4, 2 ^ 20), (0x1C, 2, 0x1010), (0x1E, 1, 4),
    (0x20, 2, 7), (0x28, 2, 64), (0x2A, 2, 1024), (0x2C, 2, 64), (0x30, 4, 2 ^ 20), (0x34, 4, 2 ^ 20), (0x40, 2, 0x0101), (0x46, 2, 0x0003)]
  putBytes b 0xE0 (leBytes 32 (shake256 (b.take 0xE0)).toNat)

/-- A Bruix block with its table locked, freeze capture on and port A up. -/
def site : State :=
  let s := { State.reset with ports := [(15, Port.init .active)] }
  let s := (List.range 64).foldl (fun (t : State) i => t.wr (.brxCap) (BitVec.ofNat 32 (fieldLE capTable (4 * i) 4)) i) s
  s.wr .brxCtrl 3

/-- The same with a job and the older tag, and with both tags. -/
def site5 : State := { site with brx := { site.brx with job := 1, older := some (BrxTag.opened 5 none) } }
def site56 : State := { site with brx := { site5.brx with newer := some (BrxTag.opened 6 none) } }

/-- ADMIT of job 1 that opens step 5. -/
def admitting : CtlMsg := msg 1 9 (fields 64 ([(0, 2, 1), (2, 1, 1), (3, 1, 1), (4, 2, 100), (8, 4, 7), (0x10, 8, 5), (0x20, 32, 2 ^ 256 - 1)]))

/-! ### Admission and tags -/

theorem witness_siteAdmission : site.capValid = true ∧ site.admitFormOk admitting = true ∧ State.reset.capValid = false ∧
    site.brx.cmds.find? (fun c => c.1 == admitting.ident) = none ∧ site.brx.job = 0 ∧ site.brx.reset = none ∧ site.brx.closing = [] ∧
    (admitting.openSteps.any fun k => site.brx.heldBack.contains (k.setWidth 8)) = false ∧ site5.brx.job ≠ 0 ∧ site5.brx.job ≠ 2 ∧
    site.admitFormOk { admitting with jobId := 0 } = false ∧ (msg 1 9 []).formOk 0 = true ∧ (msg 1 9 [0]).formOk 0 = false ∧
    0 < site.capFld 5 1 ∧ ((capDomain site.capBytes 0).2.2.2.2).testBit 1 = true := by decide +kernel
/-- A repeated command ID, and closures of which one awaits its acknowledgement. -/
theorem witness_siteRepeats :
    let b := { site.brx with cmds := [(9, 0x10, 0, 0)], closing := [⟨[5], true, false, false, [(0, 3)]⟩], leaveWait := [] }
    b.cmds.find? (fun c => c.1 == admitting.ident) = some (9, 0x10, 0, 0) ∧ (b.closing.any fun c => c.acks != []) = true ∧ b.reset = none ∧
    b.swapAcks = [] := by decide +kernel
/-- A directive for step 5. -/
def directive5 : CtlMsg := msg 1 5 (fields 64 [(0, 2, 0x33), (8, 8, 5), (0x11, 1, 16), (0x12, 1, 5), (0x1A, 2, 0xFFFF)])

theorem witness_openTagSet : directiveOk directive5 = true ∧ directiveOk (msg 1 5 []) = false ∧ (msg 1 5 []).formOk 0 = true ∧
    (let c := msg 1 5 (fields 8 [(0, 1, 1)])
     c.formOk 8 = true ∧ c.get 0 1 ≤ 3 ∧ zeroBytes c.bytes 2 6 = true ∧ c.get 0 1 ≠ 0 ∧ c.get 0 1 ≠ 3) ∧
    site5.brx.job = (msg 1 5 []).jobId ∧ (site5.brx.find 5).isSome = true ∧ (site5.brx.find 6) = none ∧ site5.brx.newer = none ∧
    (5 : W64).setWidth 8 + (1 : Byte) = 6 ∧ (255 : W64).setWidth 8 + (1 : Byte) = (256 : W64).setWidth 8 ∧ site5.brx.swapTag ≠ some 6 ∧
    site56.brx.newer.isSome = true ∧ (State.brx { site5 with brx.heldBack := [6] }).heldBack.contains 6 = true ∧
    (State.brx { site with brx.job := 1 }).older = none ∧ (State.brx { site5 with brx.retired := some 4 }).retired = some 4 ∧
    site5.brx.directives = [] ∧ (site56.brx.older.toList ++ site56.brx.newer.toList).map BrxTag.step ≠ [] := by decide +kernel

/-! ### Closures, resets, route banks -/

theorem witness_closures :
    let c : BrxClose := ⟨[5, 6], true, true, false, [(0, 3)]⟩
    let s := { site with brx := { site5.brx with closing := [c] } }
    s.brx.closing = c :: [] ∧ c.lifetime = false ∧ s.brx.leaveWait = [] ∧
    (s.brx.closing.find? fun c => c.acks != [] && (c.waitOlder || c.waitNewer)) = some c ∧ site.brx.closing = [] := by decide +kernel
theorem witness_domainResets :
    let m := msg 1 9 (fields 8 [(0, 2, 1)])
    let r : BrxReset := ⟨1, true, 0, 9, [0]⟩
    site.brx.reset = none ∧ m.formOk 8 = true ∧ zeroBytes m.bytes 2 6 = true ∧ m.get 0 2 ≠ 0 ∧ m.get 0 2 < 2 ^ site.capFld 5 1 ∧
    2 ^ site.capFld 5 1 ≤ (msg 1 9 (fields 8 [(0, 2, 2)])).get 0 2 ∧ site5.brx.older.isSome = true ∧ site.brx.older = none ∧
    r.ident = m.ident ∧ r.mask.getLsbD 0 = true ∧ r.mask.getLsbD 1 = false ∧ r.ready ||| BitVec.ofNat 16 (2 ^ 0) = r.mask ∧
    (3 : W16) ≠ 0 ||| BitVec.ofNat 16 (2 ^ 0) ∧ ((capDomain site.capBytes 0).2.1).testBit 0 = true := by decide +kernel
/-- Staging the last entry of a bank, and one beyond it; a commit of one entry with its digest, and of too many. -/
theorem witness_routeBanks :
    let m := msg 1 9 (fields 16 [(0, 4, 8 * 1023), (4, 4, 8), (8, 8, 77)])
    let far := msg 1 9 (fields 16 [(0, 4, 8 * 1024), (4, 4, 8)])
    let d := (shake256 ((List.range 1).flatMap fun i => leBytes 8 (Tbl.get site.brx.staged 0 i).toNat)).toNat
    let c := msg 1 9 (fields 40 [(0, 4, 1), (8, 32, d)])
    m.formOk (8 + m.get 4 4) = true ∧ m.get 0 4 % 8 = 0 ∧ m.get 4 4 % 8 = 0 ∧ 8 ≤ m.get 4 4 ∧ m.get 0 4 + m.get 4 4 ≤ 8 * site.capFld 0x2A 2 ∧
    8 * site.capFld 0x2A 2 < far.get 0 4 + far.get 4 4 ∧ site.brx.openWait = [] ∧ site.brx.swapAcks = [] ∧ c.formOk 40 = true ∧ c.get 4 1 ≤ 1 ∧
    zeroBytes c.bytes 6 2 = true ∧ c.get 0 4 ≤ site.capFld 0x2A 2 ∧ d = c.get 8 32 ∧ d ≠ (msg 1 9 (fields 40 [])).get 8 32 ∧
    site.capFld 0x2A 2 < (msg 1 9 (fields 40 [(0, 4, 1025)])).get 0 4 ∧ (msg 1 9 (fields 40 [(4, 1, 1)])).get 4 1 = 1 ∧
    site.brx.swapNow = false ∧ (1023 : W16).toNat < site.capFld 0x2A 2 ∧ site.capFld 0x2A 2 ≤ (1024 : W16).toNat := by decide +kernel

/-! ### Registers, freeze, stream, gradient -/

theorem witness_siteRegisters :
    let r := msg 1 0 (fields 8 [(0, 4, 4), (4, 1, 1)])
    let w := msg 1 9 (fields 8 [(0, 4, 4), (4, 4, 3)])
    r.formOk 8 = true ∧ r.get 4 1 = 1 ∧ zeroBytes r.bytes 5 3 = true ∧ r.get 0 4 % 4 = 0 ∧ 64 < (msg 1 0 (fields 8 [(4, 1, 65)])).get 4 1 ∧
    w.formOk 8 = true ∧ findReg Reg.ofBrx (w.get 0 4) = some (.brxCtrl, 0) ∧ (site.rd .brxCtrl).getLsbD 0 = true ∧
    site.fld .brxCtrl 1 1 = 1 ∧ State.reset.fld .brxCtrl 1 1 = 0 ∧ (msg 1 9 []).formOk 0 = true ∧ site.brx.freezeHeld = none ∧
    site.brx.freezing = none ∧ (BrxFreeze.forHang ⟨0, 0, 9, 0, false, []⟩) = false ∧
    site.brx.cmds.find? (fun c => c.1 == 9) = none := by decide +kernel
/-- A stream packet of an entry of 4 elements: new, a copy, from beyond the window, of another generation, with a bad header. -/
theorem witness_streamWindow :
    let c := fields 48 [(0, 1, 1), (1, 1, 1), (0x10, 2, 4), (0x14, 4, 64), (0x18, 8, 5)]
    let p := packet 1 5 0 0 1 0 0 c
    (site5.brx.find p.hdr.tag == some (false, BrxTag.opened 5 none)) = true ∧ p.hdr.gen = site5.brx.gen ∧ (1 : Byte) ≠ site5.brx.gen ∧
    streamHdrOk c 5 = true ∧ streamHdrOk c 6 = false ∧ (BrxTag.opened 5 none).got ≤ 1023 ∧ (1023 : Nat) < (BrxTag.opened 5 none).got + 1024 ∧
    (BrxTag.opened 5 none).got + 1024 ≤ 1024 ∧ (BrxTag.opened 5 none).bitmap.getLsbD 0 = false ∧
    (BrxTag.bitmap { BrxTag.opened 5 none with bitmap := 2 }).getLsbD 1 = true ∧ site5.brx.ring = [] ∧ 0 < site5.capFld 0x18 4 ∧
    site5.brx.ringNext + c.length ≤ site5.capFld 0x18 4 ∧ c.length < fieldLE c 0x14 4 ∧
    (BrxEntry.announced ⟨5, 0, 0, 64, 64, true⟩) = true ∧ site5.brxRoom 32 = true ∧ State.reset.brxRoom 32 = false ∧
    ([(⟨5, 0, 0, 64, 64, false⟩ : BrxEntry)].find? fun e => !e.announced && e.accepted == e.bytes).isSome = true ∧
    64 ≤ ((List.replicate 64 (⟨5, 0, 0, 64, 64, true⟩ : BrxEntry)).filter BrxEntry.announced).length ∧ (site5.brx.find 6) = none := by decide +kernel
/-- A slice of a whole layer, at the greatest and the least bounds; sent in part, in full; the last of its layer. -/
def slice5 : GradSlice := ⟨5, 0, 0, 0, 16384, 0, 0, true, 0, 16384⟩

theorem witness_gradientPath :
    let c : BrxSlice := ⟨slice5, 0, 0⟩
    let full : BrxSlice := ⟨slice5, 16384, 3⟩
    (site5.brx.find slice5.tag).isSome = true ∧ slice5.gen = site5.brx.gen ∧ slice5.first.toNat - slice5.layerFirst.toNat = 0 ∧
    slice5.count.toNat % 16384 = 0 ∧ slice5.fmt = site5.brx.gradFmt ∧ (16383 : W32).toNat % 16384 ≠ 0 ∧
    (([c].find? fun c => c.sentElems < c.desc.count.toNat) = some c) ∧ formatMx c.desc.fmt.val = false ∧
    full.desc.count.toNat ≤ full.sentElems ∧ full.desc.lastOfLayer = true ∧ site5.brx.taps = [] ∧
    (GradSlice.lastOfLayer { slice5 with lastOfLayer := false }) = false ∧ site5.brxRoom 192 = true ∧ State.reset.brxRoom 192 = false ∧
    site5.brx.slices.length < 256 ∧ 256 ≤ (List.replicate 256 c).length := by decide +kernel
/-- A tap of one C row, two, and 16 taps open. -/
def tap5 : TapData := ⟨5, 0, 0, 0, 0, 2, 2, 1, 0, 0, false, 1, 0, 7⟩

theorem witness_taps :
    let y : BrxTap := ⟨tap5, 0, 0, [], [], [], []⟩
    (site5.brx.find tap5.tag).isSome = true ∧ tap5.gen = site5.brx.gen ∧ site5.brx.taps.length < 16 ∧ 16 ≤ (List.replicate 16 y).length ∧
    (y.row false [] [0, 0]).cRows < tap5.rows.toNat ∧ y.cRows + 1 = tap5.rows.toNat ∧ (site5.brx.find 6) = none := by decide +kernel

/-! ### Samples, leases, cursors, step ends, hangs, markers -/

/-- A tile that the table's profile takes, under a directive that selects every tile and one that selects none. -/
def tile5 : TileDesc := ⟨5, 0, 0, 0, 0, 1, 1, 1, 0, 0, 7, 0, 0, 0, 0, false, false, false, 1, 0, 0⟩

theorem witness_samples :
    let dir := fun (th : Nat) => fields 64 [(0, 2, 0x33), (4, 4, th), (0x11, 1, 1)]
    let word := selectionWord 1 5 (siteNo site5.brx.logical) 0 0 0 0
    let c : BrxCapture := ⟨tile5, 0, false, false⟩
    site5.tileOk tile5 = true ∧ site5.tileOk { tile5 with cls := 0xFF } = false ∧ (site5.brx.find tile5.tag).isSome = true ∧
    tile5.gen = site5.brx.gen ∧ word < sampleThreshold (dir (2 ^ 32 - 1)) 0 0 0 ∧ sampleThreshold (dir 0) 0 0 0 ≤ word ∧
    tile5.k.toNat % 2 ^ tile5.gsLog2.toNat = 0 ∧ tile5.payload false ≤ 8 * 2 ^ 20 ∧
    (TileDesc.k { tile5 with gsLog2 := 1 }).toNat % 2 ^ (1 : Byte).toNat ≠ 0 ∧ site5.brx.captures[0]? = none ∧ [c][0]? = some c ∧
    site5.sampleBuffered + 64 + c.desc.payload c.bRef ≤ site5.sampleBuffer ∧ (site5.port 15).up = true ∧ (site5.port 16).up = false ∧
    (State.port { site5 with ports := [(15, { Port.init .active with peerBuf := [0, 0, 0, 1] })] } 15).credit 3 = 1 ∧
    (site5.port 15).credit 3 = 0 := by decide +kernel
/-- Leases of the last stream with the greatest count, and one beyond; cursors before and after the snapshot, at the least index. -/
theorem witness_leases :
    (63 : W16).toNat < site5.capFld 0x28 2 ∧ site5.capFld 0x28 2 ≤ (64 : W16).toNat ∧ (65536 : W32).toNat ≤ 65536 ∧ 65536 < (65537 : W32).toNat ∧
    (2 ^ 32 - 65536 - 1) + 65536 < 2 ^ 32 ∧ (BrxTag.opened 5 none).done = false ∧ (BrxTag.opened 5 none).snapshot = none ∧
    site5.brx.cursorQueue.length < 64 ∧ (BrxTag.opened 5 (some site5.brx.cursors)).snapshot.isSome = true ∧
    cursorInt (site5.brx.cursors.getD 3 0) < cursorInt 0 ∧ (3 : Fin 4).val < site5.capFld 0x1E 1 ∧
    cursorInt 0 ≤ cursorInt (([0, 0, 0, 0] : List W64).getD 0 0) := by decide +kernel
theorem witness_stepEnd :
    let t := BrxTag.opened 5 none
    site56.brx.find 5 = some (false, t) ∧ t.done = false ∧ (site56.brx.newer.any fun n => n.snapshot.isNone) = true ∧ site5.brx.newer = none ∧
    (BrxTag.done { t with done := true }) = true ∧ t.reported = false ∧ site5.tagPending 5 = false ∧ site5.brx.pulses.length = 16 ∧
    State.tagPending { site5 with brx.taps := [⟨tap5, 0, 0, [], [], [], []⟩] } 5 = true := by decide +kernel
/-- An armed watchdog, one that is not, and one beyond those of the table; a hang declared already. -/
theorem witness_watchdogs : (site5.wr .brxWdog 0x80000064 15).wdogArmed 15 = true ∧ (15 : Fin 16).val < site5.capFld 6 1 ∧
    site5.wdogArmed 15 = false ∧ site5.brx.hang = false ∧ State.reset.capFld 6 1 ≤ (0 : Fin 16).val := by decide +kernel
theorem witness_markers :
    let m : Marker := ⟨1, 5, 2, 4, 1, 1, 63⟩
    site5.brx.job ≠ 0 ∧ m.jobId = site5.brx.job ∧ m.hops.toNat < 64 ∧ 64 ≤ (64 : Byte).toNat ∧ (m.origin, m.abortSeq) ∉ site5.brx.markersSeen ∧
    m.flags.getLsbD 1 = true ∧ m.flags.getLsbD 2 = false ∧ (site5.brx.older.any fun o => o.step.setWidth 8 == m.tags) = true := by
  decide +kernel

/-! ### What the block answers its controllers -/

theorem witness_siteMessages :
    let x : SiteSent := ⟨0, 0x12, 5, 1, [], 0⟩
    let a := fun (ty st : Nat) => msg 1 5 (fields 8 [(0, 1, ty), (1, 1, st)])
    (a 0x15 0).formOk 8 = true ∧ (a 0x15 0).get 0 1 = 0x15 ∧ (a 0x15 0).get 3 1 = 0 ∧ (msg 1 5 (fields 8 [(3, 1, 1)])).get 3 1 ≠ 0 ∧
    ([x].find? fun y => y.site == 0 && y.ty == (a 0x12 0).get 0 1 && y.ident == (a 0x12 0).ident) = some x ∧ busy.host.siteSent = [] ∧
    (let r := msg 1 0 (fields 0x54 [(0, 8, 5), (0xA, 2, 1)])
     r.formOk (0x50 + 4 * r.get 0xA 2) = true ∧ r.get 0xE 2 = 0 ∧ r.get 0x4C 4 = 0 ∧ r.get 0x48 4 = 0) ∧
    (msg 1 0 (fields 72 [])).formOk 72 = true ∧ (msg 1 0 (fields 16 [])).formOk 16 = true ∧ (msg 1 0 []).formOk 72 = false ∧
    zeroBytes (msg 1 0 (fields 72 [])).bytes 3 5 = true ∧ zeroBytes (msg 1 0 (fields 72 [(3, 1, 1)])).bytes 3 5 = false ∧
    (msg 1 0 (fields 16 [(3, 1, 6)])).get 3 1 &&& 0xF9 = 0 ∧ (msg 1 0 (fields 16 [(3, 1, 8)])).get 3 1 &&& 0xF9 ≠ 0 ∧
    zeroBytes (msg 1 0 (fields 16 [])).bytes 13 3 = true ∧
    (let d := msg 1 0 (fields 264 [(4, 1, 64)])
     d.get 4 1 ≤ 64 ∧ d.formOk (8 + 4 * d.get 4 1) = true ∧ d.get 5 3 = 0) ∧ 64 < (msg 1 0 (fields 8 [(4, 1, 65)])).get 4 1 ∧
    (let f := msg 1 0 (fields 1032 [(4, 4, 2048)])
     f.formOk f.length.toNat = true ∧ 9 ≤ f.length.toNat ∧ f.length.toNat ≤ 1032 ∧ f.get 0 4 = 0 ∧ busy.leads = true ∧
     (sliceBytes f.bytes 8 (f.length.toNat - 8)).length < f.get 4 4) ∧ (busy.port 0).up = true ∧
    (State.run? { busy with host.runs := [⟨9, 5, 1, 0, true, [], none, 0, 0, []⟩] } 9).isSome = true := by decide +kernel

end Sys2Proof.Tests
end

