-- ==== Sys2Proof/Tests/WitnessSlice.lean ====
section
/-! SUPPORT. States and operands that meet the hypotheses of the statements on the machine as a whole, on arithmetic and on the update
slices. -/
namespace Sys2Proof.Tests
set_option Elab.async false
open Sys2Proof Sys2Proof.Machine

/-! ### The machine as a whole -/

theorem witness_stepRunsFront : ({ State.reset with pending := [.helloTx] }).pending = .helloTx :: [] := rfl
theorem witness_commandsAnswer : onSite .helloTx = false ∧ onBoth .helloTx = false ∧ onSite .brxPor = true := by decide +kernel
theorem witness_nothingLeftDue : State.reset.quiet = true ∧ ({ State.reset with now := 1 }).quiet = true := by decide +kernel
/-- An order that is more than the reset state's: two open tags, the newer one after a wrap of the tag. -/
theorem witness_siteOrderKept :
    (let b := State.reset.brx
     State.siteOk { State.reset with brx := { b with job := 1, older := some (BrxTag.opened 255 none), newer := some (BrxTag.opened 256 none) } }
       = true) ∧ State.reset.siteOk = true ∧ ∃ t, step { State.reset with pending := [.brxPor] } = .next t :=
  ⟨by decide +kernel, by decide +kernel, _, rfl⟩
theorem witness_sliceWordsRoundTrip : encodeSlice (.vadd 15 31 31 31 31 7 7) = some (15, 0x07FFFFFF) ∧
    encodeSlice (.halt 0 0 0 0 0) = some (0, 0xEC000000) := by decide +kernel

/-! ### Arithmetic -/

/-- Bracketed values: exact, a tie, below and above a tie, and beyond the largest magnitude of E4M3. -/
theorem witness_conversionRoundsOnce : fpFormat 2 = some fmtBf16 ∧ fmtBf16.magnitude 0x3F80 ≤ (257 : ℚ) * 2 ^ (-8 : Int) ∧
    (257 : ℚ) * 2 ^ (-8 : Int) < fmtBf16.magnitude (0x3F80 + 1) ∧ fmtBf16.magnitude 0x3F80 ≤ (1 : ℚ) * 2 ^ (0 : Int) ∧
    fmtBf16.magnitude 0 ≤ (0 : ℚ) * 2 ^ (0 : Int) := by
  refine ⟨rfl, ?_, ?_, ?_, ?_⟩ <;> norm_num [FpFormat.magnitude, fmtBf16]
theorem witness_conversionBeyond : ∀ f, fpFormat 4 = some f → f.magnitude (f.maxMag + 1) ≤ (480 : ℚ) * 2 ^ (0 : Int) ∧ (480 : ℚ) * 2 ^ (0 : Int) < f.magnitude (f.maxMag + 2) := by
  intro f h; cases h; norm_num [FpFormat.magnitude]
theorem witness_conversionInt8 : ((126 : Nat) : ℚ) * 1 ≤ (253 : ℚ) * 2 ^ (-1 : Int) ∧ (253 : ℚ) * 2 ^ (-1 : Int) < ((126 : Nat) + 1) * 1 := by
  norm_num
theorem witness_exactValues : fpFormat 1 = some fmtB32 ∧ (0x80000001 : Nat) < 2 ^ fmtB32.width ∧
    fpDecode fmtB32 0x80000001 = .fin true 1 (-149) := by decide +kernel
theorem witness_packed : (4 : Nat) = 4 ∧ 2 * 0 + 1 < [3, 10].length ∧ [1, 2, 3, 63].length = 4 := by decide +kernel
theorem witness_countersSaturate : Reg.wraps .spkTagDiscards = false ∧ (∃ r, Reg.wraps r = true) ∧
    Reg.key .spkTagDiscards 1 ≠ Reg.key .spkTagDiscards 0 :=
  ⟨by decide +kernel, ⟨.strFlipCount, by decide +kernel⟩, by decide +kernel⟩

/-! ### The update slices -/

/-- An image: two phases, two parameter words, and streams 0 to 6 of every kind bound in phase 0. -/
def image : List Byte := fields 0x280 ([(6, 1, 2), (10, 2, 1), (12, 2, 8), (14, 2, 9), (0x18, 2, 16), (0x1A, 1, 2), (0x1B, 1, 1),
  (0x20, 8, 0x1111111)] ++ ([1, 6, 4, 3, 2, 5, 2].zipIdx.flatMap fun e => [(0x40 + 32 * e.2, 1, e.1), (0x42 + 32 * e.2, 1, 1),
    (0x50 + 32 * e.2, 8, 1024)]))

/-- Slice 2 runs the span of a group in phase 0, with a scratch tile. -/
def slicing : State := { busy with
  host.kernels := [(0, image)]
  upd.run := some ⟨1, 5, 0, 0, 0, 0, [], false⟩
  upd.slices := [(2, { Slice.init with run := some ⟨1, 5, 0, 0, false, 0, 0, 32⟩, pc := 1, scratch := [9], s := [(5, 9), (6, 512)] })] }

/-- The context of slice 2, as the statements name it. -/
def slicing2 : SliceCtx := ⟨2, ⟨1, 5, 0, 0, false, 0, 0, 32⟩, ⟨1, 5, 0, 0, 0, 0, [], false⟩, image, job15, step5⟩

theorem slicing_ctx : ((slicing.sliceCtx 2).any fun c => c.k == 2 && c.inv == slicing2.inv && c.disp == slicing2.disp && c.img == image &&
    c.job == job15 && c.step == step5) = true := by decide +kernel

theorem witness_vectorArithmetic : (slicing.slice 2).stopped = false ∧ modeOk 3 [0, 30] = true ∧ modeOk 0 [31, 31, 31, 31] = true ∧
    modeOk 3 [0, 2, 30, 4] = true := by decide +kernel
theorem witness_movesSelectsAndMasks : (slicing.slice 2).stopped = false ∧ modeOk 2 [31, 1] = true ∧ modeOk 3 [30] = true ∧
    (4 : Nat) ≤ 4 ∧ (3 : Nat) ≤ 3 := by decide +kernel
/-- The lowest slot that VACCSQ may use, the last field, a layer of which nothing waits, POWI's and SCVT's free values. -/
theorem witness_slotsAndScalars : (slicing.slice 2).stopped = false ∧ modeOk 3 [30] = true ∧ (2 : Nat) ≤ (2 : Fin 8).val ∧
    (4 : Fin 8).val ≤ 4 ∧ (slicing.upd.run.all fun d => !d.waiting) = true ∧ (0x8000000000000000 : W64).msb = true ∧
    (0x7FFFFFFFFFFFFFFF : W64).msb = false ∧ valNonfinite (fpDecode fmtB64 0x7FF0000000000000) = true ∧
    2 ^ 63 ≤ valRoundInt 1 (fpDecode fmtB64 0x43E0000000000000) ∧ valRoundInt 1 (fpDecode fmtB64 0x43DFFFFFFFFFFFFF) < 2 ^ 63 ∧
    -(2 ^ 63) ≤ valRoundInt 1 (fpDecode fmtB64 0xC3E0000000000000) ∧ valRoundInt 1 (fpDecode fmtB64 0xC3E0000000000001) < -(2 ^ 63) := by
  decide +kernel
/-- Every FR byte named is valid: the first format, the last, and stochastic rounding. -/
theorem witness_formatConversion : (slicing.slice 2).stopped = false ∧ ([0x01, 0x09, 0x42].all fun fr =>
    frValid fr && decide (1 ≤ frFormat fr) && decide (frFormat fr ≤ 9)) = true ∧ frRound 0x42 = 2 := by decide +kernel
theorem witness_parametersAndControl : (slicing.sliceCtx 2).isSome = true ∧ 1 < imgParams image ∧ (slicing.slice 2).loops.length < 4 ∧
    (slicing.slice 2).pc + 6 < imgTo image 0 ∧ (slicing.slice 2).sget 5 ≠ 0 ∧ (slicing.slice 2).sget 0 = 0 ∧ brTaken 0 0 = true ∧
    brTaken 2 0 = false ∧ (imgFrom image 0 : Int) ≤ 0 ∧ (7 : Int) < imgTo image 0 := by decide +kernel
/-- Slice 0 runs too: its SSTB is the one that takes effect. -/
theorem witness_parametersSlice0 :
    (State.sliceCtx { slicing with upd.slices := [(0, slicing.slice 2)] } 0).isSome = true := by decide +kernel
theorem witness_stoppedSlice : (State.slice { slicing with upd.slices := [(2, { slicing.slice 2 with stopped := true })] } 2).stopped = true ∧
    encodeSlice (.fence 2 0 0 0 0) = some (2, 0xE8000000) := by decide +kernel
/-- A stream of each kind, at its first position: committed, working, auxiliary, gradient and output. -/
theorem witness_streams : (slicing.sliceCtx 2).isSome = true ∧ (List.range 5).map (fun st => (imgBound image st 0, imgStream image st 0 1,
      imgStream image st 3 1, (slicing.slice 2).streamPos image st)) =
    [(true, 1, 0, 0), (true, 6, 0, 0), (true, 4, 0, 0), (true, 3, 0, 0), (true, 2, 0, 0)] ∧ 0 < slicing2.span ∧ slicing2.span ≤ slicing2.real ∧
    imgStream image 3 4 2 = 0 ∧ slicing2.job.siltFormat ≠ 2 ∧ frRound (imgStream image 4 2 1) ≠ 2 ∧
    imgStream image 2 8 8 + imgStream image 2 0x10 8 = 1024 := by decide +kernel
/-- The working stratum takes its own copy of page 0. -/
theorem witness_streamStore :
    (State.workPages { slicing with store.quota := [(0, 1000)], jobs := [(0, { job15 with strata := job15.strata.openWorking 5 })] } ⟨1, 5, 0, 0, 0, 0, [], false⟩ [0]).isSome = true := by decide +kernel
theorem witness_scratchTiles : (slicing.sliceCtx 2).isSome = true ∧ (slicing.slice 2).tileRef 5 = some (9, 0) ∧ imgBound image 2 0 = true ∧
    imgBound image 5 0 = true ∧ imgStream image 5 0 1 = 5 ∧ ((slicing.slice 2).sget 6).toNat % 512 = 0 ∧
    ((slicing.slice 2).sget 6).toNat < imgStream image 5 8 8 + imgStream image 5 0x10 8 := by decide +kernel
/-- Output streams at their end; more to run, and none: in a last gradient phase and in another. -/
theorem witness_halt : (slicing.sliceCtx 2).isSome = true ∧ (slicing.slice 2).poison = false ∧
    slicing2.span ≤ Slice.streamPos { slicing.slice 2 with pos := [(4, 16384), (6, 16384)] } image 4 ∧ (slicing.slice 2).todo = [] ∧
    slicing2.inv.phase = imgGradLast image ∧ (1 : Nat) ≠ imgGradLast image := by decide +kernel
theorem witness_kernelFaults : (slicing.slice 2).stopped = false ∧ (slicing.sliceCtx 2).isSome = true ∧ modeOk 3 [1, 0, 0] = false ∧
    modeOk 4 [0, 0, 0] = false ∧ imgBound image 7 0 = false ∧ (slicing.slice 2).tileRef 6 = none ∧ imgParams image ≤ 2 :=
  by decide +kernel

end Sys2Proof.Tests
end

