-- ==== Sys2Proof/Tests/WitnessSystem.lean ====
section
/-! SUPPORT. States and operands that meet the hypotheses of the statements on time, starts, power, trust, the recorder, the sideband and I3C. -/
namespace Sys2Proof.Tests
set_option Elab.async false
open Sys2Proof Sys2Proof.Machine

/-! ### Time -/

/-- A domain that is valid and locked, a residual at the most that a tick takes off and one above it. -/
theorem witness_clock :
    let x : Domain := { Domain.init with valid := true, locked := true }
    let s : State := { hub with tmu.dom0 := x, tmu.dom1 := x }
    let r := (s.slewRate : Int)
    s.pending = [] ∧ s.slewRate = min 1000000 (max 1 (s.rd .tmuSlew).toNat) * 2 ^ 40 ∧ r.natAbs ≤ s.slewRate ∧ (r : Int) < r + 1 ∧ -r - 1 < -r ∧
    Reg.tmuSlew.key 0 ≠ Reg.tmuFreqAdj.key 1 ∧ Reg.tmuFreqAdj.key 0 ≠ Reg.tmuFreqAdj.key 1 ∧
    ((s.wr .tmuSetNs 999999999 1).rd .tmuSetNs 1).toNat < 10 ^ 9 ∧ 10 ^ 9 ≤ ((s.wr .tmuSetNs 1000000000 1).rd .tmuSetNs 1).toNat ∧
    s.fld .tmuCtrl 0 1 = 0 ∧ s.fld .tmuCtrl 0 1 ≠ 1 ∧ s.selDomain.valid = true ∧ (s.dom 1).valid = true ∧ (s.dom 1).locked = true ∧
    (hub.dom 0).locked = false := by decide +kernel
/-- Time messages on, domain 1 measured over the torus from 0x100; a request, a response whose halves are whole, and one a unit off. -/
def overTorus : State :=
  let s := ((({ hub with tmu.dom1 := { Domain.init with valid := true } } : State).wrFld .tmuCtrl 2 1 1).wrFld .tmuDomainCfg 0 2 2 1).wrFld .tmuDomainCfg 16 16 0x100 1
  s
def timeMsg (ty corr : Nat) : List Byte := fields 64 [(0, 1, ty), (1, 1, 1), (2, 2, 7), (8, 8, corr)]

theorem witness_timeExchange :
    let s := overTorus
    let asked : State := { s with tmu.dom1 := { s.dom 1 with reqOpen := true, reqSeq := 7, reqTa := some 0 } }
    let up := fun (b : List Byte) => stampAt b 0x18 - 0 - (BitVec.ofNat 64 (fieldLE b 0x10 8)).toInt
    let down := fun (b : List Byte) => (((asked.dom 1).t / 2 ^ 24 : Nat) : Int) - stampAt b 0x28 - ((BitVec.ofNat 64 (fieldLE b 8 8)).toInt + (asked.rd .tmuCalRx 5).toInt * 256)
    s.fld .tmuCtrl 2 1 ≠ 0 ∧ (hub.wrFld .tmuCtrl 2 1 0).fld .tmuCtrl 2 1 = 0 ∧ s.fld .tmuDomainCfg 0 2 1 = 2 ∧ (s.dom 1).reqOpen = false ∧
    (asked.dom 1).reqOpen = true ∧ timeForm 1 (timeMsg 1 0) = true ∧ timeForm 2 (timeMsg 2 0) = true ∧ timeForm 1 [] = false ∧ timeForm 2 [] = false ∧
    fieldLE (timeMsg 1 0) 1 1 = 1 ∧ (s.dom 1).valid = true ∧ (hub.dom 1).valid = false ∧ fieldLE (timeMsg 2 0) 4 2 = s.position.toNat ∧
    fieldLE (timeMsg 2 0) 2 2 = (asked.dom 1).reqSeq ∧ fieldLE (timeMsg 2 0) 2 2 ≠ (s.dom 1).reqSeq ∧ (asked.dom 1).reqTa = some 0 ∧
    (s.dom 1).reqTa = none ∧ (up (timeMsg 2 0) + down (timeMsg 2 0)) % 2 = 0 ∧ (up (timeMsg 2 1) + down (timeMsg 2 1)) % 2 = 1 := by decide +kernel
/-- PTP on domain 0, PTP domain 127; a Sync of its master and of another. -/
def overPtp : State :=
  ((({ hub with tmu.dom0 := { Domain.init with valid := true, master := some [1, 9] } } : State).wrFld .tmuCtrl 1 1 1).wrFld .tmuDomainCfg 0 2 1 0).wrFld
    .tmuDomainCfg 8 7 127 0

theorem witness_ptp :
    let m : PtpSync := ⟨127, 7, true, (0, 0), 0, 9⟩
    let x := overPtp.dom 0
    let y : Domain := { x with ptpSeq := 7, ptpT2 := some 2, ptpT3 := some 3 }
    overPtp.ptpDomains m.domain.val = [0] ∧ hub.ptpDomains 0 = [] ∧ x.master = some [1, 9] ∧ ([1, 9] : List Nat).getLast? = some m.sender.toNat ∧
    (∀ w, x.master = some w → w.getLast? ≠ some (8 : W64).toNat) ∧ x.ptpT2 = none ∧ y.ptpT2 = some 2 ∧ y.ptpT1 = none ∧ y.ptpSeq = (7 : W16).toNat ∧
    y.ptpT3 = some 3 ∧ y.ptpT4 = none ∧ y.ptpSeq ≠ (8 : W16).toNat ∧ (((2 : Int) - 1) + (4 - 3)) % 2 = 0 ∧ (hub.dom 0).master = none ∧
    vectorLe [1, 8] [1, 9] = true ∧ ([1, 9] : List Nat).getLast? ≠ ([2, 8] : List Nat).getLast? ∧ vectorLe [2, 8] [1, 9] = false := by
  refine ⟨by decide +kernel, by decide +kernel, by decide +kernel, by decide +kernel, ?_, by decide +kernel⟩
  intro w h
  obtain rfl : [1, 9] = w := Option.some.inj ((by decide +kernel : (overPtp.dom 0).master = some [1, 9]).symm.trans h)
  decide

/-! ### Starts and resets -/

theorem witness_powerGood :
    let off : State := { hub with pwr.pwrGood := false, now := 10 ^ 10 }
    let often : State := { off with pwr.pgStarts := [1, 2, 3, 4] }
    off.pwr.pwrGood = false ∧ (off.pwr.pgStarts.filter fun a => off.now < a + 10 ^ 10).length < 4 ∧
    4 ≤ (often.pwr.pgStarts.filter fun a => often.now < a + 10 ^ 10).length ∧ hub.pwr.pwrGood = true ∧ hub.pwr.start ≠ .cold ∧
    (PwrSt.start { hub.pwr with start := .cold }) = .cold ∧ (10 : Nat) ≤ 10 ^ 7 ∧ (10 : Nat) ^ 7 < 10 ^ 7 + 1 ∧ hub.pwr.brownout = false ∧
    hub.pwr.released = true ∧ hub.pwr.startHalted = false ∧ hub.pwr.warmMasked = false ∧ (PwrSt.warmMasked { hub.pwr with warmMasked := true }) = true := by
  decide +kernel
theorem witness_warmAgain : (∃ a, (PwrSt.lastWarmAt { hub.pwr with lastWarmAt := some 0 }) = some a ∧ hub.now < a + 10 ^ 9) ∧
    ¬ (∃ a, hub.pwr.lastWarmAt = some a ∧ hub.now < a + 10 ^ 9) := by
  have h : hub.pwr.lastWarmAt = none := by decide +kernel
  exact ⟨⟨0, by decide +kernel, by decide +kernel⟩, fun ⟨a, e, _⟩ => by rw [h] at e; cases e⟩
/-- Partial resets: of units 15, 54, 16 and 31, a slice that is idle or in an update, ports up and down, cores of which four remain or three. -/
theorem witness_partialResets :
    let s : State := { hub with pwr.bistGood := BitVec.allOnes 72 }
    let left := fun (mask : Byte) => ((List.range 8).filter fun c => s.usable (56 + c) && !mask.getLsbD c).length
    let d : Dispatcher := ⟨1, 5, 0, 0, 0, 0, [], false⟩
    s.pwr.start = .none ∧ s.pwr.released = true ∧ (15 : Fin 128).val < 16 ∧ 53 < (54 : Fin 128).val ∧ (31 : Fin 128).val = 16 + 15 ∧
    (s.slice 15).run = none ∧ (s.slice 15).todo = [] ∧ (State.upd { s with upd.run := some d }).run = some d ∧
    (State.slice { s with upd.slices := [(15, { Slice.init with run := some ⟨1, 5, 0, 0, true, 0, 0, 0⟩ })] } 15).run ≠ none ∧ (s.port 7).up = false ∧
    (s.port 0).up = true ∧ (34 : Fin 128).val = (if 0 < 8 then 34 + 0 else 33 + 0) ∧ (53 : Fin 128).val = 39 + 14 ∧ 4 ≤ left 0x0F ∧ left 0x1F < 4 := by decide +kernel
theorem witness_startWatchdog :
    let p : PwrSt := { hub.pwr with start := .cold, phase := 2 }
    p.start ≠ .none ∧ hub.pwr.start = .none ∧ p.released = true ∧ (PwrSt.failsInRow { p with failsInRow := 1 }) < 2 ∧
    2 ≤ (PwrSt.failsInRow { p with failsInRow := 2 }) ∧ p.start = .cold ∧ p.phase.val ≤ 2 ∧
    (⟨false, 0, 0, 0, false⟩ : StrapSt) = ⟨false, 0, 0, 0, false⟩ ∧ ¬ ((⟨false, 0, 0, 0, false⟩ : StrapSt) = ⟨true, 0, 0, 0, false⟩) ∧
    p.strapChanged = false ∧ p.pwrGood = true ∧ .tmuSlew ∉ Reg.ofBrx := by decide +kernel

/-! ### Bring-up and power -/

theorem witness_bringUp :
    let p : PwrSt := { hub.pwr with start := .cold, phase := 2 }
    let w : PwrSt := { hub.pwr with start := .warm, phase := 4, marker := some (0, 0), hbmSupplyHeld := true, hbmTrained := BitVec.allOnes 16 }
    let whole : State := { hub with pwr.bistGood := BitVec.allOnes 72, pwr.hbmTrained := BitVec.allOnes 16 }
    p.start = .cold ∧ p.phase.val ≤ 2 ∧ hub.fuse.unitBad = 0 ∧ (∀ u, u < 72 → ([] : List Nat).getD u 0 = 0) ∧ w.start = .warm ∧ w.phase = 4 ∧
    w.marker = some (w.startCount, w.startCount) ∧ w.hbmSupplyHeld = true ∧ w.hbmTrained = BitVec.allOnes 16 ∧
    hub.pwr.marker ≠ some (hub.pwr.startCount, hub.pwr.startCount) ∧ whole.essentialMissing = false ∧ hub.essentialMissing = true ∧
    hub.pwr.strapUnstable = false ∧ hub.pwr.brownout = false ∧ (none : Option Role) ≠ some .active := by decide +kernel
theorem witness_temperature :
    let warn := max 80 (min 104 (hub.fld .pwrTherm 8 8 : Int))
    80 ≤ warn ∧ warn ≤ 104 ∧ (79 : Int) < warn ∧ (104 : Int) < 105 ∧ warn ≤ 104 ∧ (75 : Int) ≤ warn - 5 ∧ warn - 5 < 100 ∧ (114 : Int) < 115 ∧
    hub.pwr.warned = false ∧ hub.pwr.throttled = false ∧ hub.pwr.tripped = false ∧ hub.pwr.tj < 100 := by decide +kernel
/-- Domains: slice 0's depends on stack 0's; spoke 0's on 60 and 61; one in use, one free. -/
theorem witness_domains :
    let s : State := hub
    let inUse := fun (s : State) (d : Nat) => s.domUsed d || (List.range 64).any (fun e => s.pwr.domOn.getLsbD e && (domDeps e).contains d)
    inUse s 0 = true ∧ inUse s 16 = false ∧ (∀ e ∈ domDeps 16, s.pwr.domOn.getLsbD e = true) ∧
    (∃ e ∈ domDeps 16, BitVec.getLsbD (0 : BitVec 64) e = false) ∧ hub.pwr.calSaved = false ∧ hub.pwr.pwrGood = true := by decide +kernel
/-- A fuse authorisation: no window, a page of the host's, and a page handed over. -/
theorem witness_fuseWindows :
    let w : Window := ⟨1, 0, [64], [0]⟩
    let s : State := { hub with host.windows := [(0, w)] }
    hub.window? (hub.fld .pwrFuseAuth 16 8) = none ∧ s.window? (s.fld .pwrFuseAuth 16 8) = some w ∧ w.kind = 1 ∧
    s.pageFlag (s.fld .pwrFuseAuth 16 8) (s.fld .pwrFuseAuth 0 12) = 1 ∧
    (State.pageFlag { s with host.windows := [(0, { w with device := [] })] } (s.fld .pwrFuseAuth 16 8) (s.fld .pwrFuseAuth 0 12)) ≠ 1 := by
  decide +kernel
theorem witness_rootOfTrust :
    let s : State := { hub with sec.mailbox := [.manifest [1], .attest 9 []], sec.recovery := true }
    let a : State := { hub with sec.mailbox := [.attest 9 []], host.runs := [⟨9, 0x0111, 0, 0, true, [], none, 0, 0, []⟩] }
    s.sec.recovery = true ∧ hub.sec.recovery = false ∧ s.fwCheck [] ≠ 0 ∧ s.sec.reserving = false ∧ (SecSt.reserving { s.sec with reserving := true }) = true ∧
    hub.sec.mailbox = [] ∧ s.sec.mailbox = .manifest [1] :: [.attest 9 []] ∧ s.sec.nextIndex + 2 < 2 ^ 40 ∧
    2 ^ 40 ≤ (SecSt.nextIndex { s.sec with nextIndex := 2 ^ 40 - 2 }) + 2 ∧ a.sec.mailbox = .attest 9 [] :: [] ∧ (a.run? 9).isSome = true := by
  decide +kernel
/-- Reservation sectors in order, and two for which the sector in use has room, or may give way to the other, which is empty. -/
theorem witness_reservations :
    let x : SecSt := { hub.sec with resv0 := [⟨0, 1024, true⟩, ⟨1, 2048, false⟩], reservedEnd := 1024, reserving := true }
    (∀ q ∈ x.resv0 ++ x.resv1, q.crcOk = true → q.blockEnd ≤ x.reservedEnd) ∧ x.reserving = true ∧
    (x.resv0.length < Config.resvRecords ∨ (Config.resvRecords ≤ x.resv0.length ∧ x.resv1 = [])) :=
  ⟨by decide +kernel, rfl, (Nat.lt_or_ge _ _).imp_right fun h => ⟨h, rfl⟩⟩

/-! ### The recorder -/

theorem witness_recorder :
    let r : EvRec := ⟨1, false, 3, 0, 0, 0, 0x10, 0, 0, 0, none, none, []⟩
    let s : State := (({ hub with ev := { hub.ev with queue := [r], openRec := some (r, 0), clearing := true }, side.i3cAddr := some 8, side.i3cEvents := true } :
      State).wrFld .evrCtrl 0 1 1).wrFld .evrCtrl 1 3 1
    hub.ev.openRec = none ∧ s.ev.openRec = some (r, 0) ∧ hub.ev.queue = [] ∧ s.ev.queue = r :: [] ∧ s.sec.reserving = false ∧ hub.ev.clearing = false ∧
    s.ev.clearing = true ∧ hub.ev.nor.length < 65536 ∧ 1 ≤ r.sev ∧ s.fld .evrCtrl 0 1 = 1 ∧
    s.fld .evrCtrl 1 3 ≤ r.sev ∧ s.side.i3cEvents = true ∧ s.side.i3cAddr ≠ none := by decide +kernel
theorem witness_fullRing (r : EvRec) : 65536 ≤ (List.replicate 65536 r).length := by rw [List.length_replicate]
theorem witness_trace :
    let s : State := { hub with ev := { hub.ev with tracing := true, traceCores := 0x80, traceSince := [(7, 4095)] } }
    s.ev.tracing = true ∧ s.ev.traceCores.getLsbD 7 = true ∧ s.ev.traceCores.getLsbD 0 = false ∧ hub.ev.tracing = false ∧
    (Tbl.get s.ev.traceFifo [] 7).length < 255 ∧ Tbl.get s.ev.traceSince 0 7 = 4095 ∧ Tbl.get hub.ev.traceSince 0 7 < 4095 ∧
    256 ≤ (List.replicate 256 ([] : List Byte)).length := by decide +kernel

/-! ### The sideband and I3C -/

theorem witness_sideband :
    let s : State := { hub with side := { hub.side with frame := some (1, [], 2), presence := 0x400 } }
    s.side.presence.getLsbD 10 = true ∧ s.side.presence.getLsbD 9 = false ∧ (fields 4 []).length = 4 ∧ (fields 6 []).length = 6 ∧
    (fields 12 []).length = 12 ∧ (hub.wrFld .pairCtrl 0 1 0).fld .pairCtrl 0 1 = 0 ∧ (hub.wrFld .pairCtrl 0 1 1).fld .pairCtrl 0 1 = 1 ∧
    hub.pair.role ≠ .withdrawn ∧ hub.side.driverOff = false ∧ hub.pair.fenced = false ∧ hub.side.frame = none ∧ s.side.waiting = false ∧
    (SideSt.waiting { s.side with waiting := true }) = true ∧ (SideSt.driverOff { s.side with driverOff := true }) = true ∧
    (fields 65 []).length = 65 ∧ fieldLE (fields 12 [(0, 1, 4)]) 0 1 < 5 ∧ fieldLE (fields 12 []) 1 1 < 2 ∧ zeroBytes (fields 12 []) 2 2 = true ∧
    ((1, 2) : Byte × Byte) ∉ ([(1, 1), (3, 8)] : List (Byte × Byte)) ∧ (2 : Byte).toNat < 0x10 := by decide +kernel
/-- The last offset below 2^32 whose block answers nothing, and offsets of CAP and EVR. -/
theorem witness_i3c :
    let at_ := fun (o : W32) => ({ hub with side := { hub.side with i3cAddr := some 8, i3cOffset := o } } : State)
    hub.side.i3cAddr = none ∧ (at_ 0).side.i3cAddr ≠ none ∧ (at_ 0xFFFFFFF8).side.i3cOffset.toNat + 4 * 2 ≤ 2 ^ 32 ∧
    (∀ i, i < 2 → ((at_ 0xFFFFFFF8).side.i3cOffset.toNat + 4 * i) / 65536 ∉ ([0, 15, 17] : List Nat)) ∧
    (at_ 0).side.i3cOffset.toNat / 65536 ∈ ([0, 15, 17] : List Nat) ∧ ((at_ 0).regAt (at_ 0).side.i3cOffset.toNat).isSome = true ∧
    (at_ 0x110000).side.i3cOffset.toNat / 65536 ∈ ([0, 15, 17] : List Nat) ∧ ((at_ 0x110000).regAt 0x110000).isSome = true := by decide +kernel

end Sys2Proof.Tests
end

section
/-! Counter registers: what is read after a count, and what a count leaves as it is (R14). -/
namespace Sys2Proof.Machine

/-- A counter that saturates stops at the largest 32-bit word (R14). -/
theorem State.toNat_rd_bumpBy_of_not_wraps (s : State) {r : Reg} (n o : Nat) (h : r.wraps = false) :
    ((s.bumpBy r n o).rd r o).toNat = min ((s.rd r o).toNat + n) 0xFFFFFFFF := by
  have fits : min ((s.rd r o).toNat + n) 0xFFFFFFFF < 2 ^ 32 := by omega
  simp only [State.bumpBy, State.rd_wr_self, h, Bool.false_eq_true, if_false, BitVec.toNat_ofNat]
  exact Nat.mod_eq_of_lt fits

/-- A counter whose meaning says that it wraps counts modulo 2^32 (R14). -/
theorem State.toNat_rd_bumpBy_of_wraps (s : State) {r : Reg} (n o : Nat) (h : r.wraps = true) :
    ((s.bumpBy r n o).rd r o).toNat = ((s.rd r o).toNat + n) % 2 ^ 32 := by
  simp only [State.bumpBy, State.rd_wr_self, h, if_true, BitVec.toNat_ofNat]

/-- A count leaves every register with another key. -/
theorem State.rd_bumpBy_of_ne (s : State) (r q : Reg) (n o p : Nat) (h : q.key p ≠ r.key o) :
    (s.bumpBy r n o).rd q p = s.rd q p :=
  State.rd_wr_of_ne s r q _ o p h

/-- A count changes the registers alone. -/
theorem State.bumpBy_eq_with_regs (s : State) (r : Reg) (n o : Nat) :
    s.bumpBy r n o = { s with regs := (s.bumpBy r n o).regs } := rfl

/-- Settles O11: a count is one register write, whose word is read back in the counter and nowhere else. -/
theorem countersSaturate : Obligations.CountersSaturate := by
  unfold Obligations.CountersSaturate
  intro s r n o
  exact ⟨State.toNat_rd_bumpBy_of_not_wraps s n o, State.toNat_rd_bumpBy_of_wraps s n o,
    fun q p => State.rd_bumpBy_of_ne s r q n o p, State.bumpBy_eq_with_regs s r n o⟩

end Sys2Proof.Machine
end

section
/-! Packed sequences (R101): the elements, each cut to its width `w`, are the digits, base `2 ^ w`, of the number that the bytes hold. -/
namespace Sys2Proof.Machine

/-- The number whose digits, base `2 ^ w`, are the elements of a sequence cut to `w` bits, the first one lowest. -/
def packedNat (w : Nat) (l : List Nat) : Nat := Nat.ofDigits (2 ^ w) (l.map (· % 2 ^ w))

theorem packedNat_nil (w : Nat) : packedNat w [] = 0 := rfl

theorem packedNat_cons (w x : Nat) (l : List Nat) : packedNat w (x :: l) = x % 2 ^ w + 2 ^ w * packedNat w l := rfl

/-- The bytes of a packed sequence are those of the number that its elements are the digits of. -/
theorem packBits_eq_leBytes (w : Nat) (l : List Nat) : packBits w l = leBytes ((w * l.length + 7) / 8) (packedNat w l) := by
  simp only [packBits, packedNat, Nat.ofDigits_eq_sum_mapIdx, List.mapIdx_eq_zipIdx_map, List.zipIdx_map, List.map_map, pow_mul]
  rfl

/-- The number of a packed sequence has no bit beyond the elements. -/
theorem packedNat_lt (w : Nat) (l : List Nat) : packedNat w l < 2 ^ (w * l.length) := by
  induction l with
  | nil => simp [packedNat_nil]
  | cons x l ih =>
    have head : x % 2 ^ w < 2 ^ w := Nat.mod_lt _ (by positivity)
    calc packedNat w (x :: l) < 2 ^ w * (packedNat w l + 1) := by rw [packedNat_cons, mul_add]; omega
      _ ≤ 2 ^ w * 2 ^ (w * l.length) := Nat.mul_le_mul_left _ ih
      _ = 2 ^ (w * (x :: l).length) := by rw [← pow_add, List.length_cons, mul_add, mul_one, add_comm]

/-- Element `k` is found at bit `w * k`; beyond the last element the bits are 0. -/
theorem packedNat_div_mod (w : Nat) (l : List Nat) (k : Nat) : packedNat w l / 2 ^ (w * k) % 2 ^ w = l.getD k 0 % 2 ^ w := by
  induction l generalizing k with
  | nil => simp [packedNat_nil]
  | cons x l ih =>
    cases k with
    | zero => simp [packedNat_cons]
    | succ k =>
      have tail : (x % 2 ^ w + 2 ^ w * packedNat w l) / 2 ^ w = packedNat w l := by
        rw [Nat.add_mul_div_left _ _ (by positivity), Nat.div_eq_of_lt (Nat.mod_lt _ (by positivity)), zero_add]
      rw [packedNat_cons, mul_add, mul_one, add_comm (w * k), pow_add, ← Nat.div_div_eq_div_mul, tail, ih, List.getD_cons_succ]

/-- The bytes of a packed sequence hold its number whole: none of the bits is cut off. -/
theorem leNat_packBits (w : Nat) (l : List Nat) : leNat (packBits w l) = packedNat w l := by
  have room : 2 ^ (w * l.length) ≤ 256 ^ ((w * l.length + 7) / 8) := by
    rw [show 256 = 2 ^ 8 from rfl, ← pow_mul]
    exact Nat.pow_le_pow_right (by decide) (by omega)
  rw [packBits_eq_leBytes, leNat_leBytes, Nat.mod_eq_of_lt ((packedNat_lt w l).trans_le room)]

/-- Byte `i` of the low bytes of a number. -/
theorem leBytes_getD (n v i : Nat) (h : i < n) : (leBytes n v).getD i 0 = BitVec.ofNat 8 (v / 256 ^ i) := by
  induction n generalizing v i with
  | zero => omega
  | succ n ih =>
    cases i with
    | zero => simp [leBytes]
    | succ i => rw [leBytes, List.getD_cons_succ, ih _ _ (by omega), Nat.div_div_eq_div_mul, pow_succ']

/-- A byte of a packed FP4 sequence holds an element of even index low and the one after it high. -/
theorem packBits_four_getD (l : List Nat) (i : Nat) (h : 2 * i + 1 < l.length) :
    (packBits 4 l).getD i 0 = BitVec.ofNat 8 (l.getD (2 * i) 0 % 16 + l.getD (2 * i + 1) 0 % 16 * 16) := by
  have low : packedNat 4 l / 256 ^ i % 16 = l.getD (2 * i) 0 % 16 := by
    have := packedNat_div_mod 4 l (2 * i)
    rwa [← mul_assoc, pow_mul] at this
  have high : packedNat 4 l / 256 ^ i / 16 % 16 = l.getD (2 * i + 1) 0 % 16 := by
    have := packedNat_div_mod 4 l (2 * i + 1)
    rwa [mul_add, ← mul_assoc, pow_add, pow_mul, ← Nat.div_div_eq_div_mul] at this
  rw [packBits_eq_leBytes, leBytes_getD _ _ _ (by omega), ← low, ← high]
  apply BitVec.eq_of_toNat_eq
  simp only [BitVec.toNat_ofNat]
  omega

/-- Settles O10: the bytes hold the number whose digits are the elements, so an element is read back as a digit of it. -/
theorem packedWithoutGaps : Obligations.PackedWithoutGaps := by
  unfold Obligations.PackedWithoutGaps
  intro w l
  have length : (packBits w l).length = (w * l.length + 7) / 8 := by rw [packBits_eq_leBytes, leBytes_length]
  rw [leNat_packBits]
  refine ⟨length, packedNat_lt w l, fun k _ => packedNat_div_mod w l k, ?_, ?_⟩
  · rintro i rfl h
    exact packBits_four_getD l i h
  · rintro rfl h
    rw [length, h]

end Sys2Proof.Machine
end

section
/-! Conversions (R103, R105): the exact value is rounded once, to the neighbour that the mode names, and then held to the range. -/
namespace Sys2Proof.Machine

/-! ### One rounding of an exact magnitude -/

/-- Whether the mode takes the larger neighbour (R103) of an exact magnitude that lies the fraction `x` of the gap above the neighbour of
number `g`. -/
def RoundsUp (mode r g : Nat) (x : ℚ) : Prop :=
  (mode = 0 ∧ (1 - x < x ∨ (x = 1 - x ∧ g % 2 = 1))) ∨ (mode = 2 ∧ (2 : ℚ) ^ 32 ≤ ⌊x * 2 ^ 32⌋ + r)

/-- An exact value is its own lower neighbour in every mode. -/
theorem not_roundsUp_zero (mode g : Nat) {r : Nat} (hr : r < 2 ^ 32) : ¬ RoundsUp mode r g 0 := by
  have hr' : (r : ℚ) < 2 ^ 32 := by exact_mod_cast hr
  rintro (⟨-, h | ⟨h, -⟩⟩ | ⟨-, h⟩)
  · norm_num at h
  · norm_num at h
  · rw [zero_mul, Int.floor_zero, Int.cast_zero, zero_add] at h
    exact absurd h (not_le.mpr hr')

/-- For a fraction of whole numbers the choice is the comparison of whole numbers that the model makes. -/
theorem roundsUp_div_iff (mode r g : Nat) {rem d : Nat} (hd : 0 < d) :
    RoundsUp mode r g ((rem : ℚ) / d) ↔
      (mode = 0 ∧ (d < rem * 2 ∨ (rem * 2 = d ∧ g % 2 = 1))) ∨ (mode = 2 ∧ 2 ^ 32 ≤ rem * 2 ^ 32 / d + r) := by
  have hd' : (0 : ℚ) < d := by exact_mod_cast hd
  have above : 1 - (rem : ℚ) / d < rem / d ↔ d < rem * 2 := by
    rw [sub_lt_iff_lt_add, ← add_div, one_lt_div hd', ← mul_two]
    exact_mod_cast Iff.rfl
  have tie : (rem : ℚ) / d = 1 - rem / d ↔ rem * 2 = d := by
    rw [eq_sub_iff_add_eq, ← add_div, div_eq_one_iff_eq hd'.ne', ← mul_two]
    exact_mod_cast Iff.rfl
  have draw : (2 : ℚ) ^ 32 ≤ ⌊(rem : ℚ) / d * 2 ^ 32⌋ + r ↔ 2 ^ 32 ≤ rem * 2 ^ 32 / d + r := by
    have cut : ⌊(rem : ℚ) / d * 2 ^ 32⌋ = ((rem * 2 ^ 32 / d : Nat) : Int) := by
      rw [div_mul_eq_mul_div]
      exact_mod_cast Rat.floor_natCast_div_natCast (rem * 2 ^ 32) d
    rw [cut]
    exact_mod_cast Iff.rfl
  rw [RoundsUp, above, tie, draw]

/-- A number is a whole number and a fraction in one way only. -/
theorem natCast_add_fraction_inj {n g : Nat} {y x : ℚ} (hy : 0 ≤ y ∧ y < 1) (hx : 0 ≤ x ∧ x < 1) (h : (n : ℚ) + y = g + x) :
    n = g ∧ y = x := by
  obtain ⟨hy0, hy1⟩ := hy
  obtain ⟨hx0, hx1⟩ := hx
  have hn : n = g := by
    apply le_antisymm <;> apply Nat.lt_succ_iff.mp <;> rw [← Nat.cast_lt (α := ℚ)] <;> push_cast <;> linarith
  exact ⟨hn, by rw [hn] at h; linarith⟩

/-- A magnitude that is a multiple of the unit is not rounded. -/
theorem roundMag_of_le (mode r m : Nat) {e q : Int} (h : q ≤ e) : roundMag mode r m e false q = m * 2 ^ (e - q).toNat := by
  rw [roundMag, if_pos h]

/-- A magnitude that has `sh` bits below the unit is cut there, and the mode chooses by the bits cut off. -/
theorem roundMag_of_shift (mode m : Nat) {r sh : Nat} (hr : r < 2 ^ 32) (hsh : 0 < sh) (e : Int) :
    roundMag mode r m e false (e + sh) = m / 2 ^ sh +
      if (mode = 0 ∧ (2 ^ sh < m % 2 ^ sh * 2 ∨ (m % 2 ^ sh * 2 = 2 ^ sh ∧ m / 2 ^ sh % 2 = 1))) ∨
        (mode = 2 ∧ 2 ^ 32 ≤ m % 2 ^ sh * 2 ^ 32 / 2 ^ sh + r) then 1 else 0 := by
  have below : ¬ e + sh ≤ e := by omega
  have shift : (e + sh - e).toNat = sh := by omega
  have unit : 2 ^ sh ≠ 0 := by positivity
  simp only [roundMag, if_neg below, shift, Bool.not_false, Bool.and_true, decide_eq_true_eq]
  by_cases hrem : m % 2 ^ sh = 0
  · simpa [hrem, unit.symm] using fun _ => hr
  · rw [if_neg hrem]
    match mode with
    | 0 => simp [add_ite]
    | 1 => simp
    | 2 => simp [add_ite]
    | _ + 3 => simp

/-- `roundMag` rounds an exact magnitude to a multiple of the unit `2 ^ q` once: it takes the multiple `g` below or the next one, as the mode
says of the fraction `x` above `g` (R103). -/
theorem roundMag_eq {r m g : Nat} {e q : Int} {x : ℚ} (mode : Nat) (hr : r < 2 ^ 32) (hx : 0 ≤ x ∧ x < 1)
    (hv : (m : ℚ) * 2 ^ e = (g + x) * 2 ^ q) :
    (RoundsUp mode r g x → roundMag mode r m e false q = g + 1) ∧ (¬ RoundsUp mode r g x → roundMag mode r m e false q = g) := by
  rcases le_or_gt q e with hq | hq
  · -- nothing lies below the unit
    have whole : ((m * 2 ^ (e - q).toNat : Nat) : ℚ) + 0 = g + x := by
      have split : e = (e - q).toNat + q := by omega
      rw [split, zpow_add₀ two_ne_zero, zpow_natCast, ← mul_assoc, mul_left_inj' (by positivity)] at hv
      rw [← hv]
      push_cast
      exact add_zero _
    obtain ⟨hg, rfl⟩ := natCast_add_fraction_inj ⟨le_rfl, one_pos⟩ hx whole
    rw [roundMag_of_le mode r m hq, hg]
    exact ⟨fun up => absurd up (not_roundsUp_zero mode g hr), fun _ => rfl⟩
  · obtain ⟨sh, hsh, rfl⟩ : ∃ sh : Nat, 0 < sh ∧ q = e + sh := ⟨(q - e).toNat, by omega, by omega⟩
    have unit : 0 < 2 ^ sh := by positivity
    have unit' : (0 : ℚ) < (2 ^ sh : Nat) := by exact_mod_cast unit
    have parts : ((m / 2 ^ sh : Nat) : ℚ) + ((m % 2 ^ sh : Nat) : ℚ) / (2 ^ sh : Nat) = g + x := by
      have sum : (2 : ℚ) ^ sh * (m / 2 ^ sh : Nat) + (m % 2 ^ sh : Nat) = m := by exact_mod_cast Nat.div_add_mod m (2 ^ sh)
      rw [add_comm e, zpow_add₀ two_ne_zero, zpow_natCast, ← mul_assoc, mul_left_inj' (by positivity), ← sum] at hv
      push_cast at hv ⊢
      field_simp
      linarith
    obtain ⟨hg, rfl⟩ := natCast_add_fraction_inj
      ⟨by positivity, (div_lt_one unit').mpr (by exact_mod_cast Nat.mod_lt m unit)⟩ hx parts
    rw [roundMag_of_shift mode m hr hsh e, hg, roundsUp_div_iff mode r g unit]
    exact ⟨fun up => by rw [if_pos up], fun down => by rw [if_neg down, add_zero]⟩

/-! ### Floating-point targets -/

/-- The exponent of the smallest magnitude of a format. -/
def FpFormat.lowExp (f : FpFormat) : Int := 1 - (f.bias : Int) - (f.manBits : Int)

theorem FpFormat.magnitude_eq (f : FpFormat) (g : Nat) : f.magnitude g =
    if g / 2 ^ f.manBits = 0 then (g : ℚ) * 2 ^ f.lowExp
    else ((2 ^ f.manBits + g % 2 ^ f.manBits : Nat) : ℚ) * 2 ^ (f.lowExp + (g / 2 ^ f.manBits : Nat) - 1) := rfl

/-- Every magnitude is a number of units of its binade: `k` is the binade above the lowest, and `l` the units, fewer than twice the mantissa's
and, above the lowest binade, no fewer than the mantissa's. -/
theorem FpFormat.exists_units (f : FpFormat) (g : Nat) :
    ∃ k l, g = k * 2 ^ f.manBits + l ∧ (k = 0 ∨ 2 ^ f.manBits ≤ l) ∧ l < 2 * 2 ^ f.manBits := by
  have hP : 0 < 2 ^ f.manBits := by positivity
  have low := Nat.mod_lt g hP
  have parts := Nat.div_add_mod' g (2 ^ f.manBits)
  cases h : g / 2 ^ f.manBits with
  | zero => exact ⟨0, g, by omega, .inl rfl, by rw [h] at parts; omega⟩
  | succ k => exact ⟨k, 2 ^ f.manBits + g % 2 ^ f.manBits, by rw [h, add_mul] at parts; omega, .inr (by omega), by omega⟩

/-- The value of a magnitude given in units of its binade; the next binade's first magnitude is given so too. -/
theorem FpFormat.magnitude_units (f : FpFormat) {k l : Nat} (hk : k = 0 ∨ 2 ^ f.manBits ≤ l) (hl : l ≤ 2 * 2 ^ f.manBits) :
    f.magnitude (k * 2 ^ f.manBits + l) = l * 2 ^ (f.lowExp + k) := by
  have hP : 0 < 2 ^ f.manBits := by positivity
  have exponent : (k * 2 ^ f.manBits + l) / 2 ^ f.manBits = k + l / 2 ^ f.manBits := by
    rw [add_comm, Nat.add_mul_div_right _ _ hP, add_comm]
  have mantissa : (k * 2 ^ f.manBits + l) % 2 ^ f.manBits = l % 2 ^ f.manBits := Nat.mul_add_mod' ..
  rw [FpFormat.magnitude_eq, exponent, mantissa]
  rcases Nat.lt_or_ge l (2 ^ f.manBits) with sub | norm
  · have hk : k = 0 := by omega
    simp [hk, Nat.div_eq_of_lt sub]
  · rcases hl.lt_or_eq with inside | rfl
    · have one : l / 2 ^ f.manBits = 1 := Nat.div_eq_of_lt_le (by omega) (by omega)
      have rest : 2 ^ f.manBits + l % 2 ^ f.manBits = l := by
        have := Nat.div_add_mod' l (2 ^ f.manBits)
        rw [one] at this
        omega
      rw [one, if_neg (by omega), rest]
      push_cast
      ring_nf
    · rw [Nat.mul_div_cancel _ hP, Nat.mul_mod_left, if_neg (by omega)]
      have next : f.lowExp + ((k + 2 : Nat) : Int) - 1 = 1 + (f.lowExp + k) := by omega
      rw [next, zpow_add₀ two_ne_zero, zpow_one]
      push_cast
      ring

theorem fpRoundMag_zero (f : FpFormat) (mode r : Nat) (e : Int) : fpRoundMag f mode r 0 e false = 0 := rfl

/-- A nonzero magnitude is rounded in the units of its own binade, or of the lowest one. -/
theorem fpRoundMag_of_ne_zero (f : FpFormat) (mode r : Nat) {m : Nat} (e : Int) (hm : m ≠ 0) :
    let q := max (e + m.log2 - f.manBits) f.lowExp
    fpRoundMag f mode r m e false = (q - f.lowExp).toNat * 2 ^ f.manBits + roundMag mode r m e false q := by
  have top : e + ((m.log2 + 1 : Nat) : Int) - 1 - f.manBits = e + m.log2 - f.manBits := by omega
  simp only [fpRoundMag, bitLength, if_neg hm, top, decide_eq_false hm, Bool.false_and, Bool.false_eq_true, if_false, FpFormat.lowExp]

/-- The binade that the model takes for a nonzero magnitude: the one in whose units it counts fewer than twice the mantissa's, or the lowest. -/
theorem fpRoundMag_units (f : FpFormat) (mode r : Nat) {m k : Nat} {e : Int} (hm : m ≠ 0)
    (hlo : k = 0 ∨ (2 : ℚ) ^ f.manBits * 2 ^ (f.lowExp + k) ≤ m * 2 ^ e)
    (hhi : (m : ℚ) * 2 ^ e < 2 * 2 ^ f.manBits * 2 ^ (f.lowExp + k)) :
    fpRoundMag f mode r m e false = k * 2 ^ f.manBits + roundMag mode r m e false (f.lowExp + k) := by
  have two : (1 : ℚ) < 2 := one_lt_two
  have topLe : (2 : ℚ) ^ (e + m.log2) ≤ m * 2 ^ e := by
    rw [zpow_add₀ two_ne_zero, zpow_natCast, mul_comm]
    exact mul_le_mul_of_nonneg_right (by exact_mod_cast Nat.log2_self_le hm) (by positivity)
  have ltTop : (m : ℚ) * 2 ^ e < 2 ^ (e + m.log2 + 1) := by
    rw [add_assoc, zpow_add₀ two_ne_zero, mul_comm]
    exact mul_lt_mul_of_pos_left (by exact_mod_cast Nat.lt_log2_self) (by positivity)
  have upper : e + m.log2 < 1 + f.manBits + (f.lowExp + k) := by
    rw [← zpow_lt_zpow_iff_right₀ two, zpow_add₀ two_ne_zero (1 + _), zpow_add₀ two_ne_zero 1, zpow_one, zpow_natCast]
    exact topLe.trans_lt hhi
  have lower : k = 0 ∨ f.manBits + (f.lowExp + k) < e + m.log2 + 1 := hlo.imp_right fun h => by
    rw [← zpow_lt_zpow_iff_right₀ two, zpow_add₀ two_ne_zero, zpow_natCast]
    exact h.trans_lt ltTop
  have unit : max (e + m.log2 - f.manBits) f.lowExp = f.lowExp + k := by omega
  rw [fpRoundMag_of_ne_zero f mode r e hm, unit, add_sub_cancel_left, Int.toNat_natCast]

/-- Two magnitudes of the same parity round alike. -/
theorem roundsUp_congr_parity {mode r g l : Nat} (x : ℚ) (h : g % 2 = l % 2) : RoundsUp mode r g x ↔ RoundsUp mode r l x := by
  simp only [RoundsUp, h]

/-- The fraction of a gap, in the distances to its two ends (R103). -/
theorem roundsUp_between_iff (mode r g : Nat) {a b : ℚ} (v : ℚ) (hab : a < b) : RoundsUp mode r g ((v - a) / (b - a)) ↔
    (mode = 0 ∧ (b - v < v - a ∨ (v - a = b - v ∧ g % 2 = 1))) ∨ (mode = 2 ∧ (2 : ℚ) ^ 32 ≤ ⌊(v - a) / (b - a) * 2 ^ 32⌋ + r) := by
  have gap : 0 < b - a := sub_pos.mpr hab
  have rest : 1 - (v - a) / (b - a) = (b - v) / (b - a) := by rw [eq_div_iff gap.ne', sub_mul, div_mul_cancel₀ _ gap.ne']; ring
  rw [RoundsUp, rest, div_lt_div_iff_of_pos_right gap, div_left_inj' gap.ne']

/-- A conversion takes one of the two magnitudes that bracket the exact value, as the mode says (R103). -/
theorem fpRoundMag_between (f : FpFormat) (hman : 1 ≤ f.manBits) (mode g : Nat) {r m : Nat} {e : Int} (hr : r < 2 ^ 32)
    (ha : f.magnitude g ≤ m * 2 ^ e) (hb : (m : ℚ) * 2 ^ e < f.magnitude (g + 1)) :
    let x := ((m : ℚ) * 2 ^ e - f.magnitude g) / (f.magnitude (g + 1) - f.magnitude g)
    (RoundsUp mode r g x → fpRoundMag f mode r m e false = g + 1) ∧ (¬ RoundsUp mode r g x → fpRoundMag f mode r m e false = g) := by
  obtain ⟨k, l, rfl, hk, hl⟩ := f.exists_units g
  have unit : (0 : ℚ) < 2 ^ (f.lowExp + k) := by positivity
  rw [add_assoc, f.magnitude_units (hk.imp_right fun h => h.trans (Nat.le_succ l)) hl] at hb ⊢
  rw [f.magnitude_units hk hl.le] at ha ⊢
  intro x
  have hx : x = (m * 2 ^ e - l * 2 ^ (f.lowExp + k)) / 2 ^ (f.lowExp + k) := by
    simp only [x]
    congr 1
    push_cast
    ring
  have hv : (m : ℚ) * 2 ^ e = (l + x) * 2 ^ (f.lowExp + k) := by rw [hx]; field_simp; ring
  have hx01 : 0 ≤ x ∧ x < 1 := by
    rw [hx, div_lt_one unit]
    push_cast at hb
    exact ⟨div_nonneg (by linarith) unit.le, by linarith⟩
  have parity : (k * 2 ^ f.manBits + l) % 2 = l % 2 := by
    obtain ⟨n, hn⟩ : 2 ∣ 2 ^ f.manBits := dvd_pow_self 2 (by omega)
    rw [hn, mul_left_comm, Nat.mul_add_mod]
  rw [roundsUp_congr_parity x parity]
  by_cases hm : m = 0
  · have zero : ((0 : Nat) : ℚ) + 0 = l + x := by
      rw [hm, Nat.cast_zero, zero_mul, eq_comm, mul_eq_zero, or_iff_left unit.ne'] at hv
      rw [hv, Nat.cast_zero, add_zero]
    obtain ⟨rfl, hx0⟩ := natCast_add_fraction_inj ⟨le_rfl, one_pos⟩ hx01 zero
    have lowest : k = 0 := hk.resolve_right (not_le.mpr (by positivity))
    rw [← hx0, hm, lowest, zero_mul]
    exact ⟨fun up => absurd up (not_roundsUp_zero mode 0 hr), fun _ => fpRoundMag_zero f mode r e⟩
  · have rounded := roundMag_eq mode hr hx01 hv
    rw [fpRoundMag_units f mode r hm]
    · exact ⟨fun up => by rw [rounded.1 up], fun down => by rw [rounded.2 down]⟩
    · refine hk.imp_right fun h => le_trans ?_ ha
      exact mul_le_mul_of_nonneg_right (by exact_mod_cast h) unit.le
    · refine hb.trans_le (mul_le_mul_of_nonneg_right ?_ unit.le)
      exact_mod_cast hl

/-- What a rounded magnitude becomes under the range of a format (R105). -/
def FpFormat.held (f : FpFormat) (sat : Bool) (mode h : Nat) : Nat :=
  if h ≤ f.maxMag then h else if f.hasInf ∧ sat = false ∧ mode ≠ 1 then f.maxMag + 1 else f.maxMag

theorem fpSign_eq (f : FpFormat) (neg : Bool) : fpSign f neg = if neg then 2 ^ (f.width - 1) else 0 := by
  rw [fpSign, FpFormat.width, add_assoc, Nat.add_sub_cancel_left]

/-- A finite operand becomes its rounded magnitude, held to the range, under its sign. -/
theorem fpConvert_fin (f : FpFormat) (sat neg : Bool) (mode r m : Nat) (e : Int) :
    (fpConvert f sat mode r (.fin neg m e)).1 = fpSign f neg + f.held sat mode (fpRoundMag f mode r m e false) := by
  simp only [fpConvert, fpRoundFin, FpFormat.held]
  by_cases fits : fpRoundMag f mode r m e false ≤ f.maxMag
  · simp only [if_pos fits]
  · by_cases inf : f.hasInf ∧ sat = false ∧ mode ≠ 1
    · obtain ⟨hinf, hsat, hmode⟩ := inf
      simp [fits, hinf, hsat, hmode, add_assoc]
    · rw [if_neg fits, if_neg fits, if_neg inf, if_neg (by simpa [and_assoc] using inf)]

/-- An infinity stays one where the target has it and does not saturate. -/
theorem fpConvert_inf (f : FpFormat) (sat neg : Bool) (mode r : Nat) :
    (fpConvert f sat mode r (.inf neg)).1 = fpSign f neg + if f.hasInf ∧ sat = false then f.maxMag + 1 else f.maxMag := by
  by_cases inf : f.hasInf ∧ sat = false
  · simp [fpConvert, inf, add_assoc]
  · rw [fpConvert, if_neg inf, if_neg (by simpa using inf)]

theorem fpConvert_nan (f : FpFormat) (sat : Bool) (mode r : Nat) : (fpConvert f sat mode r .nan).1 = f.nanBits.getD 0 := by
  rw [fpConvert]
  cases f.nanBits <;> rfl

/-- Every format of R99 has a mantissa. -/
theorem manBits_pos_of_fpFormat {code : Nat} {f : FpFormat} (h : fpFormat code = some f) : 1 ≤ f.manBits := by
  unfold fpFormat at h
  split at h <;> cases h <;> decide

/-! ### INT8 -/

/-- A rounded magnitude is held to 127 and takes the operand's sign in two's complement (R99, R105). -/
theorem int8Convert_fin {mx : Bool} {mode r m k : Nat} {e : Int} (neg : Bool) (hk : roundMag mode r m e false (if mx then -6 else 0) = k) :
    (int8Convert mx mode r (.fin neg m e)).1 = (BitVec.ofInt 8 (if neg then -(min k 127 : Int) else min k 127)).toNat := by
  simp only [int8Convert, hk, BitVec.toNat_ofInt]
  by_cases big : k > 127
  · rw [if_pos big, min_eq_right (by omega)]
    cases neg <;> rfl
  · rw [if_neg big, min_eq_left (by omega)]
    cases neg
    · simp only [Bool.false_and, Bool.false_eq_true, if_false]
      omega
    · simp only [Bool.true_and, if_true, bne_iff_ne]
      split <;> omega

/-- The unit of INT8 is 1, or `2 ^ -6` under a shared scale (R99). -/
theorem int8_unit (mx : Bool) : (if mx then (2 : ℚ) ^ (-6 : Int) else 1) = 2 ^ (if mx then -6 else 0 : Int) := by
  cases mx <;> rfl

/-- Settles O8: in the units of its binade, or of INT8, every magnitude is a whole number and a fraction, which `roundMag_eq` rounds. -/
theorem conversionRoundsOnce : Obligations.ConversionRoundsOnce := by
  unfold Obligations.ConversionRoundsOnce
  refine ⟨?_, ?_, ?_, ?_⟩
  · intro code f neg sat m e mode r g hf _ hr v a b ha hb up mag sign
    have choice : RoundsUp mode r g ((v - a) / (b - a)) ↔ up := roundsUp_between_iff mode r g v (ha.trans_lt hb)
    obtain ⟨larger, smaller⟩ := fpRoundMag_between f (manBits_pos_of_fpFormat hf) mode g hr ha hb
    rw [fpConvert_fin, fpSign_eq]
    exact ⟨fun h => by rw [larger (choice.mpr h)]; rfl, fun h => by rw [smaller (mt choice.mp h)]; rfl⟩
  · intro code f neg sat mode r _
    rw [fpConvert_inf, fpConvert_nan, fpSign_eq]
    exact ⟨rfl, rfl⟩
  · intro mx neg m e mode r g _ hr v gap ha hb frac up byte
    have unit : 0 < gap := by rw [show gap = _ from int8_unit mx]; positivity
    have hv : v = (g + frac) * gap := by rw [add_sub_cancel, div_mul_cancel₀ _ unit.ne']
    have fraction : 0 ≤ frac ∧ frac < 1 :=
      ⟨sub_nonneg.mpr ((le_div_iff₀ unit).mpr ha), sub_lt_iff_lt_add'.mpr ((div_lt_iff₀ unit).mpr hb)⟩
    obtain ⟨larger, smaller⟩ := roundMag_eq mode hr fraction (hv.trans (congrArg _ (int8_unit mx)))
    exact ⟨fun h => int8Convert_fin neg (larger h), fun h => int8Convert_fin neg (smaller h)⟩
  · intro mx neg mode r
    exact ⟨rfl, rfl⟩

end Sys2Proof.Machine
end

section
/-! The words of the slice instructions (R126): the sum that spells a form, each field times the weight of its lowest bit, is the fields
written one after the other from bit 31 down. -/
namespace Sys2Proof.Machine

/-- A field appended below a word moves the word up by the field's width. -/
theorem toNat_append_eq_mul_add {m n : Nat} (x : BitVec m) (y : BitVec n) : (x ++ y).toNat = x.toNat * 2 ^ n + y.toNat := by
  rw [BitVec.toNat_append, ← Nat.shiftLeft_add_eq_or_of_lt y.isLt, Nat.shiftLeft_eq]

/-- Form V (R126); VS has the same layout, with a scalar register in the place of `vc`. -/
theorem wordV_eq_append (op : BitVec 6) (vd va vb vc : BitVec 5) (mask mode : BitVec 3) :
    wordV op.toNat vd.toNat va.toNat vb.toNat vc.toNat mask.toNat mode.toNat = op ++ vd ++ va ++ vb ++ vc ++ mask ++ mode := by
  apply BitVec.eq_of_toNat_eq
  simp only [wordV, BitVec.toNat_ofNat, toNat_append_eq_mul_add]
  omega

/-- Form C (R126). -/
theorem wordC_eq_append (op : BitVec 6) (vd va : BitVec 5) (fr sel : BitVec 8) :
    wordC op.toNat vd.toNat va.toNat fr.toNat sel.toNat = op ++ vd ++ va ++ fr ++ sel := by
  apply BitVec.eq_of_toNat_eq
  simp only [wordC, BitVec.toNat_ofNat, toNat_append_eq_mul_add]
  omega

/-- Form T (R126). -/
theorem wordT_eq_append (op : BitVec 6) (v sa : BitVec 5) (stream : BitVec 4) (sel : BitVec 8) (rsv : BitVec 4) :
    wordT op.toNat v.toNat sa.toNat stream.toNat sel.toNat rsv.toNat = op ++ v ++ sa ++ stream ++ sel ++ rsv := by
  apply BitVec.eq_of_toNat_eq
  simp only [wordT, BitVec.toNat_ofNat, toNat_append_eq_mul_add]
  omega

/-- Form D (R126). -/
theorem wordD_eq_append (op : BitVec 6) (vd va : BitVec 5) (slot field : BitVec 3) (rsv : BitVec 4) (mask mode : BitVec 3) :
    wordD op.toNat vd.toNat va.toNat slot.toNat field.toNat rsv.toNat mask.toNat mode.toNat =
      op ++ vd ++ va ++ slot ++ field ++ rsv ++ mask ++ mode := by
  apply BitVec.eq_of_toNat_eq
  simp only [wordD, BitVec.toNat_ofNat, toNat_append_eq_mul_add]
  omega

/-- Form S (R126). -/
theorem wordS_eq_append (op : BitVec 6) (sd sa sb sub : BitVec 5) (rsv : BitVec 6) :
    wordS op.toNat sd.toNat sa.toNat sb.toNat sub.toNat rsv.toNat = op ++ sd ++ sa ++ sb ++ sub ++ rsv := by
  apply BitVec.eq_of_toNat_eq
  simp only [wordS, BitVec.toNat_ofNat, toNat_append_eq_mul_add]
  omega

/-- Form SI (R126). -/
theorem wordSI_eq_append (op : BitVec 6) (sd sa : BitVec 5) (imm : BitVec 16) :
    wordSI op.toNat sd.toNat sa.toNat imm.toNat = op ++ sd ++ sa ++ imm := by
  apply BitVec.eq_of_toNat_eq
  simp only [wordSI, BitVec.toNat_ofNat, toNat_append_eq_mul_add]
  omega

/-- Form B (R126). -/
theorem wordB_eq_append (op : BitVec 6) (sa : BitVec 5) (cond : BitVec 3) (rsv : BitVec 2) (off : BitVec 16) :
    wordB op.toNat sa.toNat cond.toNat rsv.toNat off.toNat = op ++ sa ++ cond ++ rsv ++ off := by
  apply BitVec.eq_of_toNat_eq
  simp only [wordB, BitVec.toNat_ofNat, toNat_append_eq_mul_add]
  omega

/-- Settles O7: the fields in a row are the form's word, and the encoder gives each row of the table that word; form VS has the layout of V. -/
theorem sliceWordForms : Obligations.SliceWordForms := by
  unfold Obligations.SliceWordForms
  intro k a b c d mask mode slot field fr sel stream rsv4 rsv6 rsv2 imm f5 f3 f4
  refine ⟨?_, ?_, ?_, ?_, ?_, ?_, ?_⟩
  · intro e row
    rw [← wordV_eq_append]
    fin_cases row <;> rfl
  · rw [← wordC_eq_append]
    rfl
  · intro e row
    rw [← wordT_eq_append]
    fin_cases row <;> rfl
  · intro e row
    rw [← wordD_eq_append]
    fin_cases row <;> rfl
  · intro e row
    rw [← wordS_eq_append]
    fin_cases row <;> rfl
  · intro e row
    rw [← wordSI_eq_append]
    fin_cases row <;> rfl
  · intro e row
    rw [← wordB_eq_append]
    fin_cases row <;> rfl

end Sys2Proof.Machine
end
